-- ==== Sys2Proof/Word.lean ====
section
/-! DEFINITION. The word types of the TF64 model (spec 00 "Conventions"). -/

namespace Sys2Proof

/-- One byte. -/
abbrev Byte := BitVec 8

/-- A register word of a BAR window (R430). -/
abbrev W32 := BitVec 32

/-- A 64-bit count or identifier: PTC, session ID (R26, R28), a host address. -/
abbrev W64 := BitVec 64

/-- A saddle number, 0 to 7. -/
abbrev SadNo := Fin 8

/-- A write or read channel of the head, 0 to 63. -/
abbrev ChNo := Fin 64

/-- A sample port, 0 to 3. -/
abbrev PortNo := Fin 4

/-- A PCI Express function: 0 is PF0, n is VFn (R425). -/
abbrev FnNo := Fin 9

/-- A preamplifier group of 16 channels (R294). -/
abbrev GroupNo := Fin 4

end Sys2Proof
end

