-- ==== Sys2Proof/Config.lean ====
section
/-! DEFINITION. The free values: what the spec leaves open and the machine goes on from. None has a
body, so nothing proved in this package rests on a value of one (log 8). The counter argument is
`State.free`, which the step that uses a draw advances. -/

namespace Sys2Proof.Config

/-- A word of the on-chip entropy source (R28, R176, R390); the argument is the draw's number. -/
opaque entropy : Nat → Nat

/-- The fine-stage command of the track-following PID (R355: its gains are not stated), from the
PES in nm, the crossover in Hz and the draw number. -/
opaque trackPid : Int → Nat → Nat → Int

/-- The coarse stage's step that re-centres a fine command past ±90 % (R355: its size is not stated), in µm, from the
fine command and the draw number. -/
opaque coarseStep : Int → Nat → Int

/-- The speed in mm/s that encoder counts of a tick show where no servo frame is valid (R354: the reel radii's estimate
is not stated), from the counts and the draw number. -/
opaque encoderSpeed : Int → Nat → Nat

/-- The reel torque difference of the tension PI (R361: gains not stated), from the tension
estimate and setpoint in mN and the draw number. -/
opaque tensionPi : Nat → Nat → Nat → Int

/-- The common reel torque of the speed PI (R362: gains not stated), from the measured and
commanded speed in mm/s and the draw number. -/
opaque speedPi : Nat → Int → Nat → Int

/-- The tension estimate in mN (R361: the estimator's coefficients are not stated), from the two
motor currents, the two encoder counts and the draw number. -/
opaque tensionEstimate : Int → Int → Nat → Nat → Nat → Nat

/-- The content of a factory-programmed byte of the boot code, which the spec does not print:
slot (0 A, 1 B, 2 stage-1) and offset (R401). -/
opaque factoryByte : Nat → Nat → Byte

/-- A hard decision of a row that no detector output stands for (R336, R337: a row never received, or of an ignored
channel): data set, row of the data set and column. -/
opaque hardByte : Nat → Nat → Nat → Byte

/-- The lateral position in nm by which a wedge reading of ratio `num/den` at a scale is signed
by the dither (R359: the sign's derivation is not stated); the last argument is the draw number. -/
opaque wedgeSign : Nat → Bool

/-- The fine-stage command, in units of HP_FINE, that moves the head by a number of nm (R359, R378: the stage's gain is
not stated). -/
opaque ditherCode : Nat → Int

/-- A byte delivered for a sealed PASS girth that the reading saddle has no key for, under BEST (R257, R346: what stands
there is not stated): girth number and offset. -/
opaque sealedByte : Nat → Nat → Byte

/-- VERSION of a factory-programmed image: slot (0 A, 1 B, 2 stage-1) (R412). -/
opaque factoryVersion : Nat → Nat

/-- SCHEMA of a factory-programmed image (R412). -/
opaque factorySchema : Nat → Nat

/-- A byte of a configuration record in flash whose value rests on parameter IDs, which the spec does not print
(R407): version and offset. -/
opaque cfgByte : Nat → Nat → Byte

/-- How many entries of a power-fail record were programmed when power was lost before it was complete (R65,
R406); the argument is the draw's number. -/
opaque pfEntries : Nat → Nat

/-- What a TEST DRAM that was cut short leaves at an address (R502). -/
opaque testByte : Nat → Nat → Byte

/-- The number of the unit in the Device Serial Number capability (INFO DEV, R425). -/
opaque deviceSerial : Nat

/-- A byte that fills the last frame of a girth closed inside a frame (R211 and R232: a girth closed early
holds whole frames; what completes its last one is not stated). -/
opaque framePad : Nat → Byte

/-- The proportional and the integral gain of the timing loop (R327: a bandwidth is stated, no gains), from the bandwidth
in ppm of the bit rate. -/
opaque timingGain : Nat → Rat × Rat

/-- The gain step in acquisition (R325: up to ±4 codes, its size is not stated), from the sum of 8 absolute samples and the
target in ADC codes. -/
opaque agcAcquire : Nat → Nat → Int

/-- The data set that LOCATE names for a girth in the buffer that no data set on tape holds (R171, R189: the reply gives
`ds=`, its value is not stated); the argument is the draw's number. -/
opaque bufferedDs : Nat → Nat

/-- Whether the record being programmed when power is lost or PORST_N is asserted is left half programmed (file 18, corner cases); the
argument is the draw's number. -/
opaque tornRecord : Nat → Bool

/-- A byte of a record that was half programmed (R394 fixes none): SEQ and offset. -/
opaque tornByte : Nat → Nat → Byte

end Sys2Proof.Config
end

