-- ==== Sys2Proof/Syntax.lean ====
section
/-! DEFINITION. The commands of the TF64: one constructor of `Instr` for each row of
spec/opcode_table.json, with the operands the environment brings into that step, and the types those
operands are made of. -/

namespace Sys2Proof

/-- A channel: the admin channel or a saddle acting on itself (R170). -/
inductive Chan where
  | adm
  | sad (n : SadNo)
deriving DecidableEq, Repr, Inhabited

/-- A line transport (R117), in the order of R121. -/
inductive Transport where
  | pf0
  | vf (n : SadNo)      -- VF(n+1)
  | sp (p : PortNo)
  | console
deriving DecidableEq, Repr, Inhabited

/-- Major modes as MODE_STAT encodes them (R31). -/
inductive Mode where
  | starting | park | stage | stream | service | halt
deriving DecidableEq, Repr, Inhabited

/-- HALT causes (register MODE_STAT). -/
inductive HaltCause where
  | none | overrun | watchdog | vcore | thermal | motion | dram | xtal | firmware
deriving DecidableEq, Repr, Inhabited

/-- A session's mode (R117). -/
inductive SesMode where
  | typed | generated
deriving DecidableEq, Repr, Inhabited

/-- QoS class of a saddle. -/
inductive QosClass where
  | rate | share | idle
deriving DecidableEq, Repr, Inhabited

/-- Coding policy (R236). -/
inductive Policy where
  | pass | bound | fit
deriving DecidableEq, Repr, Inhabited

/-- Sample format (R232). -/
inductive Fmt where
  | none | s16 | s24 | s32
deriving DecidableEq, Repr, Inhabited

/-- What a saddle is bound to (R72). -/
inductive Binding where
  | none | vf | sp (p : PortNo) | console
deriving DecidableEq, Repr, Inhabited

/-- A firmware slot (R401). -/
inductive Slot where
  | a | b
deriving DecidableEq, Repr, Inhabited

/-- An UPDATE target (R205). -/
inductive Target where
  | a | b | stage1
deriving DecidableEq, Repr, Inhabited

/-- An action that ARM opens a window for (R176). -/
inductive ArmAction where
  | stage1 | kek
deriving DecidableEq, Repr, Inhabited

/-- A calibration item, in the fixed order of R503. -/
inductive CalItem where
  | adc | tension | servo | heads | write | eq
deriving DecidableEq, Repr, Inhabited

/-- What a diagnostic is (DIAG_STAT WHAT). -/
inductive DiagWhat where
  | none | cal | dram | flash | loop | pattern
deriving DecidableEq, Repr, Inhabited

/-- Event severity (R493). -/
inductive Sev where
  | info | warn | error
deriving DecidableEq, Repr, Inhabited

/-- The parts of cartridge memory CM reads (R179). -/
inductive CmPart where
  | dir | head | epochs | eod | session | raw (addr len : Nat)
deriving DecidableEq, Repr, Inhabited

/-- An element of a plait list (R191): an owning saddle, FREE or FILL. -/
inductive SlotEl where
  | owner (n : SadNo) | free | fill
deriving DecidableEq, Repr, Inhabited

/-- The target of a LOCATE (R189). -/
inductive LocTarget where
  | girth (g : Nat) | ds (d : Nat) | bot | eod
deriving DecidableEq, Repr, Inhabited

/-- The distance of a SPACE (R199). -/
inductive SpaceBy where
  | marks (n : Int) | girths (n : Int)
deriving DecidableEq, Repr, Inhabited

/-- The data source or buffer of a WRITE or READ (R210, R444). -/
inductive XferList where
  | none
  | sg (l : List (Nat × Nat))      -- address, length
  | sgt (addr count : Nat)
  | words (l : List W64)           -- console d=
deriving DecidableEq, Repr, Inhabited

/-- The arguments of WRITE (R210). -/
structure WriteArgs where
  len : Nat
  src : XferList := .none
  recEnd : Bool := true
deriving DecidableEq, Repr, Inhabited

/-- The arguments of READ (R193). -/
structure ReadArgs where
  girth : Option Nat := none
  len : Nat
  dst : XferList := .none
  fill : Option Bool := none       -- some true: ZERO; some false: BEST
deriving DecidableEq, Repr, Inhabited

/-- The arguments of SADDLE op=SET (R196). -/
structure SadSetArgs where
  cls : Option QosClass := none
  rate : Option Nat := none
  weight : Option Nat := none
  policy : Option Policy := none
  ratio : Option Nat := none
  format : Option Fmt := none
  lanes : Option Nat := none
deriving DecidableEq, Repr, Inhabited

/-- The parameters of the tree (R506), one name per row of the spec's parameter tables; an entry
with an instance segment stands for all its instances. The `stat.` leaves of R501 are the last
group. -/
inductive PId where
  | tickSource | tickFtickEdge | tickPeriodNs | tickState | tickOverruns | tickPtc | tickSession
  | powerMode | powerHaltCause | avsEnable | avsPmbusAddr | avsMarginPct | avsFloor | avsCeiling
  | powerVcore | clkPolicy | clkFixedMhz | clkMhz | powerTj
  | sadBind | sadClass | sadRate | sadWeight | sadIrqTicks | sadIrqCount | sadCloseTicks | sadFollow | sadLagMax
  | plaitMode | plaitFreeSlots | plaitHeadroom | plaitCoder | plaitEpoch | plaitLength | plaitVPlan
  | consoleSeat | consoleBaud | consoleEventLevel
  | ackWindow | sadWindow | guardHoldTicks | lockMode | lockMaxTicks | seqNext | seqDeferred | locksUsed
  | armTicks | updateState | updateNextOff
  | poolFloor | poolCap | poolHeld | mediaFloor | raMax | raKeepFree | auditRun | auditAge | poolCaddies | poolSharedFree
  | codePolicy | codeRatio | codeFormat | codeLanes | codeFBytes | sealOn | sealSlot
  | tapeDs | tapeWrap | tapeQLast | indexEntries | forceIndex
  | pesLimit | shockG | shockWaive | clearTicks | identMax
  | iterMax | snrDb | rewriteBudget | acceptRows | chanFailRows
  | wplEnable | wplRows | wplSettle | wplLatGain | curMin | curMax | pcMax | seedCur | seedPc | seedOfs
  | chanMapOut | chanFailed
  | agcTarget | dropoutPct | acqBw | trkBw | eqTarget | eqMuShift | eqSeedTaps | detAdaptShift
  | ldpcRounds | ldpcIter | c2EMax | c3EMax | rescuePasses | rescueIter | readFill | chanIgnore | wedgeMode | aheadDs | aheadIdle
  | servoBw | lostFrames | regainFrames | ffEnable | ffShift | ffLimit | wedgeDither
  | tensionMn | accel | bhAccel | locateSpeed | motionSpeed | motionTension
  | targetFill | reinKp | reinKi | reinDwell | turnLead | lowPolicy | bhResumeFill | bhMaxTicks | readSpeed | reinVff | reinVtarget
  | ewDs | loadsWarn | cmSenseMv | cmBackoff | cmTimeout
  | healthTicks | fwRun | fwTrial | cfgVersion | cfgParent | cfgDirty
  | maxGts | maxWidth | subsysVendor | subsysId | admIrqTicks | admIrqCount | pcieLink
  | wordBits | portFlow | outGate | leadMax | portLead
  | pollUs | shockAddr | shockReg | shockLsb | shockInit | shockPresent | temp0Addr | temp1Addr | temp0C | temp1C | tempPeriod
  | flashLevel | flashPerS | eventSeq | eventLost
  | adcTrim | servoGain | wedgeScale | tensionKt | latScale
  | diagState | diagErrors | diagTicks | diagPass
  | stLineOk | stLineBadsum | stLineBadline | stPoolBadret | stInhCnt | stInhTicks | stAbandon | stRwr | stC2 | stC2Failcol
  | stC3Cnt | stRescue | stLockLoss | stRaHit | stBhCnt | stPadDs | stMdlErr | stFlashErases | stFlashFails | stFlashReerase
  | stLinkDown | stAerCor | stAerUnc | stFlrCnt | stSenErr | stPclErr | stEvtLost | stEvtWarn | stEvtError
  | stSpIn | stSpRepeat | stSpOvr | stHoleCnt
  | stWait | stSlots | stMiss | stRefuse | stDeny | stStretch | stLossy | stFitpass | stMalf | stSealSkip
  | stWchRows | stWchBad | stRchRows | stRchBad
  | stDbCnt | stDoorbellIgn | stRplWait
deriving DecidableEq, Repr, Inhabited

/-- One parameter: its row and its instance segments (saddle, port or band first, direction second;
0 where the row has none). -/
structure Param where
  id : PId
  i : Nat := 0
  j : Nat := 0
deriving DecidableEq, Repr, Inhabited

/-- A parameter's value: a number (an enum's index, a bool as 0 or 1, a fixed value in units of
its last decimal), a list of numbers or a list of pairs. -/
inductive PVal where
  | n (v : Int)
  | l (vs : List Int)
  | p (ps : List (Int × Int))
deriving DecidableEq, Repr, Inhabited

/-- A parsed verb with its arguments, as a queue entry keeps it (R108, R169). -/
inductive Verb where
  | abort (tag : Nat) (sad : Option SadNo)
  | activate (slot : Slot)
  | arm (action : ArmAction)
  | cal (items : List CalItem) (band : Option (Fin 4))
  | chanList
  | chanOut (ch : ChNo)
  | chanIn (ch : ChNo)
  | clear (sad : Option SadNo)
  | cmRead (part : CmPart)
  | cmRepair
  | commit (note : String)
  | configs
  | confirm (action : ArmAction) (code : String)
  | discard (sad : Option SadNo) (fromG : Option Nat)
  | events (after : Option Nat) (n : Nat) (level : Sev)
  | get (names : List String)
  | hello (session : Option SesMode)
  | infoDev | infoFw | infoLink | infoDram | infoPorts
  | keyPart (slot : Fin 16) (seq : Fin 9) (w : W64)
  | keyLoad (slot : Fin 16)
  | keyZero (slot : Fin 16)
  | keyList
  | keyKek (seq : Fin 4) (w : W64)
  | load
  | locate (sad : Option SadNo) (target : LocTarget)
  | logText (text : String)
  | logSave
  | mark (note : String)
  | mode (target : Mode)
  | plaitShow (start n : Nat)
  | plaitPut (pos : Nat) (els : List SlotEl)
  | plaitApply
  | plaitAuto
  | qreset (sad : Option SadNo)
  | read (a : ReadArgs)
  | rollback (target : Option Nat)
  | saddleOpen (sad : SadNo)
  | saddleClose (sad : SadNo)
  | saddleSet (sad : SadNo) (a : SadSetArgs)
  | seal (sad : SadNo) (on : Bool) (slot : Option (Fin 16))
  | set (pairs : List (Param × PVal))
  | space (sad : Option SadNo) (by_ : SpaceBy)
  | sreset (sad : Option SadNo)
  | status (sad : Option SadNo)
  | sync
  | testDram (pass : Nat)
  | testFlash (pass : Nat)
  | testLoop (pass : Nat)
  | testPattern (pass : Nat)
  | time (t : Option Int) (text : Option String)
  | unload
  | updateBegin (target : Target) (len : Nat)
  | updateData (off : Nat) (d : List Byte)
  | updateDma (off addr len : Nat)
  | updateEnd
  | updateCancel
  | write (a : WriteArgs)
deriving DecidableEq, Repr, Inhabited

/-- What the environment brings to a tick boundary (R16, R23, R46, R53, R356). -/
structure TickIn where
  /-- firmware work of the ending tick is unfinished (R23) -/
  overrun : Bool := false
  /-- busy share of the control cluster in the ending tick, percent (R53) -/
  busyPct : Nat := 50
  /-- lowest timing margin any monitor read in the tick, hundredths of a percent (R46) -/
  marginMin : Int := 1000
  /-- supply-reel angle bin, 0 to 255 (R356) -/
  reelBin : Fin 256 := 0
  /-- external 13.56 MHz field at the antenna over the last 1 ms, in mV (R390) -/
  antennaMv : Nat := 0
deriving DecidableEq, Repr, Inhabited

/-- What the boot ROM and stage-1 find at a start that the spec does not fix (R50, R413, R424):
whether each image passes its signature check and digest, and whether the regulator answers. -/
structure BootObs where
  stage1Ok : Bool := true
  slotAOk : Bool := true
  slotBOk : Bool := true
  /-- the regulator answers VOUT_MODE with ULINEAR16 (R50) -/
  voutOk : Bool := true
deriving DecidableEq, Repr, Inhabited

/-- One stripe timing set of a servo frame at one reader (R351, R352): stripe times in ps of P, V,
N and of the next frame's P, measured from any common origin; a stripe not detected is missing. -/
structure StripeTimes where
  p : List Nat
  v : List Nat
  n : List Nat
  pNext : List Nat
deriving DecidableEq, Repr, Inhabited

/-- What the verify chain found of one row (R300). `bytes` is the decoded row (528 bytes) when C1
converged. -/
structure VerifyObs where
  bytes : Option (List Byte)
  iters : Nat
  /-- soft SNR estimate in quarter dB -/
  snrQ : Nat
deriving DecidableEq, Repr, Inhabited

/-- What a lane's front end met at a wedge: its preamble (R325-R327) and its sync window (R328). -/
structure AcqObs where
  /-- timing phase of the first 16 bits, in 1/4096 of a bit period -/
  zero : Int := 0
  /-- the 256 bits of the preamble: the sample in ADC codes, and the phase error in 1/4096 of a bit period -/
  bits : List (Int × Int) := []
  /-- the decided bits 224 to 320 of the expected wedge start -/
  sync : List Bool := []
deriving DecidableEq, Repr, Inhabited

/-- One bit in the read chain (R325-R332). -/
structure BitObs where
  /-- the sample at the bit rate, in ADC codes (R325, R326) -/
  adc : Int := 0
  /-- phase error by the tentative decisions, in 1/4096 of a bit period (R327) -/
  err : Int := 0
  /-- the 24 samples in the equaliser, newest first, in 1/1024 of the target's unit -/
  x : List Int
  /-- decisions, newest first: the bit and the three before it -/
  dec : List Bool
  /-- the decision of the bit after it -/
  next : Bool := false
deriving DecidableEq, Repr, Inhabited

/-- What one row slot, or one leader or trailer copy, brings through the read chain (R326-R334). -/
structure RowObs where
  /-- bits received from 2 before to 2 after the expected resync field, 36 bits (R329) -/
  resync : List Bool
  /-- the largest mean absolute phase error over 256 bits of the slot, in hundredths of a bit period (R329) -/
  phaseErr : Nat := 0
  /-- the detector's LLRs of the modulated bits after the resync field, one list for each global round (R333, R334) -/
  rounds : List (List Int)
  /-- soft SNR estimate in quarter dB -/
  snrQ : Nat := 40
  /-- the bits of the slot from its resync field on, with their tentative decisions (R325-R331) -/
  bits : List BitObs := []
  /-- the same bits with the decided bits of the row (R332) -/
  det : List BitObs := []
deriving DecidableEq, Repr, Inhabited

/-- What a rescue pass's detector gives for one stored row (R339): LLRs of its 4,752 codeword bits, one list for each global round. -/
structure RescueObs where
  ch : ChNo
  slotpos : Nat
  rounds : List (List Int)
deriving DecidableEq, Repr, Inhabited

/-- How a DMA request ended (R445). -/
inductive DmaErr where
  | ur | ca | timeout | poison
deriving DecidableEq, Repr, Inhabited

/-- A DMA transfer's kind (DMA_STAT) with what it brought. -/
inductive DmaKind where
  | slotFetch | tableFetch | writeData | updateDma | readData
deriving DecidableEq, Repr, Inhabited

/-- The result of a flash operation (R394). -/
inductive FlashOpKind where
  | erase | program | verify
deriving DecidableEq, Repr, Inhabited

/-- The outcome of one attempt of a sensor transaction as the bus saw it (R469, R471, R472): the bytes read, after a bus clear
where SDA was low at its start, or a failure, on a bus that stayed low or not. -/
inductive I2cObs where
  | good (data : List Byte) (cleared : Bool)
  | fail (busLow : Bool)
deriving DecidableEq, Repr, Inhabited

/-- Which PF reset event it is (R448). -/
inductive PfResetKind where
  | flr | hotReset | linkDisable | dlDown | peRstN
deriving DecidableEq, Repr, Inhabited

/-- AER errors (R450). -/
inductive AerErr where
  | receiverError | badTlp | badDllp | replayRollover | replayTimer | advisory
  | dllProtocol | poisonedTlp | completionTimeout | completerAbort | unexpectedCompletion
  | malformedTlp | unsupportedRequest
deriving DecidableEq, Repr, Inhabited

/-- The result of one calibration item as the procedure measured it (R503). -/
structure CalResult where
  item : CalItem
  /-- EQ: every channel seeded from tape reached `write.verify.snr_db`; the other items pass by their value -/
  pass : Bool
  value : Int
  sets : List (Param × PVal) := []
  /-- values per channel: band and direction as CAL_SEL's bits 5:3 code them, and 64 bytes -/
  perCh : List (Nat × List Nat) := []
  /-- the noise variances that EQ found, in 1/4096 (R332) -/
  sigma : List (ChNo × List Nat) := []
deriving DecidableEq, Repr, Inhabited

/-- What a TEST found (R504). -/
structure TestResult where
  errors : Nat := 0
  ticks : Nat := 0
  addr : Nat := 0
  perCh : List (ChNo × Nat) := []
  partialPass : Nat := 0
deriving DecidableEq, Repr, Inhabited

/-- The outcome of a transfer: what it brought, or how it failed. -/
inductive Res (ε α : Type) where
  | ok (a : α)
  | err (e : ε)
deriving DecidableEq, Repr

/-- A leader met by the scan of R392: data set, KIND, session, NEXT_SEQ, and of a TAIL its directory
image (R392). -/
structure LeaderObs where
  dsn : Nat
  kind : Nat
  session : W64
  nextSeq : List Nat
  wrap : Nat := 0
  image : Option (List Byte) := none
deriving DecidableEq, Repr, Inhabited

/-- What LOAD's steps found (R383). -/
structure LoadObs where
  empty : Bool := false
  threadFails : Bool := false
  /-- cartridge memory: none when it does not answer (or several UIDs do) -/
  cm : Option (List Byte) := none
  multi : Bool := false
  /-- leaders met by the scan of R392, in order -/
  scan : List LeaderObs := []
deriving DecidableEq, Repr, Inhabited

/-- One command: one row of spec/opcode_table.json. -/
inductive Instr where
  -- tick and chip
  | tickBoundary (x : TickIn)
  | ftickEdge (periodNs : Nat) (phaseNs : Int)
  | ftickMissing
  | porstAssert
  | porstDeassert (entropy : W64) (tmode : Bool) (gib16 : Bool) (obs : BootObs)
  | startUpComplete
  | supplyUndervoltage
  | xtalLost
  | pwrFailRecognised
  | powerFailRecordDone
  | flushDone
  | pwrFailReturn
  | watchdogExpiry (obs : BootObs)
  | coreRestart (obs : BootObs)
  | avsUpdate (margin : Int) (failedTries : Nat) (readMv : Nat)
  | thermWarn (tj : Int)
  -- language
  | lineIntake (t : Transport) (line : Option (List Byte))
  | consoleRxByte (b : Byte) (bad : Bool)
  | consoleBreak (bitTimes : Nat)
  | consoleRestore
  | lineFault
  | lineFaultRecovery (ticks : Nat)
  | commandStart (ch : Chan) (table : Option (List (Nat × Nat)))
  -- verbs
  | abort (ch : Chan) (target : Nat) (sad : Option SadNo)
  | activate (tag : Option Nat) (slot : Slot) (sigOk : Bool)
  | arm (tag : Option Nat) (action : ArmAction)
  | armExpiry
  | cal (tag : Option Nat) (items : List CalItem) (band : Option (Fin 4))
  | calComplete (results : List CalResult) (ticks : Nat)
  | chanList (tag : Option Nat)
  | chanOut (tag : Option Nat) (c : ChNo)
  | chanIn (tag : Option Nat) (c : ChNo)
  | clear (ch : Chan) (tag : Option Nat) (sad : Option SadNo)
  | cmRead (tag : Option Nat) (part : CmPart)
  | cmRepair (tag : Option Nat)
  | commit (tag : Option Nat) (note : String)
  | configs (ch : Chan) (tag : Option Nat)
  | confirm (tag : Option Nat) (action : ArmAction) (code : String)
  | discard (ch : Chan) (tag : Option Nat) (sad : Option SadNo) (fromG : Option Nat)
  | events (ch : Chan) (tag : Option Nat) (after : Option Nat) (n : Nat) (level : Sev)
  | get (ch : Chan) (tag : Option Nat) (names : List String)
  | hello (ch : Chan) (tag : Option Nat) (session : Option SesMode)
  | infoDev (ch : Chan) (tag : Option Nat)
  | infoFw (ch : Chan) (tag : Option Nat)
  | infoLink (ch : Chan) (tag : Option Nat)
  | infoDram (ch : Chan) (tag : Option Nat)
  | infoPorts (ch : Chan) (tag : Option Nat)
  | keyPart (tag : Option Nat) (slot : Fin 16) (seq : Fin 9) (w : W64)
  | keyLoad (tag : Option Nat) (slot : Fin 16)
  | keyZero (tag : Option Nat) (slot : Fin 16)
  | keyList (tag : Option Nat)
  | keyKek (tag : Option Nat) (seq : Fin 4) (w : W64)
  | load (tag : Option Nat)
  | loadComplete (obs : LoadObs)
  | locate (ch : Chan) (tag : Option Nat) (sad : Option SadNo) (target : LocTarget)
  /- `dsn` is where the leader probes ended, `probes` their number; for SPACE by marks, `moved` MARK girths were met on tape and
  `girth` is the last of them -/
  | tapePositioned (ch : Chan) (dsn : Nat) (probes : Nat) (moved : Nat) (girth : Option Nat)
  | logText (ch : Chan) (tag : Option Nat) (text : String)
  | logSave (tag : Option Nat)
  | mark (n : SadNo) (tag : Option Nat) (note : String)
  | mode (ch : Chan) (tag : Option Nat) (target : Mode)
  | modeComplete
  | plaitShow (ch : Chan) (tag : Option Nat) (start n : Nat)
  | plaitPut (tag : Option Nat) (pos : Nat) (els : List SlotEl)
  | plaitApply (tag : Option Nat)
  | plaitAuto (tag : Option Nat)
  | qreset (ch : Chan) (sad : Option SadNo)
  | read (n : SadNo) (tag : Option Nat) (a : ReadArgs)
  | readDelivered (n : SadNo)
  | rollback (tag : Option Nat) (target : Option Nat)
  | saddleOpen (tag : Option Nat) (n : SadNo)
  | saddleClose (tag : Option Nat) (n : SadNo)
  | saddleSet (ch : Chan) (tag : Option Nat) (n : SadNo) (a : SadSetArgs)
  | seal (tag : Option Nat) (n : SadNo) (on : Bool) (slot : Option (Fin 16))
  | set (ch : Chan) (tag : Option Nat) (pairs : List (Param × PVal))
  | space (ch : Chan) (tag : Option Nat) (sad : Option SadNo) (by_ : SpaceBy)
  | sreset (ch : Chan) (tag : Option Nat) (sad : Option SadNo)
  | status (ch : Chan) (tag : Option Nat) (sad : Option SadNo)
  | sync (n : SadNo) (tag : Option Nat)
  | syncComplete (n : SadNo)
  | testDram (tag : Option Nat) (pass : Nat)
  | testFlash (tag : Option Nat) (pass : Nat)
  | testLoop (tag : Option Nat) (pass : Nat)
  | testPattern (tag : Option Nat) (pass : Nat)
  | testComplete (r : TestResult)
  | time (ch : Chan) (tag : Option Nat) (t : Option Int) (text : Option String)
  | unload (tag : Option Nat)
  | unloadComplete (cmOk : Bool)
  | updateBegin (tag : Option Nat) (target : Target) (len : Nat)
  | updateData (tag : Option Nat) (off : Nat) (d : List Byte) (sigOk : Bool)
  | updateDma (tag : Option Nat) (off addr len : Nat) (d : List Byte) (sigOk : Bool)
  | updateEnd (tag : Option Nat) (sigOk : Bool)
  | updateCancel (tag : Option Nat)
  | write (n : SadNo) (tag : Option Nat) (a : WriteArgs)
  | acknowledge (n : SadNo)
  -- saddle resets and timeouts
  | saddleReset (n : SadNo)
  | saddleResetDone (n : SadNo)
  | guardHoldTimeout
  | lockWaitExpiry (n : SadNo)
  | closeTicksExpiry (n : SadNo)
  -- plait and media
  | plaitEpochStart
  | dataSetBoundary
  | wrapEnd
  | appendPositioning (confirmed : Bool)
  | rewriteAreaClose
  | rowVerify (c : ChNo) (slotpos : Nat) (obs : VerifyObs)
  | verifyWedge (c : ChNo) (identBits : List Bool) (burstA burstB : Nat)
  | inhibitClear
  | shockNFall
  | shockNRise
  | shockStuck
  | pclRxFrame (g : GroupNo) (frame : Option (List Byte))
  -- read
  | readWedgeSync (c : ChNo) (window : AcqObs) (identBits : List Bool) (burstA burstB : Nat)
  | readRowDecode (c : ChNo) (slotpos : Nat) (obs : RowObs)
  | c3Decode
  | rescuePass (obs : List RescueObs)
  | readaheadFull
  | readaheadResume
  -- servo and motion
  | servoFrame (readers : List (Fin 4 × StripeTimes))
  | servoBandLost (hi : Bool)
  | servoBandRegained (hi : Bool)
  | wedgePositionLost
  | tensionFault
  | mdlRxFrame (frame : Option (List Byte))
  | backhitchStart
  | backhitchResume
  -- cartridge memory and pool
  | cmBackoffExpiry (fieldMv : Nat)
  | cmTimeout
  | poolAuditWalkEnd (tally : List (Fin 12 × Nat))
  | descriptorParityError
  -- flash and firmware
  | flashOpComplete (op : FlashOpKind) (ok : Bool) (addr : Nat)
  | flashReadSuspend
  | flashDescriptor (idx : Fin 16) (fails : Option (Nat × Bool))
  | flashAccess (pcInRom : Bool) (addr : Nat)
  | trialMark
  | fwConfirm
  -- PCI Express
  | cmdDb (f : FnNo) (value : W32)
  | rplDb (f : FnNo) (value : W32)
  | cmdSlotFetch (f : FnNo) (slot : Res DmaErr (List Byte))
  | ringCtlWrite (f : FnNo) (value : W32)
  | irqCauseWrite (f : FnNo) (n : SadNo) (value : W32)
  | irqCoalWrite (f : FnNo) (n : SadNo) (value : W32)
  | pfIrqCauseWrite (value : W32)
  | pfIrqCoalWrite (value : W32)
  | registerWrite (f : FnNo) (off len : Nat) (value : W64)
  | barBadRead (f : FnNo) (off len : Nat)
  | loHalfRead (f : FnNo) (off : Nat)
  | hiHalfRead (f : FnNo) (off : Nat)
  | tickStatRead
  | pwrStatRead
  | conStatRead
  | codeStatRead (n : SadNo)
  | poolStatRead
  | ringStatRead (f : FnNo)
  | halfStatRead (f : FnNo)
  | spStatRead
  | shockMgRead
  | evtStatRead
  | flashStatRead
  | msixUnmask (f : FnNo) (vec : Fin 16)
  | vfFlr (n : SadNo)
  | pfReset (k : PfResetKind)
  | vfEnableChange (enable : Bool) (numVfs : Nat)
  | dmaComplete (f : FnNo) (kind : DmaKind) (result : Res (DmaErr × Nat) (List Byte))
  | tlpError (e : AerErr)
  -- sample ports and sensors
  | spDataWord (p : PortNo) (word : W32)
  | spControlByte (p : PortNo) (b : Byte)
  | spSelect (p : PortNo) (selD selC : Bool)
  | sensorPoll (shock temp0 temp1 : List I2cObs)
  | undervoltageRelease (entropy : W64) (tmode : Bool) (gib16 : Bool) (obs : BootObs)
  | pcieLinkUp (speed width : Nat)
  | firmwareAssertion
  | thermalCauseCleared (tj : Int)
  | crystalReturn
deriving DecidableEq, Repr

end Sys2Proof
end

