-- ==== Sys2Proof/Machine/State.lean ====
section
/-! DEFINITION. The state of the TF64 as plain data, the reasons a step can stop, and the state right
after reset (PORST_N asserted). A field's comment names the rule of spec/ that gives it. Counters are
natural numbers that their one increment operation keeps below their register's all-ones value (R500). -/

namespace Sys2Proof.Machine

/-- Why the model stops. -/
inductive Fault where
  /-- Raised by FLASH_DESCRIPTOR when a descriptor's DADDR range lies outside the buffer DRAM: the
  spec gives that address no existence (R213, R398). Safe: the machine stops and claims nothing. -/
  | dramHole (addr : Nat)
deriving DecidableEq, Repr

/-- Why a command has no meaning. -/
inductive Refusal where
  /-- A row whose meaning is not written; no arm of `exec` answers with it. Safe. -/
  | notModelled (mnemonic : String)
deriving DecidableEq, Repr

/-- An addressed memory: cells with strictly rising addresses, none holding what an unlisted address
reads as (0x00, log 5). -/
structure Mem where
  cells : List Host.Cell := []
deriving DecidableEq, Repr, Inhabited

/-- Reply status words (R130). -/
inductive Status where
  | ok | caught | late | unknown | deferred | hold | holes | busyQueue | busyPool | busyMode
  | denied | deniedQos | badline | badsum | badarg | notape | eom | fault
deriving DecidableEq, Repr, Inhabited

/-- The TAG field of a reply (R126): a queued command's, `--`, or `!!`. -/
inductive RTag where
  | q (tag : Nat) | imm | unsol
deriving DecidableEq, Repr, Inhabited

/-- One `key=value` field of a reply. -/
structure Fld where
  k : String
  v : String
deriving DecidableEq, Repr, Inhabited

/-- A reply: where it goes, its tag and word, its fields, and the fields of the further lines the verb
gives one by one (R126, R127). -/
structure Reply where
  tr : Transport
  ch : Chan := .adm
  tag : RTag
  status : Status
  fields : List Fld := []
  more : List (List Fld) := []
  rate : Bool := false              -- it answers a SET of `console.baud` (R138)
  ses : Option SesMode := none      -- it answers a HELLO with `session=` (R118)
  frees : Bool := true              -- its last line frees the tag (R139); not after a QRESET (R163)
deriving DecidableEq, Repr, Inhabited

/-- A girth as READ delivers it. -/
structure Piece where
  seq : Nat
  bytes : List Byte := []
  hole : Bool := false
  bad : Bool := false               -- MALFORMED
  k : Nat := 0                      -- largest loss shift
  recEnd : Bool := true
  noKey : Bool := false             -- sealed, and the reading saddle has no loaded slot (R257)
  skipped : Bool := false           -- a monitor has lost it (R102)
  stored : Bool := false            -- from READAHEAD
  cad : Option Nat := none          -- caddy that holds it (R158)
  work : Bool := false              -- it takes a block of the girth coder (R19)
  opens : Bool := false            -- it takes a girth of the sealing engine (R19)
deriving DecidableEq, Repr, Inhabited

/-- The outcome of a command before its completion is posted: status word and fields. -/
structure Outc where
  status : Status
  fields : List Fld := []
  more : List (List Fld) := []
deriving DecidableEq, Repr, Inhabited

/-- Phases of a queued command (file 05, "The model"). -/
inductive Phase where
  | queued | executing | committed
deriving DecidableEq, Repr, Inhabited

/-- Why a command waits (R93), as WAITWHY encodes it. -/
inductive WaitWhy where
  | none | slot | engine | pool | window | lock | halt | mode | tape | power | source | outbound | field
deriving DecidableEq, Repr, Inhabited

/-- A queued command (R139-R145). -/
structure Entry where
  tag : Nat
  verb : Verb
  tr : Transport
  seq : Nat                         -- intake order (R142)
  phase : Phase := .queued
  wait : Nat := 0                   -- wait= (R20)
  why : WaitWhy := .none
  got : Nat := 0                    -- bytes moved (R161)
  data : List Byte := []            -- unacknowledged bytes of a WRITE in caddies
  segs : List (Nat × Nat) := []     -- scatter list in force (R444)
  girth0 : Nat := 0
  ended : Option Outc := none       -- decided completion, posted in order (R142)
  startPtc : W64 := 0
  begun : Bool := false             -- its verb's own step has run
  unconf : Bool := false            -- a typed MODE without CONFIRM=yes (R34)
  awaitSeq : Bool := false          -- LOG text= waits for its record's SEQ (R190)
  res : Option Outc := none         -- a READ's outcome while its bytes go out (R460)
  refs : List Nat := []             -- caddies a READ references (R158)
  placed : Bool := false            -- a READ's first girth is settled (R143)
  pieces : List Piece := []         -- girths a READ of the saddle's own stream has taken, in order (R158)
  dec : Nat := 0                    -- how many of them the coder and the sealing engine have passed (R19)
  sent : Nat := 0                   -- bytes of a READ that host DMA has carried (R19)
  posted : Bool := false            -- its reply waits for room or is being written (R128, R139)
  lockAt : Option W64 := none       -- tick from which a READ waits for a range lock (R160)
  fromTape : Bool := false          -- a READ has waited for the tape
  late : Bool := false              -- decided in a tick whose firmware work was not finished (R23)
  frozen : Bool := false            -- a SYNC withheld while PWR_FAIL_N's effects last (R149)
deriving DecidableEq, Repr, Inhabited

/-- A channel's queue (R139). -/
structure Queue where
  entries : List Entry := []
deriving DecidableEq, Repr, Inhabited

/-- Kinds of girth (R239). -/
inductive GKind where
  | data | mark | time | fill
deriving DecidableEq, Repr, Inhabited

/-- A girth (R233, R239): its header fields, its input bytes, and once coded its body. -/
structure Girth where
  sad : SadNo
  seq : Nat
  kind : GKind := .data
  ratio : Nat := 0
  fmt : Fmt := .none
  lanes : Nat := 1
  recEnd : Bool := false
  recOff : Nat := 0
  content : List Byte := []         -- input block, or MARK/TIME content
  body : List Byte := []
  loss : List Nat := []
  isSealed : Bool := false
  coded : Bool := false
  rows : Nat := 8
  caddy : Nat := 0                  -- saddle caddy of its block (R214)
  ack : Nat := 0                    -- place of its acknowledgement among all saddles' (R64)
deriving DecidableEq, Repr, Inhabited

/-- Kinds of data set (R284). -/
inductive DsKind where
  | data | fill | marker | tail
deriving DecidableEq, Repr, Inhabited

/-- A data set being assembled or closed (R273, R278). -/
structure DataSet where
  kind : DsKind := .data
  sad : SadNo := 0
  ratio : Nat := 0
  flush : Bool := false
  girths : List Girth := []         -- in place order, FILL girths among them
  ptc : W64 := 0                    -- boundary at which assembly began
  block : List Byte := []           -- plait block (R285) or directory image (R392)
  grown : W64 := 0                  -- PTC of its last growth (R90)
  force : Bool := false             -- SYNC, reset or flush pending on it (R88)
  cads : List Nat := []             -- its MEDIA caddies, 64 once allocated (R214)
  used : Bool := false              -- the media engine references them (R224)
deriving DecidableEq, Repr, Inhabited

/-- Verification classes (R300). -/
inductive RCls where
  | fail | weak | good
deriving DecidableEq, Repr, Inhabited

/-- What is known of one written row: SDS and row, latest class, whether secured, whether a copy is
queued (R301, R302). -/
structure RowRec where
  sds : Nat
  row : Nat
  ch : ChNo                         -- channel that wrote the row in its slot
  cls : RCls
  secured : Bool
  copies : Nat := 0
deriving DecidableEq, Repr, Inhabited

/-- A rewrite copy placed in an area (R303, R305). -/
structure Copy where
  dsn : Nat
  sds : Nat
  row : Nat
  ch : ChNo
  slotpos : Nat
  done : Bool := false
deriving DecidableEq, Repr, Inhabited

/-- A data set on tape or on the lanes whose rows are not all verified (R301). -/
structure WDs where
  ds : DataSet
  dsn : Nat
  wrap : Nat
  epoch : Nat
  slot : Nat                        -- 0xFFFF when it takes none
  firstSeq : Nat := 0
  nGirths : Nat := 0
  nextSeq : List Nat := []
  outCh : List ChNo := []           -- channels mapped out or failed for it
  rows : List RowRec := []
  need : List (Nat × Nat) := []     -- needed copies in classification order
  want : List (Nat × Nat) := []
  area : List Copy := []            -- copies in its rewrite area
  q : Option Nat := none            -- fixed when the area closes
  trailer : Bool := false           -- its frame has ended
  nextArea : Bool := false          -- the area of d+1 has closed
  seen : Nat := 0                   -- rows classified
  failsOn : List (ChNo × Nat) := []
  pcs : List Nat := []              -- precompensation of its frame, by channel (R295, R308)
  dropped : Bool := false           -- its girths were discarded after it was sent (R163)
deriving DecidableEq, Repr, Inhabited

/-- Saddle states (file 03, "The model"). -/
inductive SadState where
  | closed | opened | hold
deriving DecidableEq, Repr, Inhabited

/-- Deferred causes (R150). -/
inductive DefCause where
  | none | channels | eom | verify | guard | seal
deriving DecidableEq, Repr, Inhabited

/-- A running saddle reset (R96). -/
structure ResetRun where
  start : W64
  ticks : Nat := 0                  -- boundaries since it was applied
  overruns : Nat := 0
deriving DecidableEq, Repr, Inhabited

/-- Interrupt latches of one function or saddle: cause bits, coalescing counts and thresholds (R79,
R80). -/
structure Irq where
  cause : List Nat := []            -- bits set
  cnt : List (Nat × Nat × W64) := []  -- cause, unposted events, tick of the first
  ticks : Nat := 1
  count : Nat := 1
  pendTicks : Option (Nat × Nat) := none  -- thresholds from the next boundary
  masked : Bool := false            -- by a saddle reset (R81)
  due : List Nat := []              -- uncoalesced causes to post
deriving DecidableEq, Repr, Inhabited

/-- The counters of a saddle (R94, R248, R252, R257, R347, R500). -/
structure SadCnt where
  wait : Nat := 0
  slots : Nat := 0
  miss : Nat := 0
  refQ : Nat := 0
  refP : Nat := 0
  deny : Nat := 0
  stretch : Nat := 0
  lossy : Nat := 0
  fitpass : Nat := 0
  malf : Nat := 0
  sealSkip : Nat := 0
  hole : Nat := 0
deriving DecidableEq, Repr, Inhabited

/-- The block under fill at the end of a saddle's stream (R211, R249). -/
structure Blk where
  bytes : List Byte := []
  recOff : Nat := 0
  recEnd : Bool := false
  caddy : Nat := 0
  grown : W64 := 0
  ack : Nat := 0                    -- acknowledgement that brought its first byte (R64)
deriving DecidableEq, Repr, Inhabited

/-- A saddle (file 03). -/
structure Saddle where
  st : SadState := .closed
  reset : Option ResetRun := none
  resetReq : Bool := false          -- reset pending at the boundary
  q : Queue := {}
  cause : DefCause := .none
  g : Nat := 0                      -- first girth not written, in HOLD
  owesDeferred : Bool := false      -- the DEFERRED reply waits for a line (R151)
  dropped : Option Nat := none      -- girth of R100
  defPend : List DefCause := []     -- deferred errors found in this tick, in order
  next : Nat := 0                   -- next girth number
  blk : Blk := {}
  acked : List Girth := []          -- acknowledged, not coded
  openDs : Option DataSet := none
  closed : List DataSet := []
  unsync : List (Nat × Nat) := []   -- acknowledged girths not on tape: number, bytes
  caddies : List (Nat × Nat) := []  -- input caddies in stream order: index, blocks coded
  readPos : Nat := 0
  posLost : Bool := false
  lastRead : Option W64 := none
  lag : Nat := 0                    -- girths a monitor skipped
  monRefs : List (Nat × Nat) := []  -- girth, caddy referenced as a monitor
  monData : List Girth := []        -- the referenced girths
  credits : Vector Int 8 := Vector.replicate 8 0  -- per engine (R91)
  freeCredit : Int := 0
  admitted : Nat := 0               -- admitted rate MB/s
  irq : Irq := {}
  cnt : SadCnt := {}
  maxK : Nat := 0
  sealWait : Bool := false
  flowPool : Bool := false          -- refused or waited on the pool (R223)
  flowQueue : Bool := false         -- refused with BUSY.QUEUE (R79)
  flowMode : Option Verb := none    -- a command answered BUSY.MODE whose condition lasts (R79)
  winFull : Bool := false           -- the window was full at the last boundary (R79)
  floorFull : Bool := false         -- the saddle held its floor
  sharedFull : Bool := false        -- the shared pool was empty
  ewTold : Bool := false            -- early warning latched this load
  ew : Bool := false
  drain : Nat := 0                  -- ticks of caddy release left after QRESET
  why : WaitWhy := .none
  guardTicks : Nat := 0             -- inhibited ticks while girths wait (R150)
deriving DecidableEq, Repr, Inhabited

/-- A plait (file 03): the slots of one epoch. -/
structure Plait where
  epoch : Nat := 0
  manual : Bool := false
  slots : List SlotEl := List.replicate 256 .free
  k : Vector Nat 8 := Vector.replicate 8 0   -- owned slots per saddle
  vIdx : Nat := 0                   -- planned speed step, v = 1.25 + 0.05 k
  marker : Option Nat := none       -- DSN of the marker
  flush : Bool := false
deriving DecidableEq, Repr, Inhabited

/-- An epoch known for locating (R291, R292): marker, slots, and anchors per saddle. -/
structure EpochRec where
  plait : Plait
  dsn : Nat
  next : List Nat                   -- marker's NEXT_SEQ
  anchors : List (SadNo × Nat × Nat) := []   -- saddle, u, g
  ratios : List Nat := []
  byArith : List Bool := []         -- RATE with PASS or BOUND
  fits : List Bool := []            -- policy FIT
  full : Bool := true               -- every anchor is held: the epoch was written in this load
deriving DecidableEq, Repr, Inhabited

/-- A leader held in the index cache (R292, R293). -/
structure IdxRec where
  dsn : Nat
  kind : DsKind
  sad : SadNo
  firstSeq : Nat
  girths : Nat
  nextSeq : List Nat
  wrap : Nat
  epoch : Nat
  slot : Nat
  ratio : Nat := 0
deriving DecidableEq, Repr, Inhabited

/-- The tick source (R7-R15). -/
structure TickSrc where
  ftick : Bool := false             -- FTICK selected
  periodNs : Nat := 100000
  lastLocked : Option Nat := none
  run : List Nat := []              -- consecutive good periods, newest first
  locked : Bool := false
  flywheel : Bool := false
  range : Bool := false
  target : Option Nat := none       -- period slewed to
  phase : Int := 0                  -- phase still to slew, ns: positive while the boundary lies late
  slewing : Bool := false
  frac : Nat := 0                   -- fraction of the period in force below `periodNs`, in 10⁻⁶ ns (R11)
  periodPend : Option Nat := none   -- period that takes effect at the next boundary (R6, R10)
  ovr : Nat := 0
  ovrRun : Nat := 0
deriving DecidableEq, Repr, Inhabited

/-- The clock: what only the tick and reset steps write (R26-R28, R68). -/
structure Clk where
  porst : Bool := true              -- PORST_N asserted
  uv : Bool := false                -- self-reset of R482
  ptc : W64 := 0
  session : W64 := 0
  hb : Bool := false
deriving DecidableEq, Repr, Inhabited

/-- State of a power domain (R31). -/
inductive Dom where
  | off | idle | on
deriving DecidableEq, Repr, Inhabited

/-- The domains (R31). -/
structure Domains where
  aon : Dom := .on
  host : Dom := .on
  dram : Dom := .off
  codec : Dom := .off
  write : Dom := .off
  read : Dom := .off
  motion : Dom := .off
  flash : Dom := .off
deriving DecidableEq, Repr, Inhabited

/-- The voltage loop (R44-R52). -/
structure Avs where
  vset : Nat := 850
  confirmed : Nat := 850
  enabled : Bool := false
  offBit : Bool := false            -- AVS_OFF
  frozen : Bool := false
  ceil : Bool := false
  critical : Bool := false          -- a margin below 1.0 % at the last boundary (R42, R48)
  failRun : Nat := 0
  misRun : Nat := 0
  wrote : Bool := false
  last : W64 := 0                   -- PTC of the last update (R44)
  offStart : Bool := false          -- disabled at a start-up of this session (R50)
deriving DecidableEq, Repr, Inhabited

/-- A mode change requested and waiting for its boundary (R35, R38). -/
structure ModeReq where
  ch : Chan
  tag : Option Nat
  target : Mode
deriving DecidableEq, Repr, Inhabited

/-- A mode transition under way (R35). -/
structure Trans where
  ch : Chan
  tag : Option Nat
  source : Mode
  target : Mode
  start : W64
  done : Bool := false              -- its steps have ended: it takes effect at the boundary (R6, R35)
deriving DecidableEq, Repr, Inhabited

/-- Power-failure state (R62-R66, R406). -/
structure PwrFail where
  recognised : Bool := false        -- PWR_STAT.PWR_FAIL
  waiting : Bool := false           -- recognised, acts at the next boundary
  flushDone : Bool := false
  pfRecord : Bool := false
  recPend : Bool := false           -- record being programmed
  returned : Bool := false          -- PWR_FAIL_N is high again
  hasRec : Bool := false            -- this recognition found an erased sector for its record (R406)
deriving DecidableEq, Repr, Inhabited

/-- Modes and power (file 02). -/
structure Power where
  mode : Mode := .starting
  target : Mode := .starting
  devReady : Bool := false
  cause : HaltCause := .none
  haltPend : Option HaltCause := none
  thermHold : Bool := false         -- THERMAL still holds
  xtalHold : Bool := false
  reqs : List ModeReq := []
  trans : Option Trans := none
  dom : Domains := {}
  avs : Avs := {}
  clk : Nat := 0                    -- CLK code 0-4
  clkDown : Nat := 0                -- steps down that take effect at the next boundary (R48, R54)
  cold : Bool := true               -- start-up from a power-on reset has not completed (R58 step 8)
  busy : List Nat := []             -- newest first, at most 64
  thermCap : Bool := false
  tj : Int := 0
  pf : PwrFail := {}
  recovery : Bool := false          -- R60
  dead : Bool := false              -- R424 step 2
  restartHalt : Bool := false       -- it ends in HALT
  restartPend : Bool := false       -- ACTIVATE restarts at the next boundary
  gib16 : Bool := true
deriving DecidableEq, Repr, Inhabited

/-- A console or control-channel session (R106, R117, R462). -/
structure Session where
  mode : SesMode := .typed
  next : Option SesMode := none     -- mode from the next line, once the HELLO reply has been sent (R118)
  line : List Byte := []            -- partly entered line
  long : Bool := false              -- over 200 characters
  badChar : Bool := false
  afterCr : Bool := false
  out : List Byte := []             -- output buffer
deriving DecidableEq, Repr, Inhabited

/-- A complete line waiting in a transport: its bytes, and what was wrong before the parser. -/
structure RawLine where
  bytes : List Byte
  long : Bool := false
  badChar : Bool := false
  slot : Option Nat := none         -- ring slot
  gen : Bool := true                -- session mode when it was received
  rej : Option Outc := none         -- a ring slot that could not be fetched (R440): its answer
deriving DecidableEq, Repr, Inhabited

/-- An immediate line taken in, to execute at the boundary (R124). -/
structure Imm where
  ch : Chan
  tr : Transport
  verb : Verb
  seq : Nat
  tag : Option Nat := none          -- a tagged HELLO of an unbound control channel (R119)
  free : Bool := false              -- from a control channel bound to no saddle
deriving DecidableEq, Repr, Inhabited

/-- A reply line that waits for room on its transport (R127). -/
structure OutLine where
  tr : Transport
  ch : Chan
  tag : RTag
  first : Bool
  last : Bool
  text : String
  rate : Bool := false              -- of the reply to a SET of `console.baud` (R138)
  ses : Option SesMode := none      -- of the reply to a HELLO with `session=` (R118)
  frees : Bool := true              -- it frees its tag (R139, R163)
deriving DecidableEq, Repr, Inhabited

/-- The language engine (file 04). -/
structure Filjo where
  waiting : List (Transport × List RawLine) := []
  rr : Nat := 13                    -- last transport served; 13 is the console (R121)
  taken : Nat := 0                  -- lines taken in this tick
  round : List Nat := []            -- transports that the running round of the tick has served (R121)
  seq : Nat := 0                    -- intake number
  imm : List Imm := []
  lineOk : Nat := 0
  badsum : Nat := 0
  badline : Nat := 0
  con : Session := {}
  conFault : Bool := false
  conBreak : Bool := false
  conRestored : Bool := false
  conIgnore : Bool := false
  baudPend : Option Nat := none
  baudLeft : Option Nat := none     -- output bytes up to the end of the reply that the new rate waits for (R138)
  baudHeld : Bool := false          -- a restore set 115,200 baud for the session (R136)
  baud : Nat := 115200
  conDrops : Nat := 0
  conCredit : Nat := 0              -- baud × ns of output time not yet used, toward the next character
  outq : List Reply := []           -- replies decided, to be written at the reply step
  lateSeq : Nat := 0                -- lines taken in before this number belong to a tick that overran (R23)
  lateOut : Nat := 0                -- replies of `outq` that belong to such a tick
  lines : List OutLine := []        -- lines that wait for room
deriving DecidableEq, Repr, Inhabited

/-- Who holds a reference to a caddy (R224, R226). -/
inductive Holder where
  | owner (o : Fin 12) | reader (n : SadNo) | media | reclaim
deriving DecidableEq, Repr, Inhabited

/-- The descriptor of an allocated caddy (file 07). -/
structure Caddy where
  idx : Nat
  owner : Option (Fin 12)
  holders : List Holder
  ptc : W64
deriving DecidableEq, Repr, Inhabited

/-- A release asked of the pool manager (R226). -/
structure Release where
  addr : Nat
  holder : Holder
deriving DecidableEq, Repr, Inhabited

/-- The pool (file 07). -/
structure Pool where
  total : Nat := 0
  caddies : List Caddy := []
  releases : List Release := []
  allocs : List (Fin 12) := []      -- allocation requests of this tick, oldest first
  badret : Nat := 0
  audRun : Bool := false
  audCont : Bool := false
  audDone : Bool := false
  leak : Bool := false
  audSel : Nat := 0
  aud : Vector (Nat × Nat) 12 := Vector.replicate 12 (0, 0)  -- count and age at the last walk
  audHeld : Nat := 0
  live : Vector Nat 12 := Vector.replicate 12 0              -- counts at the last boundary
  aged : List (Fin 12) := []        -- owners warned of
  ops : Nat := 0                    -- operations left in the tick
  debt : Nat := 0                   -- operations taken beyond the tick's budget, owed to the next (R220)
deriving DecidableEq, Repr, Inhabited

/-- The keys (R185, R256, R416). -/
structure Keys where
  slots : Vector (Option (List Byte)) 16 := Vector.replicate 16 none
  stage : Vector (List (Nat × W64)) 16 := Vector.replicate 16 []
  kek : Option (List Byte) := none
  kekStage : List (Nat × W64) := []
deriving DecidableEq, Repr, Inhabited

/-- The write-placement loop of one channel in one band and direction (R308). -/
structure Wpl where
  cur : Nat := 0
  pc : Nat := 0
  varPc : Bool := false
  dirUp : Bool := true
  mref : Rat := 0
  sumSnrQ : Nat := 0
  sumIter : Nat := 0
  n : Nat := 0
  sat : Bool := false
deriving DecidableEq, Repr, Inhabited

/-- A write channel (file 10). -/
structure WCh where
  wpl : Wpl := {}
  rows : Nat := 0
  failRows : Nat := 0
  weakRows : Nat := 0
  chsRun : Nat := 0
deriving DecidableEq, Repr, Inhabited

/-- What the write head is doing. -/
inductive Lane where
  | idle
  | frame (dsn : Nat)               -- a frame is on the lanes
deriving DecidableEq, Repr, Inhabited

/-- Write inhibit (R311-R318). -/
structure Inhibit where
  pes : Bool := false
  shockPin : Bool := false
  shockBus : Bool := false
  sensor : Bool := false
  ident : Bool := false
  latch : Bool := false
  holds : List (Nat × Nat) := []    -- causes that still hold: code (R318), boundaries since it was last present
  inhibited : Bool := false
  identRun : Nat := 0               -- IDENT inhibits on this wrap
  cnt : Nat := 0
  ticks : Nat := 0
  abandons : Nat := 0
deriving DecidableEq, Repr, Inhabited

/-- The media engine and write side (files 09, 10). -/
structure Media where
  append : Nat := 0                 -- DSN of the next data set (R386)
  positioned : Bool := false        -- the tape runs into the append point
  wrap : Nat := 0
  x : Nat := 0                      -- channel bits written on the wrap before the append point
  lane : Lane := .idle
  written : List WDs := []          -- oldest first, the last may be on the lanes
  again : Option WDs := none        -- abandoned data set, written first on resuming (R315)
  plait : Plait := {}
  next : List (Plait × W64) := []   -- plaits pending, with their completion ticks (R87)
  cursor : Nat := 0                 -- next slot
  staged : List (Nat × SlotEl) := []
  idleLast : Nat := 7               -- last IDLE saddle served (R89)
  wrapFirst : List Nat := [0]       -- wrap table (R287)
  epochs : List EpochRec := []
  index : List IdxRec := []
  nextSeq : Vector Nat 8 := Vector.replicate 8 0    -- NEXT_SEQ on this cartridge
  lastDsn : Vector Nat 8 := Vector.replicate 8 0
  stopped : Bool := false           -- R321
  stopAfter : Bool := false         -- stop once the data set in progress and FILL are written
  qHist : List Nat := []            -- last 64 Q, newest first
  qLast : Nat := 0
  gates : Vector Bool 4 := Vector.replicate 4 false
  arm : Vector Bool 4 := Vector.replicate 4 false
  ch : Vector WCh 64 := Vector.replicate 64 {}
  saved : List (Nat × Bool × ChNo × Nat × Nat) := []  -- session's last CUR, PC: band, dir, channel
  savedOfs : List (Nat × Bool × Rat) := []   -- session's last OFS: band, dir
  ofs : Rat := 0                    -- OFS in nm (R309)
  skew : Nat := 0
  delta : List (ChNo × Option Int) := []   -- offsets of the data set's wedges read so far; none: not readable (R309)
  settle : Nat := 0                 -- ticks the loop stays frozen (R310)
  satTold : List ChNo := []
  failed : List Nat := []           -- chan.failed (R320)
  mapShown : List Nat := []         -- WR_MAP, changed at data-set boundaries
  inh : Inhibit := {}
  rwr : Nat := 0
  pclErr : Vector Nat 4 := Vector.replicate 4 0
  pclRun : Vector Nat 4 := Vector.replicate 4 0
  eom : Bool := false
  flush : Bool := false             -- a flush epoch is being written
  flushStep : Nat := 0              -- 0 marker, 1 data, 2 tail, 3 FILL, 4 done
  flushEom : Bool := false
  eomTold : Bool := false           -- the flush epoch has met the end of the tape (R150)
  fillOwed : Bool := false          -- a FILL data set of R282 is owed
  wroteSinceLoad : Bool := false
  locks : List (SadNo × Nat × Nat × Nat) := []   -- saddle, tag, first, last (R159)
  ackSeq : Nat := 0                 -- acknowledgements given, all saddles together (R64)
  appendFail : Bool := false        -- R386 step 2 could not confirm the DSN
deriving DecidableEq, Repr, Inhabited

/-- A row the read chain accepted: payload and reserved bytes (R335). -/
structure RRow where
  sds : Nat
  row : Nat
  rank : Nat                        -- 0 slot, 1 area of d, 2 area of d+1 (R283)
  sad : SadNo := 0                  -- SADDLE of its header
  bytes : List Byte                 -- 516 bytes
deriving DecidableEq, Repr, Inhabited

/-- A stored erased row (R336). -/
structure RStored where
  sds : Nat
  row : Nat
  ch : ChNo
  slotpos : Nat
  area : Nat := 0
deriving DecidableEq, Repr, Inhabited

/-- The leader or trailer facts of a data set under read (R278-R280, R342). -/
structure RLead where
  dsn : Nat
  kind : Nat
  sad : SadNo
  ratio : Nat
  epoch : Nat
  ptc : W64
  session : W64
  firstSeq : Nat
  girths : Nat
  nextSeq : List Nat
  slot : Nat
  short : Bool
deriving DecidableEq, Repr, Inhabited

/-- A data set under reconstruction (R337-R343). -/
structure RDs where
  dsn : Nat
  wrap : Nat
  lead : Option RLead := none
  sadRow : Option SadNo := none     -- SADDLE of an accepted row's header (R342)
  epoch : Nat := 0                  -- EPOCH of the trailer (R342)
  trailer : Bool := false
  q : Nat := 0
  rows : List RRow := []            -- accepted rows and copies
  hard : List RRow := []            -- hard decisions of erased rows
  stored : List RStored := []       -- erased rows in the rescue store
  seen : Nat := 0                   -- row slots seen
  c2due : Bool := false             -- C2 waits for its engine's budget (R20)
  c3done : Bool := false
  dec : List (Nat × Nat × List Byte) := []   -- decoded columns: SDS, column, 120 bytes
  needC3 : Bool := false
  passes : Nat := 0
  gained : Bool := true             -- the last rescue pass accepted a row
  waits : Bool := false             -- held for the area of the next data set (R340)
  merged : Bool := false            -- the copies of the next area have been merged (R340)
deriving DecidableEq, Repr, Inhabited

/-- A girth the read chain rebuilt, ready for delivery (R344-R346, R349). -/
structure RGirth where
  sad : SadNo
  seq : Nat
  dsn : Nat
  sds : Nat := 0                    -- SDS it lies in
  rows : Nat := 8                   -- rows it occupies
  hdr : List Byte := []             -- its 16 header bytes; none in a hole stretch
  raw : List Byte := []             -- its body
  damaged : List Nat := []          -- offsets of damaged body bytes
  hole : Bool := false
  cad : Option Nat := none          -- READAHEAD caddy of its SDS
deriving DecidableEq, Repr, Inhabited

/-- What flags unreliable bits on a lane (R326). -/
structure Flagger where
  win : List Nat := []              -- absolute values of the last 32 samples, newest first
  low : Bool := false               -- in a dropout
  above : Nat := 0                  -- bits since the mean is back above the threshold
  clip : Nat := 0                   -- consecutive samples at −128 or +127
  hot : Nat := 0                    -- bits still flagged after a thermal asperity
deriving DecidableEq, Repr, Inhabited

/-- A read channel (file 11). -/
structure RCh where
  locked : Bool := false
  ident : Bool := true              -- identity matches the wrap read
  gain : Nat := 0
  adc : Int := 0                    -- ADC offset in force (R33, R324)
  agcSat : Bool := false
  eqSat : Bool := false
  taps : List Rat := []
  bias : List Rat := List.replicate 8 0
  var : List Rat := List.replicate 8 1
  floor : List Rat := List.replicate 8 (1 / 16)   -- from CAL EQ (R332)
  phase : Rat := 0                  -- timing phase, bit periods (R327)
  freq : Rat := 0                   -- deviation from the nominal bit rate (R327)
  tracking : Bool := false          -- decision-directed; false in acquisition (R327)
  late : List Int := []             -- phase errors of the last 8 bits, oldest first (R327)
  gainAt : Nat := 0                 -- gain code held at the last wedge (R325)
  agcN : Nat := 0                   -- bits since the gain loop's last update (R325)
  agcSum : Nat := 0                 -- sum of their absolute samples
  flags : Flagger := {}             -- R326
  frame : Int := 0                  -- framing shift since the sync mark, bits (R329)
  g1 : Rat := 0                     -- GPR3's coefficients (R331)
  g2 : Rat := 0
  snrQ : Nat := 0
  iterSum : Nat := 0
  iterN : Nat := 0
  iterMean : Nat := 0               -- over the last data set
  missRun : Nat := 0
  rows : Nat := 0
  erased : Nat := 0
  rescued : Nat := 0
deriving DecidableEq, Repr, Inhabited

/-- The read chain. -/
structure ReadCh where
  cur : Option RDs := none
  recon : List RDs := []            -- data sets read whose reconstruction goes on, oldest first (R338-R340)
  store : List RGirth := []         -- READAHEAD payloads, in data-set order
  lastDs : Nat := 0
  wedge : Bool := false
  reading : Bool := false
  stopped : Bool := true            -- tape stopped by read-ahead
  ch : Vector RCh 64 := Vector.replicate 64 {}
  wedgePos : List (ChNo × Int) := []
  noWedge : Nat := 0                -- tape passed in wedge mode since a wedge was accepted, thirds of a nanometre
  c2 : Nat := 0
  c2fail : Nat := 0
  c3n : Nat := 0
  holesN : Nat := 0
  rescue : Nat := 0
  lockLoss : Nat := 0
  raHit : Nat := 0
  locMethod : Nat := 0
  locProbes : Nat := 0
  dsNow : Option Nat := none        -- DSN under the read head
  wrap : Nat := 0                   -- wrap under the read head
  eodSeen : Bool := false           -- the continuity test has failed (R385)
  ends : Vector (Option Nat) 8 := Vector.replicate 8 none  -- per saddle, end of data in a data set without trailer (R156)
deriving DecidableEq, Repr, Inhabited

/-- Servo, tension and speed (file 12). -/
structure Servo where
  bandLo : Bool := false            -- servo band b readable
  bandHi : Bool := false
  gone : Vector Bool 2 := Vector.replicate 2 false   -- bands declared unreadable (R358)
  miss : Vector Nat 2 := Vector.replicate 2 0        -- consecutive frame times without a valid sample
  good : Vector Nat 2 := Vector.replicate 2 0        -- consecutive frame times with one
  follow : Bool := false
  wedgeMode : Bool := false
  lost : Bool := false
  readers : List Nat := []          -- readers with a valid sample in the last tick
  readersNow : List Nat := []       -- in the running tick
  pesSum : Int := 0                 -- of the running tick, nm
  pesN : Nat := 0
  pes : Int := 0                    -- mean of the last tick
  pesSq : Nat := 0                  -- since the data set began
  pesSqN : Nat := 0
  pesRms : Nat := 0
  speedSum : Nat := 0               -- mm/s, of the running tick
  speedN : Nat := 0
  speed : Nat := 0
  dirRev : Bool := false
  bits : Vector (List Bool) 2 := Vector.replicate 2 []   -- LINDEX bits per band, newest first
  prev : Vector (Option Nat) 2 := Vector.replicate 2 none -- last accepted LINDEX per band since acquisition
  lindex : Option (Nat × Nat) := none -- index and band of the last accepted word
  ffReel : List (Nat × Rat) := []   -- by band, direction and angle, nm
  ffLong : List (Nat × Rat) := []   -- by band, direction and metre, nm
  ff : Rat := 0                     -- FF in force, nm
  ffOn : Bool := false
  hpFine : Int := 0
  coarse : Bool := false
  coarseAt : Nat := 0
  wrapAt : Option Nat := none       -- wrap that the coarse target stands for
  tension : Nat := 0
  torqueDiff : Int := 0
  torqueSum : Int := 0
  setSpeed : Rat := 0               -- speed setpoint m/s
  mdlRun : Nat := 0
  mdlErr : Nat := 0
  mdlFaults : Nat := 0
  mdlWarn : Nat := 0                -- warning bits of the last valid RX frame
  encS : Nat := 0
  encT : Nat := 0
  encMoved : Int := 0               -- counts that the take-up reel turned in the last tick
  iS : Int := 0
  iT : Int := 0
  stopCmd : Bool := true
  outTicks : Nat := 0               -- ticks of tension out of range
  dither : Bool := false            -- sign of the wedge dither
  pos : Int := 0                    -- position m in thirds of a nanometre
deriving DecidableEq, Repr, Inhabited

/-- Backhitch phases (R374). -/
inductive BhPhase where
  | none | fill | wait | runUp
deriving DecidableEq, Repr, Inhabited

/-- The rein (R365-R375). -/
structure Rein where
  step : Nat := 0
  stepAt : W64 := 0
  dff : Rat := 0                    -- D_ff / D(5.00 m/s) of the plait in force
  ffMarker : Option Nat := none     -- marker of the plait that dff stands for
  vff : Rat := 0
  vtarget : Rat := 0
  integ : Rat := 0
  fill : Rat := 0
  hiSat : Bool := false
  satEpoch : Option Nat := none
  dither : Bool := false
  frozen : Bool := false
  stopped : Bool := false
  pad : Bool := false
  bh : BhPhase := .none
  bhAt : W64 := 0
  lowTicks : Nat := 0               -- ticks with e < 0 at 1.25 m/s
  bhCnt : Nat := 0
  padDs : Nat := 0
  acc : Rat := 0                    -- dither accumulator
deriving DecidableEq, Repr, Inhabited

/-- A running motion of LOAD, UNLOAD, LOCATE or SPACE (R174, R377, R383). -/
inductive MotionOp where
  | load | unload | seek (ch : Chan) (tag : Option Nat) | append
deriving DecidableEq, Repr, Inhabited

/-- The cartridge (file 13). -/
structure Cart where
  threaded : Bool := false
  loaded : Bool := false
  readonly : Bool := false
  source : Nat := 0                 -- 0 OK, 1 TAIL, 2 NONE
  opened : Bool := false            -- directory OPEN
  mem : Mem := {}                   -- cartridge memory, 32 KiB
  present : Bool := false           -- cartridge memory answers
  seqDir : Nat := 0
  copyB : Bool := false             -- copy in force
  loads : Nat := 0
  epochsN : Nat := 0
  logsN : Nat := 0
  heldEpochs : List (List Byte) := []
  heldLogs : List (List Byte) := []
  tail : Option (List Byte × Nat) := none  -- directory image and DSN of the tail data set that ends the recording (R179, R392)
  metres : Nat := 0
  passed : Nat := 0                 -- tape passed over the head since the load, thirds of a nanometre
  eodDsn : Nat := 0
  openSession : W64 := 0
  motion : Option MotionOp := none
  marked : Bool := false            -- the OPEN mark of this load is written
  cmWait : Option W64 := none       -- a cartridge-memory operation waits since
  cmDue : Nat := 0                  -- PTC of the next try (R390)
  field : Bool := false             -- an external field was sensed last (R390)
  rem : Nat := 0                    -- R_rem
  res : Nat := 0                    -- R_res
deriving DecidableEq, Repr, Inhabited

/-- A log entry of flash (R402, R404). -/
structure LogEntry where
  type : Nat
  arg : Nat
  value : Nat
deriving DecidableEq, Repr, Inhabited

/-- A pair of log sectors (R402, R403): entries of the sector in force, its SEQ, which sector it is. -/
structure LogPair where
  entries : List LogEntry := []
  seq : Nat := 0
  second : Bool := false
deriving DecidableEq, Repr, Inhabited

/-- A configuration record (R407). -/
structure CfgRec where
  version : Nat
  parent : Nat
  fw : Nat
  schema : Nat
  ptc : W64
  session : W64
  note : String
  body : List (Param × PVal)
  place : Nat := 0                  -- its slot of the configuration region, 0-8
deriving DecidableEq, Repr, Inhabited

/-- A firmware slot's content (R412): the factory image, or the bytes UPDATE appended. -/
structure Image where
  factory : Bool := true
  bytes : List Byte := []
  version : Nat := 0
  schema : Nat := 0
deriving DecidableEq, Repr, Inhabited

/-- A flash descriptor (R398). -/
structure Desc where
  op : Nat
  event : Bool := false
  faddr : Nat
  daddr : Nat
  len : Nat
  status : Nat := 0xFF
  erraddr : Nat := 0
deriving DecidableEq, Repr, Inhabited

/-- A record of the event log (R493). -/
structure Evt where
  seq : Nat := 0
  ptc : W64
  session : W64
  sev : Sev
  src : Nat                         -- 0-7, 0xF0, 0xFF
  code : Nat
  body : List (String × Nat × Nat)  -- field, width in bytes, value
  text : Option String := none
  own : Option (Chan × Nat) := none -- the LOG command that waits for its SEQ
deriving DecidableEq, Repr, Inhabited

/-- The flash die and controller (file 14). -/
structure Flash where
  boot : LogPair := { entries := [{ type := 0x13, arg := 0, value := 0 }, { type := 0x13, arg := 1, value := 0 },
                                  { type := 0x10, arg := 0, value := 0 }] }   -- as delivered (log 6)
  journal : LogPair := {}
  select : LogPair := {}
  pf1 : List LogEntry := []
  pf2 : List LogEntry := []
  pfSecond : Bool := false          -- sector the running record is in
  pfDirty : List Bool := [false, false]  -- sectors not erased
  pfPlan : List LogEntry := []      -- entries of the record being programmed (R406)
  cfgs : List CfgRec := []
  ring : List Evt := []             -- event-log copy
  ringAt : Option W64 := none       -- PTC of the tick in which its newest record is programmed
  ringBad : List Nat := []          -- SEQs of half-programmed records in it
  a : Image := {}
  b : Image := {}
  stage1 : Image := {}
  keyA : Option (List Byte) := none
  keyB : Option (List Byte) := none
  locked : Bool := false            -- a lock word is programmed
  noBoot : Bool := false            -- a stage-1 update was cancelled: the unit never boots again (R209)
  cells : Mem := {}                 -- programmed bytes XOR 0xFF: unlisted reads erased (R393)
  blank : List Nat := []            -- sectors that a descriptor has erased (R398)
  erasing : Option Nat := none      -- sector under erase
  suspended : Bool := false
  eraseRan : Option Nat := none     -- ns that the erase has run since it last resumed; none: never suspended (R395)
  readWaits : Bool := false         -- a read waits to suspend the erase (R395)
  pfErase : List Nat := []          -- power-fail sectors to erase once their record is copied (R406, R499)
  opRun : Option FlashOpKind := none
  queueOpen : Bool := false
  queue : List Desc := []
  erases : Nat := 0
  fails : Nat := 0
  reerase : Nat := 0
  reerased : Bool := false
  todo : List Nat := []             -- sectors to erase when the command asked for them ends
deriving DecidableEq, Repr, Inhabited

/-- Configuration values (R134, R409). -/
structure Cfg where
  committed : List (Param × PVal) := []
  uncommitted : List (Param × PVal) := []
  session : List (Param × PVal) := []
  never : List (Param × PVal) := []
  version : Nat := 0
  parent : Nat := 0
deriving DecidableEq, Repr, Inhabited

/-- Firmware state (R417-R422). -/
structure Fw where
  run : Nat := 0                    -- 0 A, 1 B, 2 ROM
  trial : Bool := false
  boots : Nat := 0
  marks : Nat := 0
  expired : Bool := false
  fellback : Bool := false
  reason : Nat := 3
  health : Nat := 0                 -- consecutive good ticks
  defaults : Bool := false          -- configuration fell back to defaults
  confirmed : Bool := false
deriving DecidableEq, Repr, Inhabited

/-- The update session (R205-R207). -/
structure Upd where
  target : Target
  len : Nat
  bytes : List Byte := []
  hdrOk : Bool := false
  work : List Desc := []            -- descriptors that wait for room in the queue (R398)
deriving DecidableEq, Repr, Inhabited

/-- Service windows and the update session (R176, R181, R205). -/
structure Service where
  arm : Option (ArmAction × String × W64) := none    -- action, code, expiry
  confirm : Option (ArmAction × W64) := none         -- enabled action, expiry
  upd : Option Upd := none
  updState : Nat := 0               -- IDLE, OPEN, FAILED, DONE
  nextOff : Nat := 0
deriving DecidableEq, Repr, Inhabited

/-- Per-function PCIe state (file 15). -/
structure Fn where
  cmdBase : W64 := 0
  rplBase : W64 := 0
  idxBase : W64 := 0
  en : Bool := false
  enPend : Option Bool := none
  badIdx : Bool := false
  enBusy : Bool := false
  seqErr : Bool := false
  cmdCons : Nat := 0
  rplProd : Nat := 0
  pSeen : Nat := 0
  cSeen : Nat := 0
  fetched : Nat := 0                -- next index to fetch
  retry : Bool := false             -- the next slot is fetched a second time
  retryAt : Nat := 0                -- first tick in which it may be
  early : Option (Option Nat × Option Nat) := none  -- doorbells before DEV_READY (R438)
  dbCnt : Nat := 0
  dbIgn : Nat := 0
  dmaErr : Nat := 0                 -- last error
  dmaKind : Nat := 0                -- its request kind
  dmaN : Nat := 0                   -- errors
  dmaAddr : W64 := 0
  halfOff : Nat := 0
  stale : Bool := false
  latch : List (Nat × W32) := []    -- armed latches by _HI offset (R431)
  scratch : W32 := 0
  rplWait : Nat := 0
  idxDirty : Bool := false
  masked : Vector Bool 16 := Vector.replicate 16 true
  pba : Vector Bool 16 := Vector.replicate 16 false
  msixOn : Bool := false
  msixTab : List (Nat × W32) := []  -- words of the MSI-X table, by offset
deriving DecidableEq, Repr, Inhabited

/-- What the part drove onto its buses in the last step. -/
structure Out where
  rdata : Option W64 := none        -- read completion
  abort : Bool := false             -- Completer Abort
  dma : List (FnNo × W64 × List Byte) := []    -- writes to host memory
  msix : List (FnNo × Nat) := []               -- messages posted
  con : List Byte := []                        -- console bytes sent to the output buffer
  mdl : List Byte := []                        -- MDL TX frame
  pcl : List (List Byte) := []                 -- PCL TX frames
  pmbus : Option Nat := none                   -- VOUT_COMMAND value, mV
  spOut : Option W32 := none                   -- word driven on DO
  hostBuf : List Byte := []                    -- READ bytes delivered in the step
  i2c : List (Nat × Nat × Nat) := []           -- writes on the sensor bus: address, register, value
deriving DecidableEq, Repr, Inhabited

/-- PCI Express (file 15). -/
structure Pcie where
  up : Bool := false
  l1 : Bool := false
  speed : Nat := 0
  width : Nat := 0
  numVfs : Nat := 0
  vfEn : Bool := false
  flr : List Nat := []              -- VFs in FLR
  fn : Vector Fn 9 := Vector.replicate 9 {}
  linkDown : Nat := 0
  aerCor : Nat := 0
  aerUnc : Nat := 0
  vfFlrs : Nat := 0
  pfResets : Nat := 0
  irq : Irq := {}                   -- PF vectors 0-4
  admReset : Bool := false
  flowAdm : Bool := false           -- all admin tags were in use
  wchSel : Nat := 0                 -- WCH_SEL
  rchSel : Nat := 0                 -- RCH_SEL
  spSel : Nat := 0                  -- SP_SEL
deriving DecidableEq, Repr, Inhabited

/-- A sample port (file 16). -/
structure Port where
  selD : Bool := false
  selC : Bool := false
  owner : Nat := 0                  -- 0 none, 1 data, 2 control
  both : Bool := false
  edge : Bool := true               -- a clock edge since the last select fell
  lead : List Byte := []
  fifo : List Byte := []            -- outbound, at most 16 KiB
  last : W32 := 0
  underrun : Bool := false
  overrun : Bool := false
  runLen : Nat := 0                 -- discards of the running run
  prevRun : Nat := 0
  inWords : Nat := 0
  rep : Nat := 0
  ovr : Nat := 0
  ses : Session := {}
  low : Bool := false               -- READY was low in this tick
deriving DecidableEq, Repr, Inhabited

/-- One device of the sensor bus (R471). -/
structure Dev where
  present : Bool := false           -- a good read stands
  absent : Bool := false            -- after four failures in a row
  fails : Nat := 0
  goods : Nat := 0
  value : Int := 0                  -- 1/256 degree
deriving DecidableEq, Repr, Inhabited

/-- What engines have done in the running tick beside the pool, the coder and the intakes (R19): bytes and rows. -/
structure Used where
  dmaIn : Nat := 0
  dmaOut : Nat := 0
  port : Vector Nat 4 := Vector.replicate 4 0
  verify : Nat := 0
  rows : Nat := 0
  c2 : Nat := 0
  c3 : Nat := 0
deriving DecidableEq, Repr, Inhabited

/-- Sensor bus and pins (file 16). -/
structure Sensor where
  shock : Dev := {}
  t0 : Dev := {}
  t1 : Dev := {}
  window : List (Int × Int × Int) := []
  mg : Nat := 0
  peak : Nat := 0
  busLow : Bool := false
  errs : Nat := 0
  clears : Nat := 0
  pinLow : Bool := false            -- SHOCK_N low
  stuckTold : Bool := false
  lastPoll : W64 := 0
  lastTemp : W64 := 0
  tempTurn : Bool := false
  initDue : Bool := true            -- the shock sensor takes `sensor.shock.init` before its next read (R469)
deriving DecidableEq, Repr, Inhabited

/-- The event log (R493-R499). -/
structure EvtLog where
  ring : List Evt := []             -- oldest first, at most 262,144
  staging : List Evt := []          -- at most 256
  next : Nat := 0
  newest : Nat := 0
  lost : Nat := 0
  lostSince : Nat := 0
  warn : Nat := 0
  error : Nat := 0
  flashed : Nat := 0
  copied : Nat := 0                 -- SEQ count up to which records were considered for flash
  credit : Nat := 0                 -- paced copy credit in ns
  drop : Bool := false
  loaded : Bool := false
  crcbad : Nat := 0
deriving DecidableEq, Repr, Inhabited

/-- Diagnostics (R502-R504). -/
structure Diag where
  what : DiagWhat := .none
  running : Bool := false
  fail : Bool := false
  pass : Nat := 0
  passes : Nat := 0
  errors : Nat := 0
  addr : Nat := 0
  ticks : Nat := 0
  tag : Option Nat := none
  start : W64 := 0
  ch : Vector Nat 64 := Vector.replicate 64 0
  calSel : Nat := 0
  calCh : List (Nat × List Nat) := []   -- per item, band and direction: 64 bytes
  items : List CalItem := []
  band : Option (Fin 4) := none     -- CAL's `band=` (R503)
  cut : Bool := false               -- a reset of the queue ends it (R502)
deriving DecidableEq, Repr, Inhabited

/-- What a byte of buffer DRAM that nothing has written holds: zero (log 5), TEST DRAM's last pattern, or what a TEST DRAM that
was cut short left (R502, R504). -/
inductive DramFill where
  | zero | pattern | cut (k : Nat)
deriving DecidableEq, Repr, Inhabited

/-- The state of the TF64. -/
structure State where
  pending : List Instr := []
  clk : Clk := {}
  tk : TickSrc := {}
  pw : Power := {}
  cfg : Cfg := {}
  sad : Vector Saddle 8 := Vector.replicate 8 {}
  adm : Queue := {}
  fil : Filjo := {}
  pool : Pool := {}
  keys : Keys := {}
  med : Media := {}
  rd : ReadCh := {}
  srv : Servo := {}
  rein : Rein := {}
  cart : Cart := {}
  fl : Flash := {}
  fw : Fw := {}
  svc : Service := {}
  pcie : Pcie := {}
  port : Vector Port 4 := Vector.replicate 4 {}
  sens : Sensor := {}
  evt : EvtLog := {}
  diag : Diag := {}
  used : Used := {}
  stat : List (Param × PVal) := []  -- counters at the last boundary (R501)
  dram : Mem := {}                  -- bytes XOR the fill
  dramFill : DramFill := .zero
  out : Out := {}
  free : Nat := 0
deriving DecidableEq, Repr, Inhabited

/-- The machine right after reset: PORST_N asserted (R26, R70, R448; log 1). Every register reads its
table's reset value; what has none is named in log 10. -/
def State.reset : State := {}

end Sys2Proof.Machine
end

