-- ==== Sys2Proof/Machine/Bits.lean ====
section
/-! DEFINITION. Bytes, checks and text: byte order, CRC-16 and CRC-32, canonical value forms. -/

namespace Sys2Proof.Machine

open Sys2Proof

/-- A big-endian byte string of `n` bytes (file 00, "Conventions"). -/
def beBytes : Nat → Nat → List Byte
  | 0, _ => []
  | n + 1, v => BitVec.ofNat 8 (v / 2 ^ (8 * n)) :: beBytes n v

/-- A little-endian byte string of `n` bytes. -/
def leBytes : Nat → Nat → List Byte
  | 0, _ => []
  | n + 1, v => BitVec.ofNat 8 v :: leBytes n (v / 256)

/-- The value of a big-endian byte string. -/
def beVal (l : List Byte) : Nat := l.foldl (fun a b => a * 256 + b.toNat) 0

/-- The value of a little-endian byte string. -/
def leVal : List Byte → Nat
  | [] => 0
  | b :: t => b.toNat + 256 * leVal t

/-- The bytes `off` to `off + len - 1` of a string. -/
def slice (l : List Byte) (off len : Nat) : List Byte := (l.drop off).take len

/-- A big-endian field of a byte string. -/
def beField (l : List Byte) (off len : Nat) : Nat := beVal (slice l off len)

/-- A byte string padded with a byte, or cut, to `n` bytes. -/
def padTo (n : Nat) (b : Byte) (l : List Byte) : List Byte := l.take n ++ List.replicate (n - l.length) b

/-- The bits of a byte, most significant first. -/
def byteBits (b : Byte) : List Bool := (List.range 8).map fun i => b.getLsbD (7 - i)

/-- The bits of a value, most significant first. -/
def natBits (n v : Nat) : List Bool := (List.range n).map fun i => v.testBit (n - 1 - i)

/-- The value of a bit string, most significant first. -/
def bitsVal (l : List Bool) : Nat := l.foldl (fun a b => 2 * a + b.toNat) 0

/-- Bytes of a bit string, most significant bit first; a last part of a byte is filled with zeros. -/
def bitsBytes (l : List Bool) : List Byte :=
  (List.range ((l.length + 7) / 8)).map fun i =>
    BitVec.ofNat 8 (bitsVal ((l.drop (8 * i)).take 8 ++ List.replicate (8 * i + 8 - l.length) false))

/-- Two's complement of a value in `n` bits. -/
def twos (n : Nat) (v : Int) : Nat := (v % (2 ^ n : Int)).toNat

/-- The signed value of `n` bits. -/
def signed (n v : Nat) : Int := if v < 2 ^ (n - 1) then (v : Int) else (v : Int) - 2 ^ n

/-- One bit of the CRC-16/CCITT-FALSE register (R113). -/
def crc16Bit (c : BitVec 16) : BitVec 16 := if c.msb then (c <<< 1) ^^^ 0x1021#16 else c <<< 1

/-- One byte of the line checksum (R113). -/
def crc16Byte (c : BitVec 16) (b : Byte) : BitVec 16 :=
  (List.range 8).foldl (fun a _ => crc16Bit a) (c ^^^ (b.zeroExtend 16 <<< 8))

/-- The line checksum of a byte string (R113). -/
def crc16 (l : List Byte) : BitVec 16 := l.foldl crc16Byte 0xFFFF#16

/-- One bit of the CRC-32 register, least significant bit first (R278). -/
def crc32Bit (c : BitVec 32) : BitVec 32 :=
  if c.getLsbD 0 then (c >>> 1) ^^^ 0xEDB88320#32 else c >>> 1

/-- One byte of the CRC-32 (R278). -/
def crc32Byte (c : BitVec 32) (b : Byte) : BitVec 32 :=
  (List.range 8).foldl (fun a _ => crc32Bit a) (c ^^^ b.zeroExtend 32)

/-- The CRC-32 of a byte string (R278). -/
def crc32 (l : List Byte) : BitVec 32 := (l.foldl crc32Byte 0xFFFFFFFF#32) ^^^ 0xFFFFFFFF#32

/-- ASCII bytes of a text. -/
def ascii (t : String) : List Byte := t.toList.map fun c => BitVec.ofNat 8 c.toNat

/-- The text of ASCII bytes. -/
def ofAscii (l : List Byte) : String := String.ofList (l.map fun b => Char.ofNat b.toNat)

/-- An upper-case hex digit. -/
def hexDigit (n : Nat) : Char := if n < 10 then Char.ofNat (0x30 + n) else Char.ofNat (0x37 + n)

/-- `n` upper-case hex digits of a value. -/
def hexStr (n v : Nat) : String :=
  String.ofList ((List.range n).map fun i => hexDigit (v / 16 ^ (n - 1 - i) % 16))

/-- A hex value in canonical form: `0x`, digits in groups of four (R507, file 00). -/
def hexVal (groups v : Nat) : String :=
  "0x" ++ String.intercalate "_" ((List.range groups).map fun i => hexStr 4 (v / 65536 ^ (groups - 1 - i) % 65536))

/-- A session ID as replies write it. -/
def sidStr (w : W64) : String := hexVal 4 w.toNat

/-- A fixed value given in units of its last decimal, with `d` decimals (R507). -/
def fixedStr (d : Nat) (v : Int) : String :=
  let m := v.natAbs
  (if v < 0 then "-" else "") ++ toString (m / 10 ^ d) ++ "." ++
    String.ofList ((List.range d).map fun i => hexDigit (m / 10 ^ (d - 1 - i) % 10))

/-- A size in canonical form: the largest of GiB, MiB, KiB that divides it (R507). -/
def sizeStr (v : Nat) : String :=
  if v == 0 then "0"
  else if v % 1073741824 == 0 then toString (v / 1073741824) ++ "GiB"
  else if v % 1048576 == 0 then toString (v / 1048576) ++ "MiB"
  else if v % 1024 == 0 then toString (v / 1024) ++ "KiB"
  else toString v

/-- A list in canonical form; an empty one reads `none` (R507). -/
def listStr (l : List String) : String := if l.isEmpty then "none" else String.intercalate "," l

/-- A list of numbers in canonical form. -/
def natsStr (l : List Nat) : String := listStr (l.map toString)

/-- Firmware versions read major.minor.patch, 8 bits, 8 bits and 16 bits (R412). -/
def fwStr (v : Nat) : String :=
  toString (v / 16777216 % 256) ++ "." ++ toString (v / 65536 % 256) ++ "." ++ toString (v % 65536)

/-- A counter that saturates at all ones of `w` bits (R500). -/
def sat (w n : Nat) : Nat := min n (2 ^ w - 1)

/-- One more on a 32-bit counter register (R500). -/
def inc (n : Nat) : Nat := sat 32 (n + 1)

/-- Increments a counter by `k` (R500). -/
def incBy (n k : Nat) : Nat := sat 32 (n + k)

/-- Replaces or adds the value of a key in an association list. -/
def put {α β : Type} [DecidableEq α] (k : α) (v : β) : List (α × β) → List (α × β)
  | [] => [(k, v)]
  | (a, b) :: t => if a = k then (k, v) :: t else (a, b) :: put k v t

/-- The value of a key. -/
def look {α β : Type} [DecidableEq α] (k : α) (l : List (α × β)) : Option β := (l.find? fun p => p.1 = k).map (·.2)

/-- The largest of a list, 0 for none. -/
def maxL (l : List Nat) : Nat := l.foldl max 0

/-- The sum of a list. -/
def sumL (l : List Nat) : Nat := l.foldl (· + ·) 0

/-- Puts a number in its place in an ordered list. -/
def ordInsert (x : Int) : List Int → List Int
  | [] => [x]
  | y :: t => if x ≤ y then x :: y :: t else y :: ordInsert x t

/-- A list in rising order. -/
def ordSort (l : List Int) : List Int := l.foldr ordInsert []

/-- The median: the middle element in order, or the mean of the two middle ones rounded down; 0 for an
empty list (log 11). DEDUCED: R309 and R359 name the median only. -/
def median (l : List Int) : Int :=
  let o := ordSort l
  let n := o.length
  if n % 2 == 1 then o.getD (n / 2) 0 else (o.getD (n / 2 - 1) 0 + o.getD (n / 2) 0) / 2

/-- Numbers from a to below b. -/
def rangeFrom (a b : Nat) : List Nat := (List.range (b - a)).map (· + a)

/-- Splits a list into parts of `n` elements. -/
def parts {α : Type} (n : Nat) (l : List α) : List (List α) :=
  (List.range ((l.length + n - 1) / n)).map fun i => (l.drop (i * n)).take n

end Sys2Proof.Machine
end

