-- ==== Sys2Proof/Machine/Params.lean ====
section
/-! DEFINITION. The parameter tree (R131, R506): every row of the spec's parameter tables with its name,
value form, default, Persists and "Changeable in" columns, and the values held in State. -/

namespace Sys2Proof.Machine

open Sys2Proof

/-- The value form of a parameter (R111) with its range; fixed values in units of the last decimal. -/
inductive PKind where
  | int (lo hi : Int) (step : Nat := 1)
  | hex (digits lo hi : Nat) (orZero : Bool)
  | size (lo hi : Nat) (orZero : Bool)
  | fixed (d step : Nat) (lo hi : Int)
  | enum (names : List String)
  | bool
  | list (lo hi : Int) (nmin nmax : Nat) (uniq : Bool)
  | flist (d : Nat) (lo hi : Int) (n : Nat)
  | pair (lo hi : Int)
  | plist (nmax : Nat)
deriving DecidableEq, Repr

/-- Instances of a row (R131). -/
inductive PInst where
  | one | sad | port | bandDir
deriving DecidableEq, Repr

/-- The Persists column (R134). -/
inductive Persist where
  | commit | session | never
deriving DecidableEq, Repr

/-- The "Changeable in" column. -/
inductive Changeable where
  | ro | all | modes (l : List Mode)
deriving DecidableEq, Repr

/-- A row of a parameter table. The name is `pre`, the instance number, `post`. -/
structure PSpec where
  pre : String
  post : String
  inst : PInst
  kind : PKind
  default : PVal
  persist : Persist
  modes : Changeable
deriving DecidableEq, Repr

/-- 2^64 - 1. -/
abbrev u64Max : Nat := 18446744073709551615

/-- The last girth number, 2^40 - 1. -/
abbrev girthMax : Nat := 1099511627775

/-- The built-in equaliser seed: 1,024 at tap 8 and 0 elsewhere, for 64 channels (R330). -/
def seedTapCodes : List Int :=
  (List.range 1536).map fun i => if i % 24 = 8 then 1024 else 0

/-- The rows of the parameter tables. -/
def pspec : PId → PSpec
  | .tickSource => ⟨"tick.source", "", .one, .enum ["INTERNAL", "FTICK"], .n 0, .commit, .modes [.park, .service]⟩
  | .tickFtickEdge => ⟨"tick.ftick_edge", "", .one, .enum ["RISING", "FALLING"], .n 0, .commit, .modes [.park, .service]⟩
  | .tickPeriodNs => ⟨"tick.period_ns", "", .one, .int 50000 200000, .n 100000, .never, .ro⟩
  | .tickState => ⟨"tick.state", "", .one, .enum ["INTERNAL", "ACQUIRE", "LOCKED", "FLYWHEEL", "SLEW"], .n 0, .never, .ro⟩
  | .tickOverruns => ⟨"tick.overruns", "", .one, .int 0 4294967295, .n 0, .never, .ro⟩
  | .tickPtc => ⟨"tick.ptc", "", .one, .int 0 u64Max, .n 0, .never, .ro⟩
  | .tickSession => ⟨"tick.session", "", .one, .hex 16 1 u64Max false, .n 0, .never, .ro⟩
  | .powerMode => ⟨"power.mode", "", .one, .enum ["PARK", "STAGE", "STREAM", "SERVICE", "HALT"], .n 0, .never, .ro⟩
  | .powerHaltCause => ⟨"power.halt_cause", "", .one, .enum ["NONE", "OVERRUN", "WATCHDOG", "VCORE", "THERMAL", "MOTION", "DRAM", "XTAL", "FIRMWARE"], .n 0, .never, .ro⟩
  | .avsEnable => ⟨"power.avs.enable", "", .one, .bool, .n 1, .commit, .modes [.park, .service]⟩
  | .avsPmbusAddr => ⟨"power.avs.pmbus_addr", "", .one, .hex 2 8 119 false, .n 64, .commit, .modes [.service]⟩
  | .avsMarginPct => ⟨"power.avs.margin_pct", "", .one, .fixed 1 5 30 120, .n 60, .commit, .modes [.park, .service]⟩
  | .avsFloor => ⟨"power.avs.v_floor_mv", "", .one, .int 650 850 5, .n 650, .commit, .modes [.park, .service]⟩
  | .avsCeiling => ⟨"power.avs.v_ceiling_mv", "", .one, .int 650 850 5, .n 850, .commit, .modes [.service]⟩
  | .powerVcore => ⟨"power.vcore_mv", "", .one, .int 650 850, .n 850, .never, .ro⟩
  | .clkPolicy => ⟨"power.clk.policy", "", .one, .enum ["AUTO", "FIXED"], .n 0, .commit, .modes [.park, .service]⟩
  | .clkFixedMhz => ⟨"power.clk.fixed_mhz", "", .one, .enum ["600", "750", "900", "1050", "1200"], .n 4, .commit, .modes [.park, .service]⟩
  | .clkMhz => ⟨"power.clk.mhz", "", .one, .int 600 1200, .n 600, .never, .ro⟩
  | .powerTj => ⟨"power.tj_c", "", .one, .int (-40) 125, .n 0, .never, .ro⟩
  | .sadBind => ⟨"saddle.", ".bind", .sad, .enum ["NONE", "VF", "SP0", "SP1", "SP2", "SP3", "CONSOLE"], .n 1, .commit, .modes [.park]⟩
  | .sadClass => ⟨"saddle.", ".qos.class", .sad, .enum ["RATE", "SHARE", "IDLE"], .n 1, .commit, .modes [.park, .stage, .stream]⟩
  | .sadRate => ⟨"saddle.", ".qos.rate", .sad, .int 0 3612, .n 0, .commit, .modes [.park, .stage, .stream]⟩
  | .sadWeight => ⟨"saddle.", ".qos.weight", .sad, .int 1 64, .n 8, .commit, .modes [.park, .stage, .stream]⟩
  | .sadIrqTicks => ⟨"saddle.", ".irq.ticks", .sad, .int 1 64, .n 1, .commit, .all⟩
  | .sadIrqCount => ⟨"saddle.", ".irq.count", .sad, .int 1 32, .n 1, .commit, .all⟩
  | .sadCloseTicks => ⟨"saddle.", ".close_ticks", .sad, .int 100 100000, .n 10000, .commit, .modes [.park, .stage, .stream]⟩
  | .sadFollow => ⟨"saddle.", ".follow", .sad, .enum ["NONE", "0", "1", "2", "3", "4", "5", "6", "7"], .n 0, .session, .modes [.park, .stage, .stream]⟩
  | .sadLagMax => ⟨"saddle.", ".follow.lag_max", .sad, .int 16 4096, .n 1024, .commit, .modes [.park, .stage, .stream]⟩
  | .plaitMode => ⟨"plait.mode", "", .one, .enum ["AUTO", "MANUAL"], .n 0, .commit, .modes [.park, .stage]⟩
  | .plaitFreeSlots => ⟨"plait.free_slots", "", .one, .int 0 255, .n 32, .commit, .modes [.park, .stage, .stream]⟩
  | .plaitHeadroom => ⟨"plait.headroom_pct", "", .one, .int 80 100, .n 95, .commit, .modes [.park, .stage]⟩
  | .plaitCoder => ⟨"plait.coder_pct", "", .one, .int 50 95, .n 90, .commit, .modes [.park, .stage]⟩
  | .plaitEpoch => ⟨"plait.epoch", "", .one, .int 0 4294967295, .n 0, .never, .ro⟩
  | .plaitLength => ⟨"plait.length", "", .one, .int 1 256, .n 256, .never, .ro⟩
  | .plaitVPlan => ⟨"plait.v_plan", "", .one, .fixed 2 1 125 500, .n 125, .never, .ro⟩
  | .consoleSeat => ⟨"console.seat", "", .one, .enum ["ADMIN", "0", "1", "2", "3", "4", "5", "6", "7"], .n 0, .session, .all⟩
  | .consoleBaud => ⟨"console.baud", "", .one, .enum ["9600", "19200", "38400", "57600", "115200", "230400", "460800", "921600", "1000000", "1500000", "2000000", "3000000"], .n 4, .commit, .all⟩
  | .consoleEventLevel => ⟨"console.event_level", "", .one, .enum ["NONE", "INFO", "WARN", "ERROR"], .n 2, .commit, .all⟩
  | .ackWindow => ⟨"pool.ack_window", "", .one, .size 1048576 1610612736 false, .n 67108864, .commit, .modes [.park, .stage]⟩
  | .sadWindow => ⟨"pool.saddle.", ".window", .sad, .size 1048576 1610612736 true, .n 0, .commit, .modes [.park, .stage]⟩
  | .guardHoldTicks => ⟨"queue.guard_hold_ticks", "", .one, .int 100 600000, .n 20000, .commit, .modes [.park, .stage, .stream]⟩
  | .lockMode => ⟨"queue.lock.mode", "", .one, .enum ["STALL", "BOUNDED"], .n 0, .commit, .modes [.park, .stage, .stream]⟩
  | .lockMaxTicks => ⟨"queue.lock.max_ticks", "", .one, .int 1 100000, .n 1000, .commit, .modes [.park, .stage, .stream]⟩
  | .seqNext => ⟨"saddle.", ".seq.next", .sad, .int 0 girthMax, .n 0, .never, .ro⟩
  | .seqDeferred => ⟨"saddle.", ".seq.deferred", .sad, .int 0 girthMax, .n 0, .never, .ro⟩
  | .locksUsed => ⟨"queue.locks_used", "", .one, .int 0 64, .n 0, .never, .ro⟩
  | .armTicks => ⟨"service.arm_ticks", "", .one, .int 100 6000, .n 600, .commit, .modes [.service]⟩
  | .updateState => ⟨"update.state", "", .one, .enum ["IDLE", "OPEN", "FAILED", "DONE"], .n 0, .never, .ro⟩
  | .updateNextOff => ⟨"update.next_off", "", .one, .int 0 16777216, .n 0, .never, .ro⟩
  | .poolFloor => ⟨"pool.saddle.", ".floor", .sad, .int 16 16384, .n 1024, .commit, .modes [.park]⟩
  | .poolCap => ⟨"pool.saddle.", ".cap", .sad, .int 16 24576, .n 24576, .commit, .modes [.park, .stage]⟩
  | .poolHeld => ⟨"pool.saddle.", ".held", .sad, .int 0 24576, .n 0, .never, .ro⟩
  | .mediaFloor => ⟨"pool.media.floor", "", .one, .int 2048 16384, .n 4096, .commit, .modes [.service]⟩
  | .raMax => ⟨"pool.readahead.max", "", .one, .int 0 65536, .n 16384, .commit, .modes [.park, .stage, .stream]⟩
  | .raKeepFree => ⟨"pool.readahead.keep_free", "", .one, .int 0 65536, .n 4096, .commit, .modes [.park, .stage, .stream]⟩
  | .auditRun => ⟨"pool.audit.run", "", .one, .bool, .n 0, .never, .all⟩
  | .auditAge => ⟨"pool.audit.age_warn_ticks", "", .one, .int 10000 100000000, .n 300000, .commit, .all⟩
  | .poolCaddies => ⟨"pool.caddies", "", .one, .int 114688 245760, .n 245760, .never, .ro⟩
  | .poolSharedFree => ⟨"pool.shared_free", "", .one, .int 0 233200, .n 0, .never, .ro⟩
  | .codePolicy => ⟨"saddle.", ".code.policy", .sad, .enum ["PASS", "BOUND", "FIT"], .n 0, .commit, .modes [.park, .stage, .stream]⟩
  | .codeRatio => ⟨"saddle.", ".code.ratio", .sad, .int 0 4, .n 0, .commit, .modes [.park, .stage, .stream]⟩
  | .codeFormat => ⟨"saddle.", ".code.format", .sad, .enum ["NONE", "S16", "S24", "S32"], .n 0, .commit, .modes [.park, .stage, .stream]⟩
  | .codeLanes => ⟨"saddle.", ".code.lanes", .sad, .int 1 8, .n 1, .commit, .modes [.park, .stage, .stream]⟩
  | .codeFBytes => ⟨"saddle.", ".code.f_bytes", .sad, .int 4080 4096, .n 4096, .never, .ro⟩
  | .sealOn => ⟨"saddle.", ".seal.on", .sad, .bool, .n 0, .commit, .ro⟩
  | .sealSlot => ⟨"saddle.", ".seal.slot", .sad, .int 0 15, .n 0, .commit, .ro⟩
  | .tapeDs => ⟨"tape.ds", "", .one, .int 0 7553087, .n 0, .never, .ro⟩
  | .tapeWrap => ⟨"tape.wrap", "", .one, .int 0 191, .n 0, .never, .ro⟩
  | .tapeQLast => ⟨"tape.q_last", "", .one, .int 0 12, .n 0, .never, .ro⟩
  | .indexEntries => ⟨"index.entries", "", .one, .int 0 7553088, .n 0, .never, .ro⟩
  | .forceIndex => ⟨"locate.force_index", "", .one, .bool, .n 0, .commit, .modes [.park, .stage, .stream]⟩
  | .pesLimit => ⟨"guard.pes_limit", "", .one, .fixed 2 1 6 20, .n 12, .commit, .modes [.park, .stage, .service]⟩
  | .shockG => ⟨"guard.shock_g", "", .one, .fixed 1 1 5 80, .n 20, .commit, .modes [.park, .stage, .service]⟩
  | .shockWaive => ⟨"guard.shock_waive", "", .one, .bool, .n 0, .never, .modes [.service]⟩
  | .clearTicks => ⟨"guard.clear_ticks", "", .one, .int 1 100, .n 2, .commit, .modes [.park, .stage, .service]⟩
  | .identMax => ⟨"guard.ident_max", "", .one, .int 1 8, .n 2, .commit, .modes [.park, .stage, .service]⟩
  | .iterMax => ⟨"write.verify.iter_max", "", .one, .int 2 11, .n 6, .commit, .modes [.park, .stage, .service]⟩
  | .snrDb => ⟨"write.verify.snr_db", "", .one, .fixed 1 5 40 140, .n 80, .commit, .modes [.park, .stage, .service]⟩
  | .rewriteBudget => ⟨"write.rewrite_budget", "", .one, .int 0 12, .n 6, .commit, .modes [.park, .stage]⟩
  | .acceptRows => ⟨"write.accept_rows", "", .one, .int 0 4, .n 0, .commit, .modes [.park, .stage]⟩
  | .chanFailRows => ⟨"write.chan_fail_rows", "", .one, .int 4 120, .n 12, .commit, .modes [.park, .stage, .service]⟩
  | .wplEnable => ⟨"write.wpl.enable", "", .one, .bool, .n 1, .commit, .modes [.park, .stage, .service]⟩
  | .wplRows => ⟨"write.wpl.rows", "", .one, .int 8 256, .n 24, .commit, .modes [.park, .stage, .service]⟩
  | .wplSettle => ⟨"write.wpl.settle_ticks", "", .one, .int 10 2000, .n 100, .commit, .modes [.park, .stage, .service]⟩
  | .wplLatGain => ⟨"write.wpl.lat_gain", "", .one, .fixed 2 5 0 100, .n 25, .commit, .modes [.park, .stage, .service]⟩
  | .curMin => ⟨"write.cur_min", "", .one, .int 0 255, .n 64, .commit, .modes [.service]⟩
  | .curMax => ⟨"write.cur_max", "", .one, .int 0 255, .n 224, .commit, .modes [.service]⟩
  | .pcMax => ⟨"write.pc_max", "", .one, .int 0 15, .n 12, .commit, .modes [.service]⟩
  | .seedCur => ⟨"write.seed.band.", ".cur", .bandDir, .list 0 255 64 64 false, .l (List.replicate 64 128), .commit, .modes [.service]⟩
  | .seedPc => ⟨"write.seed.band.", ".pc", .bandDir, .list 0 15 64 64 false, .l (List.replicate 64 0), .commit, .modes [.service]⟩
  | .seedOfs => ⟨"write.seed.band.", ".ofs_nm", .bandDir, .int (-45) 45, .n 0, .commit, .modes [.service]⟩
  | .chanMapOut => ⟨"chan.map_out", "", .one, .list 0 63 0 2 true, .l [], .commit, .modes [.park, .stage, .service]⟩
  | .chanFailed => ⟨"chan.failed", "", .one, .list 0 63 0 64 true, .l [], .session, .ro⟩
  | .agcTarget => ⟨"read.agc.target", "", .one, .int 16 96, .n 40, .commit, .modes [.park, .stage, .service]⟩
  | .dropoutPct => ⟨"read.dropout_pct", "", .one, .int 10 60, .n 25, .commit, .modes [.park, .stage, .service]⟩
  | .acqBw => ⟨"read.acq.bw_ppm", "", .one, .int 1000 20000, .n 5000, .commit, .modes [.service]⟩
  | .trkBw => ⟨"read.trk.bw_ppm", "", .one, .int 50 2000, .n 500, .commit, .modes [.service]⟩
  | .eqTarget => ⟨"read.eq.target", "", .one, .enum ["PR4", "EPR4", "GPR3"], .n 2, .commit, .modes [.park, .service]⟩
  | .eqMuShift => ⟨"read.eq.mu_shift", "", .one, .int 8 16, .n 11, .commit, .modes [.park, .stage, .service]⟩
  | .eqSeedTaps => ⟨"read.eq.seed.band.", ".taps", .bandDir, .list (-2048) 2047 1536 1536 false, .l seedTapCodes, .commit, .modes [.service]⟩
  | .detAdaptShift => ⟨"read.det.adapt_shift", "", .one, .int 6 14, .n 10, .commit, .modes [.park, .stage, .service]⟩
  | .ldpcRounds => ⟨"read.ldpc.rounds", "", .one, .int 1 3, .n 3, .commit, .modes [.park, .stage, .service]⟩
  | .ldpcIter => ⟨"read.ldpc.iter", "", .one, .int 4 12, .n 12, .commit, .modes [.park, .stage, .service]⟩
  | .c2EMax => ⟨"read.c2.e_max", "", .one, .int 0 8, .n 6, .commit, .modes [.park, .stage, .service]⟩
  | .c3EMax => ⟨"read.c3.e_max", "", .one, .int 0 4, .n 0, .commit, .modes [.park, .stage, .service]⟩
  | .rescuePasses => ⟨"read.rescue.passes", "", .one, .int 0 2, .n 2, .commit, .modes [.park, .stage, .service]⟩
  | .rescueIter => ⟨"read.rescue.iter", "", .one, .int 12 48, .n 24, .commit, .modes [.park, .stage, .service]⟩
  | .readFill => ⟨"read.fill", "", .one, .enum ["BEST", "ZERO"], .n 0, .commit, .all⟩
  | .chanIgnore => ⟨"read.chan_ignore", "", .one, .list 0 63 0 8 true, .l [], .commit, .modes [.park, .stage, .service]⟩
  | .wedgeMode => ⟨"read.wedge_mode", "", .one, .enum ["OFF", "AUTO"], .n 1, .commit, .modes [.park, .stage, .service]⟩
  | .aheadDs => ⟨"read.ahead.ds", "", .one, .int 0 64, .n 8, .commit, .modes [.park, .stage, .stream]⟩
  | .aheadIdle => ⟨"read.ahead.idle_ticks", "", .one, .int 100 100000, .n 5000, .commit, .modes [.park, .stage, .stream]⟩
  | .servoBw => ⟨"servo.bw_hz", "", .one, .int 200 1500, .n 700, .commit, .modes [.service]⟩
  | .lostFrames => ⟨"servo.lost_frames", "", .one, .int 4 1024, .n 32, .commit, .modes [.park, .stage, .service]⟩
  | .regainFrames => ⟨"servo.regain_frames", "", .one, .int 16 4096, .n 256, .commit, .modes [.park, .stage, .service]⟩
  | .ffEnable => ⟨"servo.ff.enable", "", .one, .bool, .n 1, .commit, .modes [.park, .stage, .service]⟩
  | .ffShift => ⟨"servo.ff.shift", "", .one, .int 2 10, .n 5, .commit, .modes [.park, .stage, .service]⟩
  | .ffLimit => ⟨"servo.ff.limit_um", "", .one, .fixed 1 5 5 100, .n 50, .commit, .modes [.service]⟩
  | .wedgeDither => ⟨"servo.wedge.dither_nm", "", .one, .int 10 100, .n 45, .commit, .modes [.service]⟩
  | .tensionMn => ⟨"motion.tension_mn", "", .one, .int 600 1100, .n 850, .commit, .modes [.park, .service]⟩
  | .accel => ⟨"motion.accel", "", .one, .fixed 1 5 50 250, .n 250, .commit, .modes [.park, .service]⟩
  | .bhAccel => ⟨"motion.bh_accel", "", .one, .fixed 1 5 25 250, .n 25, .commit, .modes [.park, .service]⟩
  | .locateSpeed => ⟨"motion.locate_speed", "", .one, .fixed 2 5 500 800, .n 800, .commit, .modes [.park, .service]⟩
  | .motionSpeed => ⟨"motion.speed", "", .one, .fixed 2 1 0 800, .n 0, .never, .ro⟩
  | .motionTension => ⟨"motion.tension", "", .one, .int 0 2000, .n 0, .never, .ro⟩
  | .targetFill => ⟨"rein.target_fill", "", .one, .fixed 2 5 5 90, .n 25, .commit, .modes [.park, .stage, .stream]⟩
  | .reinKp => ⟨"rein.kp", "", .one, .fixed 1 1 1 40, .n 10, .commit, .modes [.park, .stage]⟩
  | .reinKi => ⟨"rein.ki", "", .one, .fixed 4 1 0 100, .n 5, .commit, .modes [.park, .stage]⟩
  | .reinDwell => ⟨"rein.dwell_ticks", "", .one, .int 50 2000, .n 200, .commit, .modes [.park, .stage]⟩
  | .turnLead => ⟨"rein.turn_lead_ticks", "", .one, .int 0 100000, .n 20000, .commit, .modes [.park, .stage, .stream]⟩
  | .lowPolicy => ⟨"rein.low_policy", "", .one, .enum ["PAD", "BACKHITCH"], .n 0, .commit, .modes [.park, .stage]⟩
  | .bhResumeFill => ⟨"rein.bh_resume_fill", "", .one, .fixed 2 5 10 95, .n 50, .commit, .modes [.park, .stage, .stream]⟩
  | .bhMaxTicks => ⟨"rein.bh_max_ticks", "", .one, .int 1000 600000, .n 100000, .commit, .modes [.park, .stage, .stream]⟩
  | .readSpeed => ⟨"rein.read_speed", "", .one, .fixed 2 5 125 500, .n 500, .commit, .modes [.park, .stage, .stream]⟩
  | .reinVff => ⟨"rein.v_ff", "", .one, .fixed 2 1 0 500, .n 0, .never, .ro⟩
  | .reinVtarget => ⟨"rein.v_target", "", .one, .fixed 2 1 0 500, .n 0, .never, .ro⟩
  | .ewDs => ⟨"cart.ew_ds", "", .one, .int 100 100000, .n 2000, .commit, .modes [.park, .stage]⟩
  | .loadsWarn => ⟨"cart.loads_warn", "", .one, .int 1000 20000, .n 18000, .commit, .modes [.park, .service]⟩
  | .cmSenseMv => ⟨"cm.sense_mv", "", .one, .int 5 200, .n 20, .commit, .modes [.service]⟩
  | .cmBackoff => ⟨"cm.backoff_ticks", "", .one, .int 10 1000, .n 50, .commit, .modes [.park, .service]⟩
  | .cmTimeout => ⟨"cm.timeout_ticks", "", .one, .int 1000 600000, .n 50000, .commit, .modes [.park, .service]⟩
  | .healthTicks => ⟨"fw.health_ticks", "", .one, .int 10000 2000000, .n 300000, .commit, .modes [.park, .service]⟩
  | .fwRun => ⟨"fw.run", "", .one, .enum ["A", "B", "ROM"], .n 0, .never, .ro⟩
  | .fwTrial => ⟨"fw.trial", "", .one, .bool, .n 0, .never, .ro⟩
  | .cfgVersion => ⟨"cfg.version", "", .one, .int 0 4294967295, .n 0, .never, .ro⟩
  | .cfgParent => ⟨"cfg.parent", "", .one, .int 0 4294967295, .n 0, .never, .ro⟩
  | .cfgDirty => ⟨"cfg.dirty", "", .one, .bool, .n 0, .never, .ro⟩
  | .maxGts => ⟨"pcie.max_gts", "", .one, .enum ["2.5", "5", "8", "16"], .n 3, .commit, .modes [.service]⟩
  | .maxWidth => ⟨"pcie.max_width", "", .one, .enum ["1", "2", "4", "8"], .n 3, .commit, .modes [.service]⟩
  | .subsysVendor => ⟨"pcie.subsys_vendor", "", .one, .hex 4 0 65535 false, .n 7787, .commit, .modes [.service]⟩
  | .subsysId => ⟨"pcie.subsys_id", "", .one, .hex 4 0 65535 false, .n 1, .commit, .modes [.service]⟩
  | .admIrqTicks => ⟨"pcie.admin.irq.ticks", "", .one, .int 1 64, .n 1, .commit, .all⟩
  | .admIrqCount => ⟨"pcie.admin.irq.count", "", .one, .int 1 8, .n 1, .commit, .all⟩
  | .pcieLink => ⟨"pcie.link", "", .one, .enum ["DOWN", "UP"], .n 0, .never, .ro⟩
  | .wordBits => ⟨"port.", ".word_bits", .port, .enum ["16", "24", "32"], .n 2, .commit, .modes [.park]⟩
  | .portFlow => ⟨"port.", ".flow", .port, .enum ["READY", "FREE"], .n 0, .commit, .modes [.park]⟩
  | .outGate => ⟨"port.", ".out_gate", .port, .enum ["REPEAT", "STRETCH"], .n 0, .commit, .modes [.park, .stage]⟩
  | .leadMax => ⟨"port.", ".lead_max", .port, .size 65536 67108864 false, .n 4194304, .commit, .modes [.park, .stage]⟩
  | .portLead => ⟨"port.", ".lead", .port, .int 0 67108864, .n 0, .never, .ro⟩
  | .pollUs => ⟨"sensor.poll_us", "", .one, .int 400 10000, .n 400, .commit, .modes [.park, .service]⟩
  | .shockAddr => ⟨"sensor.shock.addr", "", .one, .hex 2 8 119 false, .n 29, .commit, .modes [.park, .service]⟩
  | .shockReg => ⟨"sensor.shock.reg", "", .one, .hex 2 0 255 false, .n 2, .commit, .modes [.park, .service]⟩
  | .shockLsb => ⟨"sensor.shock.lsb_ug", "", .one, .int 1 10000, .n 488, .commit, .modes [.park, .service]⟩
  | .shockInit => ⟨"sensor.shock.init", "", .one, .plist 8, .p [], .commit, .modes [.park, .service]⟩
  | .shockPresent => ⟨"sensor.shock.present", "", .one, .bool, .n 0, .never, .ro⟩
  | .temp0Addr => ⟨"sensor.temp0.addr", "", .one, .hex 2 8 119 true, .n 0, .commit, .modes [.park, .service]⟩
  | .temp1Addr => ⟨"sensor.temp1.addr", "", .one, .hex 2 8 119 true, .n 0, .commit, .modes [.park, .service]⟩
  | .temp0C => ⟨"sensor.temp0.c", "", .one, .fixed 2 1 (-12800) 12799, .n 0, .never, .ro⟩
  | .temp1C => ⟨"sensor.temp1.c", "", .one, .fixed 2 1 (-12800) 12799, .n 0, .never, .ro⟩
  | .tempPeriod => ⟨"sensor.temp_period_ticks", "", .one, .int 1000 1000000, .n 10000, .commit, .modes [.park, .service]⟩
  | .flashLevel => ⟨"event.flash_level", "", .one, .enum ["INFO", "WARN", "ERROR"], .n 1, .commit, .all⟩
  | .flashPerS => ⟨"event.flash_per_s", "", .one, .int 1 256, .n 16, .commit, .all⟩
  | .eventSeq => ⟨"event.seq", "", .one, .int 0 4294967295, .n 0, .never, .ro⟩
  | .eventLost => ⟨"event.lost", "", .one, .int 0 4294967295, .n 0, .never, .ro⟩
  | .adcTrim => ⟨"cal.adc.trim", "", .one, .list (-32) 31 68 68 false, .l (List.replicate 68 0), .commit, .modes [.service]⟩
  | .servoGain => ⟨"cal.servo.gain", "", .one, .flist 2 50 200 4, .l [100, 100, 100, 100], .commit, .modes [.service]⟩
  | .wedgeScale => ⟨"cal.servo.wedge_scale", "", .one, .int 100 2000, .n 900, .commit, .modes [.service]⟩
  | .tensionKt => ⟨"cal.tension.kt", "", .one, .pair 10 500, .p [(120, 120)], .commit, .modes [.service]⟩
  | .latScale => ⟨"cal.write.lat_scale", "", .one, .int 100 2000, .n 900, .commit, .modes [.service]⟩
  | .diagState => ⟨"diag.state", "", .one, .int 0 4294967295, .n 0, .never, .ro⟩
  | .diagErrors => ⟨"diag.errors", "", .one, .int 0 4294967295, .n 0, .never, .ro⟩
  | .diagTicks => ⟨"diag.ticks", "", .one, .int 0 4294967295, .n 0, .never, .ro⟩
  | .diagPass => ⟨"diag.pass", "", .one, .int 0 1000, .n 0, .never, .ro⟩
  | .stLineOk => ⟨"stat.line_ok", "", .one, .int 0 u64Max, .n 0, .never, .ro⟩
  | .stLineBadsum => ⟨"stat.line_badsum", "", .one, .int 0 u64Max, .n 0, .never, .ro⟩
  | .stLineBadline => ⟨"stat.line_badline", "", .one, .int 0 u64Max, .n 0, .never, .ro⟩
  | .stPoolBadret => ⟨"stat.pool_badret", "", .one, .int 0 u64Max, .n 0, .never, .ro⟩
  | .stInhCnt => ⟨"stat.inh_cnt", "", .one, .int 0 u64Max, .n 0, .never, .ro⟩
  | .stInhTicks => ⟨"stat.inh_ticks", "", .one, .int 0 u64Max, .n 0, .never, .ro⟩
  | .stAbandon => ⟨"stat.abandon_cnt", "", .one, .int 0 u64Max, .n 0, .never, .ro⟩
  | .stRwr => ⟨"stat.rwr", "", .one, .int 0 u64Max, .n 0, .never, .ro⟩
  | .stC2 => ⟨"stat.c2", "", .one, .int 0 u64Max, .n 0, .never, .ro⟩
  | .stC2Failcol => ⟨"stat.c2_failcol", "", .one, .int 0 u64Max, .n 0, .never, .ro⟩
  | .stC3Cnt => ⟨"stat.c3_cnt", "", .one, .int 0 u64Max, .n 0, .never, .ro⟩
  | .stRescue => ⟨"stat.rescue_cnt", "", .one, .int 0 u64Max, .n 0, .never, .ro⟩
  | .stLockLoss => ⟨"stat.lock_loss", "", .one, .int 0 u64Max, .n 0, .never, .ro⟩
  | .stRaHit => ⟨"stat.ra_hit", "", .one, .int 0 u64Max, .n 0, .never, .ro⟩
  | .stBhCnt => ⟨"stat.bh_cnt", "", .one, .int 0 u64Max, .n 0, .never, .ro⟩
  | .stPadDs => ⟨"stat.pad_ds", "", .one, .int 0 u64Max, .n 0, .never, .ro⟩
  | .stMdlErr => ⟨"stat.mdl_err", "", .one, .int 0 u64Max, .n 0, .never, .ro⟩
  | .stFlashErases => ⟨"stat.flash_erases", "", .one, .int 0 u64Max, .n 0, .never, .ro⟩
  | .stFlashFails => ⟨"stat.flash_fails", "", .one, .int 0 u64Max, .n 0, .never, .ro⟩
  | .stFlashReerase => ⟨"stat.flash_reerase", "", .one, .int 0 u64Max, .n 0, .never, .ro⟩
  | .stLinkDown => ⟨"stat.link_down_cnt", "", .one, .int 0 u64Max, .n 0, .never, .ro⟩
  | .stAerCor => ⟨"stat.aer_cor_cnt", "", .one, .int 0 u64Max, .n 0, .never, .ro⟩
  | .stAerUnc => ⟨"stat.aer_unc_cnt", "", .one, .int 0 u64Max, .n 0, .never, .ro⟩
  | .stFlrCnt => ⟨"stat.flr_cnt", "", .one, .int 0 u64Max, .n 0, .never, .ro⟩
  | .stSenErr => ⟨"stat.sen_err", "", .one, .int 0 u64Max, .n 0, .never, .ro⟩
  | .stPclErr => ⟨"stat.pcl_err", "", .one, .int 0 u64Max, .n 0, .never, .ro⟩
  | .stEvtLost => ⟨"stat.evt_lost", "", .one, .int 0 u64Max, .n 0, .never, .ro⟩
  | .stEvtWarn => ⟨"stat.evt_warn", "", .one, .int 0 u64Max, .n 0, .never, .ro⟩
  | .stEvtError => ⟨"stat.evt_error", "", .one, .int 0 u64Max, .n 0, .never, .ro⟩
  | .stSpIn => ⟨"stat.port.", ".sp_in", .port, .int 0 u64Max, .n 0, .never, .ro⟩
  | .stSpRepeat => ⟨"stat.port.", ".sp_repeat", .port, .int 0 u64Max, .n 0, .never, .ro⟩
  | .stSpOvr => ⟨"stat.port.", ".sp_ovr", .port, .int 0 u64Max, .n 0, .never, .ro⟩
  | .stHoleCnt => ⟨"stat.saddle.", ".hole_cnt", .sad, .int 0 u64Max, .n 0, .never, .ro⟩
  | .stWait => ⟨"stat.sad.wait", "", .one, .list 0 u64Max 8 8 false, .l [], .never, .ro⟩
  | .stSlots => ⟨"stat.sad.slots", "", .one, .list 0 u64Max 8 8 false, .l [], .never, .ro⟩
  | .stMiss => ⟨"stat.sad.miss_cnt", "", .one, .list 0 u64Max 8 8 false, .l [], .never, .ro⟩
  | .stRefuse => ⟨"stat.sad.refuse_cnt", "", .one, .list 0 u64Max 8 8 false, .l [], .never, .ro⟩
  | .stDeny => ⟨"stat.sad.deny_cnt", "", .one, .list 0 u64Max 8 8 false, .l [], .never, .ro⟩
  | .stStretch => ⟨"stat.sad.stretch_cnt", "", .one, .list 0 u64Max 8 8 false, .l [], .never, .ro⟩
  | .stLossy => ⟨"stat.sad.lossy", "", .one, .list 0 u64Max 8 8 false, .l [], .never, .ro⟩
  | .stFitpass => ⟨"stat.sad.fitpass_cnt", "", .one, .list 0 u64Max 8 8 false, .l [], .never, .ro⟩
  | .stMalf => ⟨"stat.sad.malf_cnt", "", .one, .list 0 u64Max 8 8 false, .l [], .never, .ro⟩
  | .stSealSkip => ⟨"stat.sad.seal_skip", "", .one, .list 0 u64Max 8 8 false, .l [], .never, .ro⟩
  | .stWchRows => ⟨"stat.chan.wch_rows", "", .one, .list 0 u64Max 64 64 false, .l [], .never, .ro⟩
  | .stWchBad => ⟨"stat.chan.wch_bad", "", .one, .list 0 u64Max 64 64 false, .l [], .never, .ro⟩
  | .stRchRows => ⟨"stat.chan.rch_rows", "", .one, .list 0 u64Max 64 64 false, .l [], .never, .ro⟩
  | .stRchBad => ⟨"stat.chan.rch_bad", "", .one, .list 0 u64Max 64 64 false, .l [], .never, .ro⟩
  | .stDbCnt => ⟨"stat.fn.db_cnt", "", .one, .list 0 u64Max 9 9 false, .l [], .never, .ro⟩
  | .stDoorbellIgn => ⟨"stat.fn.doorbell_ign", "", .one, .list 0 u64Max 9 9 false, .l [], .never, .ro⟩
  | .stRplWait => ⟨"stat.fn.rpl_wait", "", .one, .list 0 u64Max 9 9 false, .l [], .never, .ro⟩

/-- Every row, in the order of the chapters. -/
def allPIds : List PId := [
  .tickSource, .tickFtickEdge, .tickPeriodNs, .tickState, .tickOverruns, .tickPtc, .tickSession, .powerMode, .powerHaltCause, .avsEnable,
  .avsPmbusAddr, .avsMarginPct, .avsFloor, .avsCeiling, .powerVcore, .clkPolicy, .clkFixedMhz, .clkMhz, .powerTj, .sadBind,
  .sadClass, .sadRate, .sadWeight, .sadIrqTicks, .sadIrqCount, .sadCloseTicks, .sadFollow, .sadLagMax, .plaitMode, .plaitFreeSlots,
  .plaitHeadroom, .plaitCoder, .plaitEpoch, .plaitLength, .plaitVPlan, .consoleSeat, .consoleBaud, .consoleEventLevel, .ackWindow, .sadWindow,
  .guardHoldTicks, .lockMode, .lockMaxTicks, .seqNext, .seqDeferred, .locksUsed, .armTicks, .updateState, .updateNextOff, .poolFloor,
  .poolCap, .poolHeld, .mediaFloor, .raMax, .raKeepFree, .auditRun, .auditAge, .poolCaddies, .poolSharedFree, .codePolicy,
  .codeRatio, .codeFormat, .codeLanes, .codeFBytes, .sealOn, .sealSlot, .tapeDs, .tapeWrap, .tapeQLast, .indexEntries,
  .forceIndex, .pesLimit, .shockG, .shockWaive, .clearTicks, .identMax, .iterMax, .snrDb, .rewriteBudget, .acceptRows,
  .chanFailRows, .wplEnable, .wplRows, .wplSettle, .wplLatGain, .curMin, .curMax, .pcMax, .seedCur, .seedPc,
  .seedOfs, .chanMapOut, .chanFailed, .agcTarget, .dropoutPct, .acqBw, .trkBw, .eqTarget, .eqMuShift, .eqSeedTaps,
  .detAdaptShift, .ldpcRounds, .ldpcIter, .c2EMax, .c3EMax, .rescuePasses, .rescueIter, .readFill, .chanIgnore, .wedgeMode,
  .aheadDs, .aheadIdle, .servoBw, .lostFrames, .regainFrames, .ffEnable, .ffShift, .ffLimit, .wedgeDither, .tensionMn,
  .accel, .bhAccel, .locateSpeed, .motionSpeed, .motionTension, .targetFill, .reinKp, .reinKi, .reinDwell, .turnLead,
  .lowPolicy, .bhResumeFill, .bhMaxTicks, .readSpeed, .reinVff, .reinVtarget, .ewDs, .loadsWarn, .cmSenseMv, .cmBackoff,
  .cmTimeout, .healthTicks, .fwRun, .fwTrial, .cfgVersion, .cfgParent, .cfgDirty, .maxGts, .maxWidth, .subsysVendor,
  .subsysId, .admIrqTicks, .admIrqCount, .pcieLink, .wordBits, .portFlow, .outGate, .leadMax, .portLead, .pollUs,
  .shockAddr, .shockReg, .shockLsb, .shockInit, .shockPresent, .temp0Addr, .temp1Addr, .temp0C, .temp1C, .tempPeriod,
  .flashLevel, .flashPerS, .eventSeq, .eventLost, .adcTrim, .servoGain, .wedgeScale, .tensionKt, .latScale, .diagState,
  .diagErrors, .diagTicks, .diagPass, .stLineOk, .stLineBadsum, .stLineBadline, .stPoolBadret, .stInhCnt, .stInhTicks, .stAbandon,
  .stRwr, .stC2, .stC2Failcol, .stC3Cnt, .stRescue, .stLockLoss, .stRaHit, .stBhCnt, .stPadDs, .stMdlErr,
  .stFlashErases, .stFlashFails, .stFlashReerase, .stLinkDown, .stAerCor, .stAerUnc, .stFlrCnt, .stSenErr, .stPclErr, .stEvtLost,
  .stEvtWarn, .stEvtError, .stSpIn, .stSpRepeat, .stSpOvr, .stHoleCnt, .stWait, .stSlots, .stMiss, .stRefuse,
  .stDeny, .stStretch, .stLossy, .stFitpass, .stMalf, .stSealSkip, .stWchRows, .stWchBad, .stRchRows, .stRchBad,
  .stDbCnt, .stDoorbellIgn, .stRplWait]

/-- Instances of a row: the numbers of its segments. -/
def PInst.pairs : PInst → List (Nat × Nat)
  | .one => [(0, 0)]
  | .sad => (List.range 8).map fun i => (i, 0)
  | .port => (List.range 4).map fun i => (i, 0)
  | .bandDir => (List.range 8).map fun k => (k / 2, k % 2)

/-- The name of a parameter (R131). -/
def paramName (p : Param) : String :=
  let r := pspec p.id
  match r.inst with
  | .one => r.pre
  | .bandDir => r.pre ++ toString p.i ++ (if p.j = 0 then ".fwd" else ".rev") ++ r.post
  | _ => r.pre ++ toString p.i ++ r.post

/-- Whether the instance numbers of a parameter exist. -/
def paramWf (p : Param) : Bool := (pspec p.id).inst.pairs.contains (p.i, p.j)

/-- Every leaf in the order of the chapters, instances in rising order. -/
def allParams : List Param :=
  allPIds.flatMap fun d => (pspec d).inst.pairs.map fun (i, j) => { id := d, i := i, j := j }

/-- The parameter of a name, of the leaves of R506. -/
def findParam (n : String) : Option Param := allParams.find? fun p => paramName p == n

/-- Segments of a dotted name. -/
def segments (n : String) : List (List Char) :=
  n.toList.foldr (fun c acc => if c = '.' then [] :: acc else
    match acc with
    | [] => [[c]]
    | h :: t => (c :: h) :: t) [[]]

/-- Puts a leaf behind the last leaf that shares its longest path, so that the leaves of a node stand
together: the tree order of R132 (log 12). -/
def treeInsert (p : Param) (l : List Param) : List Param :=
  let sp := segments (paramName p)
  let common (q : Param) : Nat := (List.zip sp (segments (paramName q))).takeWhile (fun (a, b) => a == b) |>.length
  let best := maxL (l.map common)
  if best = 0 then l ++ [p]
  else
    let k := (l.length - ((l.reverse.takeWhile fun q => common q != best).length))
    l.take k ++ [p] ++ l.drop k

/-- Every leaf in tree order (log 12). -/
def treeParams : List Param := allParams.foldl (fun l p => treeInsert p l) []

/-- The leaves beneath a name: itself, or every leaf of the node (R132). -/
def leavesOf (n : String) : List Param :=
  match findParam n with
  | some p => [p]
  | none => treeParams.filter fun p => (n.toList ++ ['.']).isPrefixOf (paramName p).toList

/-- The value that SET, COMMIT and start-up give a parameter that State stores (R134, R409). -/
def cfgVal (s : State) (p : Param) : PVal :=
  match (pspec p.id).persist with
  | .commit => (look p s.cfg.uncommitted).getD ((look p s.cfg.committed).getD (pspec p.id).default)
  | .session => (look p s.cfg.session).getD (pspec p.id).default
  | .never => (look p s.cfg.never).getD (pspec p.id).default

/-- A parameter value as a number. -/
def PVal.toInt : PVal → Int
  | .n v => v
  | _ => 0

/-- A stored parameter's number. -/
def pint (s : State) (d : PId) (i : Nat := 0) (j : Nat := 0) : Int := PVal.toInt (cfgVal s { id := d, i := i, j := j })

/-- A stored parameter's natural number. -/
def pnat (s : State) (d : PId) (i : Nat := 0) (j : Nat := 0) : Nat := (pint s d i j).toNat

/-- A stored bool. -/
def pbool (s : State) (d : PId) (i : Nat := 0) : Bool := pint s d i != 0

/-- A stored list. -/
def plist (s : State) (d : PId) (i : Nat := 0) (j : Nat := 0) : List Int :=
  match cfgVal s { id := d, i := i, j := j } with
  | .l v => v
  | _ => []

/-- A stored list of pairs. -/
def ppairs (s : State) (d : PId) : List (Int × Int) :=
  match cfgVal s { id := d } with
  | .p v => v
  | _ => []

/-- Stores a value where its Persists column says (R134). -/
def cfgPut (s : State) (p : Param) (v : PVal) : State :=
  match (pspec p.id).persist with
  | .commit => { s with cfg := { s.cfg with uncommitted := put p v s.cfg.uncommitted } }
  | .session => { s with cfg := { s.cfg with session := put p v s.cfg.session } }
  | .never => { s with cfg := { s.cfg with never := put p v s.cfg.never } }

/-- A value in canonical form (R507). -/
def valStr (k : PKind) (v : PVal) : String :=
  match k, v with
  | .int .., .n x => toString x
  | .hex d .., .n x => if d ≤ 4 then "0x" ++ hexStr d x.toNat else hexVal (d / 4) x.toNat
  | .size .., .n x => sizeStr x.toNat
  | .fixed d .., .n x => fixedStr d x
  | .enum ns, .n x => ns.getD x.toNat ""
  | .bool, .n x => if x = 0 then "0" else "1"
  | .list .., .l xs => listStr (xs.map toString)
  | .flist d .., .l xs => listStr (xs.map (fixedStr d))
  | .pair .., .p xs => listStr (xs.map fun (a, b) => toString a ++ ":" ++ toString b)
  | .plist .., .p xs => listStr (xs.map fun (a, b) => "0x" ++ hexStr 2 a.toNat ++ ":0x" ++ hexStr 2 b.toNat)
  | _, _ => "0"

end Sys2Proof.Machine
end

