-- ==== Sys2Proof/Machine/Ops.lean ====
section
/-! DEFINITION. The named operations over the state that the meanings share: liveness of the part, access to
saddles and queues, event records, interrupt latches, completions, addressed memory. -/

namespace Sys2Proof.Machine

open Sys2Proof

/-- The part runs: not in reset (R26, R482) and not stopped at boot (R424). -/
def live (s : State) : Bool := !s.clk.porst && !s.clk.uv && !s.pw.dead

/-- The end of every step that is neither a tick nor a reset: PTC, the session ID and HB keep their
values (R26, R27, R68). -/
def fin (s t : State) : Host.Outcome State Fault Refusal := .next { t with clk := s.clk, pending := s.pending }

/-- A step of the running part: nothing happens while it is in reset (log 3). The step's outputs replace
those of the step before. -/
def act (s : State) (f : State → State) : Host.Outcome State Fault Refusal :=
  fin s (if live s then f { s with out := {} } else s)

/-- A step of the running part that its rule enables only under a condition (log 3). -/
def actIf (s : State) (c : Bool) (f : State → State) : Host.Outcome State Fault Refusal :=
  act s fun t => if c then f t else t

/-- The PTC of the running tick. -/
def now (s : State) : Nat := s.clk.ptc.toNat

/-- Changes one saddle and no other (R78). -/
def modSad (s : State) (n : SadNo) (f : Saddle → Saddle) : State :=
  { s with sad := s.sad.set n.val (f s.sad[n]) n.isLt }

/-- Changes every saddle. -/
def mapSad (s : State) (f : SadNo → Saddle → Saddle) : State :=
  { s with sad := Vector.ofFn fun n => f n s.sad[n] }

/-- The eight saddle numbers. -/
def allSads : List SadNo := [0, 1, 2, 3, 4, 5, 6, 7]

/-- The sixty-four channels. -/
def allChs : List ChNo := List.finRange 64

/-- Changes one PCI Express function's block (file 15). -/
def modFn (s : State) (f : FnNo) (g : Fn → Fn) : State :=
  { s with pcie := { s.pcie with fn := s.pcie.fn.set f.val (g s.pcie.fn[f]) f.isLt } }

/-- Changes one sample port. -/
def modPort (s : State) (p : PortNo) (f : Port → Port) : State :=
  { s with port := s.port.set p.val (f s.port[p]) p.isLt }

/-- Changes one write channel. -/
def modWCh (s : State) (c : ChNo) (f : WCh → WCh) : State :=
  { s with med := { s.med with ch := s.med.ch.set c.val (f s.med.ch[c]) c.isLt } }

/-- Changes one read channel. -/
def modRCh (s : State) (c : ChNo) (f : RCh → RCh) : State :=
  { s with rd := { s.rd with ch := s.rd.ch.set c.val (f s.rd.ch[c]) c.isLt } }

/-- The function of a saddle: VF(n+1). -/
def vfOf (n : SadNo) : FnNo := ⟨n.val + 1, by omega⟩

/-- What saddle n is bound to (R72). -/
def bindOf (s : State) (n : SadNo) : Binding :=
  match pnat s .sadBind n.val with
  | 1 => .vf
  | 2 => .sp 0
  | 3 => .sp 1
  | 4 => .sp 2
  | 5 => .sp 3
  | 6 => .console
  | _ => .none

/-- The saddle bound to a sample port (R73). -/
def sadOfPort (s : State) (p : PortNo) : Option SadNo := allSads.find? fun n => bindOf s n == .sp p

/-- The saddle bound to the console (R73). -/
def sadOfConsole (s : State) : Option SadNo := allSads.find? fun n => bindOf s n == .console

/-- QoS class of a saddle. -/
def classOf (s : State) (n : SadNo) : QosClass :=
  match pnat s .sadClass n.val with
  | 0 => .rate
  | 1 => .share
  | _ => .idle

/-- Coding policy of a saddle (R236). -/
def policyOf (s : State) (n : SadNo) : Policy :=
  match pnat s .codePolicy n.val with
  | 0 => .pass
  | 1 => .bound
  | _ => .fit

/-- Sample format of a saddle (R232). -/
def fmtOf (s : State) (n : SadNo) : Fmt :=
  match pnat s .codeFormat n.val with
  | 0 => .none
  | 1 => .s16
  | 2 => .s24
  | _ => .s32

/-- The saddle a monitor follows (R101). -/
def followOf (s : State) (n : SadNo) : Option SadNo :=
  let v := pnat s .sadFollow n.val
  if h : 1 ≤ v ∧ v ≤ 8 then some ⟨v - 1, by omega⟩ else none

/-- Whether a monitor follows a saddle. -/
def followed (s : State) (n : SadNo) : Bool := allSads.any fun m => followOf s m == some n

/-- A channel's queue. -/
def queueOf (s : State) : Chan → Queue
  | .adm => s.adm
  | .sad n => s.sad[n].q

/-- Changes a channel's queue. -/
def modQ (s : State) (ch : Chan) (f : List Entry → List Entry) : State :=
  match ch with
  | .adm => { s with adm := { s.adm with entries := f s.adm.entries } }
  | .sad n => modSad s n fun x => { x with q := { x.q with entries := f x.q.entries } }

/-- The entry of a tag (R139). -/
def entryOf (s : State) (ch : Chan) (tag : Nat) : Option Entry := (queueOf s ch).entries.find? (·.tag == tag)

/-- Changes the entry of a tag. -/
def modEntry (s : State) (ch : Chan) (tag : Nat) (f : Entry → Entry) : State :=
  modQ s ch fun l => l.map fun e => if e.tag == tag then f e else e

/-- Whether a command still runs: no completion has been decided. -/
def Entry.open_ (e : Entry) : Bool := e.ended.isNone

/-- Every channel, the admin channel first (R38). -/
def allChans : List Chan := .adm :: allSads.map .sad

/-- Decides a command's completion; its reply is posted in order (R142, R145). -/
def complete (s : State) (ch : Chan) (tag : Nat) (o : Outc) : State :=
  modEntry s ch tag fun e => if e.ended.isNone then { e with ended := some o, phase := .committed } else e

/-- Ends a command without effect; it completes with the outcome at its turn (R151, R161). -/
def endWithout (s : State) (ch : Chan) (tag : Nat) (o : Outc) : State :=
  modEntry s ch tag fun e => if e.ended.isNone then { e with ended := some o, data := [] } else e

/-- A field. -/
def fld (k v : String) : Fld := { k := k, v := v }

/-- A field with a number. -/
def fnum (k : String) (v : Nat) : Fld := { k := k, v := toString v }

/-- An outcome with `why=` first (R126). -/
def failWhy (st : Status) (why : String) (fs : List Fld := []) : Outc := { status := st, fields := fld "why" why :: fs }

/-- The decimal form of a saddle list (`held=`). -/
def heldStr (l : List SadNo) : String := natsStr (l.map (·.val))

/-- Severity order (R493). -/
def Sev.rank : Sev → Nat
  | .info => 0
  | .warn => 1
  | .error => 2

/-- The chip and the admin channel as event sources (R493). -/
abbrev srcChip : Nat := 0xFF

/-- Admin channel as event source. -/
abbrev srcAdm : Nat := 0xF0

/-- Latches an interrupt cause of a saddle (R79); while a reset masks the causes, all but RESET_DONE are
discarded (R81). COMPLETION and FLOW count toward coalescing (R80). -/
def latch (s : State) (n : SadNo) (k : Nat) : State :=
  modSad s n fun x =>
    if x.irq.masked && k != 3 then x
    else
      let q := x.irq
      let cause := if q.cause.contains k then q.cause else q.cause ++ [k]
      if k == 0 || k == 2 then
        let c := match look k q.cnt with
          | some (m, t) => (m + 1, t)
          | none => (1, s.clk.ptc)
        { x with irq := { q with cause := cause, cnt := put k c q.cnt } }
      else { x with irq := { q with cause := cause, due := if q.due.contains k then q.due else q.due ++ [k] } }

/-- Latches an interrupt cause of the physical function (R446): 0 COMPLETION and 2 FLOW are coalesced. -/
def latchPf (s : State) (k : Nat) : State :=
  let q := s.pcie.irq
  let cause := if q.cause.contains k then q.cause else q.cause ++ [k]
  let q' := if k == 0 || k == 2 then
      let c := match look k q.cnt with
        | some (m, t) => (m + 1, t)
        | none => (1, s.clk.ptc)
      { q with cause := cause, cnt := put k c q.cnt }
    else { q with cause := cause, due := if q.due.contains k then q.due else q.due ++ [k] }
  { s with pcie := { s.pcie with irq := q' } }

/-- A command doorbell's index (R437): the block after it, and whether the index was invalid. -/
def dbCmd (x : Fn) (p : Nat) : Fn × Bool :=
  let d := (p + 65536 - x.cmdCons) % 65536
  if 64 < d then ({ x with badIdx := true }, true)
  else if (x.pSeen + 65536 - x.cmdCons) % 65536 < d then ({ x with pSeen := p, dbCnt := inc x.dbCnt }, false)
  else (x, false)

/-- A reply doorbell's index (R437). -/
def dbRpl (x : Fn) (c : Nat) : Fn × Bool :=
  let d := (x.rplProd + 65536 - c) % 65536
  if 64 < d then ({ x with badIdx := true }, true)
  else if d < (x.rplProd + 65536 - x.cSeen) % 65536 then ({ x with cSeen := c, dbCnt := inc x.dbCnt }, false)
  else (x, false)

/-- A function's ATTENTION (R79, R446). -/
def latchFn (s : State) (f : FnNo) : State :=
  if h : 1 ≤ f.val then latch s ⟨f.val - 1, by omega⟩ 1 else latchPf s 1

/-- A doorbell acts on its ring (R437): `cmd` tells the command ring from the reply ring. -/
def ringBell (s : State) (f : FnNo) (cmd : Bool) (v : Nat) : State :=
  let (x, bad) := if cmd then dbCmd s.pcie.fn[f] v else dbRpl s.pcie.fn[f] v
  let s := modFn s f fun _ => x
  if bad then latchFn s f else s

/-- What makes a doorbell ignored (R438): rings off, a saddle not bound to VF or resetting, the admin channel in reset. -/
def bellIgnored (s : State) (f : FnNo) : Bool :=
  !s.pcie.fn[f].en ||
    (if h : 1 ≤ f.val then
      let n : SadNo := ⟨f.val - 1, by omega⟩
      bindOf s n != .vf || s.sad[n].reset.isSome
    else s.pcie.admReset)

/-- An index that a doorbell brought before DEV_READY is acted on (R438, R59). -/
def lateBell (s : State) (f : FnNo) : State :=
  match s.pcie.fn[f].early with
  | none => s
  | some (p, c) =>
    let s := modFn s f fun x => { x with early := none }
    let one (s : State) (cmd : Bool) (v : Option Nat) : State := match v with
      | none => s
      | some v => if bellIgnored s f then modFn s f fun x => { x with dbIgn := inc x.dbIgn } else ringBell s f cmd v
    one (one s true p) false c

/-- The staging of an event record (R495): beyond the 32 that the next intake takes, 256 wait; when those are
full the oldest waiting INFO record makes room for a WARN or ERROR record, and otherwise the new record is
dropped. -/
def stage (s : State) (e : Evt) : State :=
  let ev := s.evt
  if ev.staging.length < 288 then { s with evt := { ev with staging := ev.staging ++ [e] } }
  else
    let waiting := ev.staging.drop 32
    let drop (l : List Evt) : State := { s with evt := { ev with
      staging := l, drop := true, lost := inc ev.lost, lostSince := ev.lostSince + 1 } }
    match e.sev, waiting.findIdx? (fun e => e.sev == .info && e.own.isNone) with
    | .info, _ => drop ev.staging
    | _, some i => drop (ev.staging.take 32 ++ waiting.eraseIdx i ++ [e])
    | _, none => drop ev.staging

/-- An event of the running tick (R17, R493). One of severity WARN or above latches the admin channel's ATTENTION
(R446), and one that names a saddle latches that saddle's (R79). -/
def logE (s : State) (sev : Sev) (src code : Nat) (body : List (String × Nat × Nat) := [])
    (text : Option String := none) : State :=
  let s := stage s { ptc := s.clk.ptc, session := s.clk.session, sev := sev, src := src, code := code,
                     body := body, text := text }
  if sev == .info then s
  else if h : src < 8 then latch (latchPf s 1) ⟨src, h⟩ 1
  else latchPf s 1

/-- A reply to be written at the reply step (R16 step 4). -/
def reply (s : State) (r : Reply) : State := { s with fil := { s.fil with outq := s.fil.outq ++ [r] } }

/-- The transport that a channel's replies take when no line brought the command. -/
def homeOf (s : State) : Chan → Transport
  | .adm => .pf0
  | .sad n =>
    match bindOf s n with
    | .sp p => .sp p
    | .console => .console
    | _ => .vf n

/-- What an unlisted byte of an addressed memory reads as (log 5). -/
def memBlank : Byte := 0

/-- Reads one byte. -/
def Mem.get (m : Mem) (a : Nat) : Byte := ((m.cells.find? (·.1 == a)).map (·.2)).getD memBlank

/-- Writes one byte into ordered cells, dropping an entry that equals what an unlisted address reads as. -/
def cellSet (a : Nat) (b : Byte) : List Host.Cell → List Host.Cell
  | [] => if b = memBlank then [] else [(a, b)]
  | (k, v) :: t =>
    if a < k then (if b = memBlank then (k, v) :: t else (a, b) :: (k, v) :: t)
    else if a = k then (if b = memBlank then t else (k, b) :: t)
    else (k, v) :: cellSet a b t

/-- Writes one byte. -/
def Mem.set (m : Mem) (a : Nat) (b : Byte) : Mem := { cells := cellSet a b m.cells }

/-- Writes bytes from an address on. -/
def Mem.put : Mem → Nat → List Byte → Mem
  | m, _, [] => m
  | m, a, b :: t => Mem.put (m.set a b) (a + 1) t

/-- Reads bytes from an address on. -/
def Mem.read (m : Mem) (a len : Nat) : List Byte := (List.range len).map fun i => m.get (a + i)

/-- The fill of an address of the buffer DRAM: after TEST DRAM its third pattern, by even and odd caddies (R504). -/
def fillByte (f : DramFill) (a : Nat) : Byte :=
  match f with
  | .zero => 0
  | .pattern => if a / 65536 % 2 = 0 then 0x55 else 0xAA
  | .cut k => Config.testByte k a

/-- What an unwritten address of the buffer DRAM reads as: TEST DRAM fills the caddies alone (R213, R504). -/
def dramBase (s : State) (a : Nat) : Byte := if a < s.pool.total * 65536 then fillByte s.dramFill a else 0

/-- Reads bytes of the buffer DRAM. -/
def dramRead (s : State) (a len : Nat) : List Byte := (List.range len).map fun i => s.dram.get (a + i) ^^^ dramBase s (a + i)

/-- Writes bytes of the buffer DRAM. -/
def dramWrite (s : State) (a : Nat) (b : List Byte) : State :=
  { s with dram := s.dram.put a (b.zipIdx.map fun (x, i) => x ^^^ dramBase s (a + i)) }

/-- The canonical form: strictly rising addresses, no entry that equals what an unlisted address reads as. -/
def cellsWf : List Host.Cell → Bool
  | [] => true
  | (k, v) :: t => v != memBlank && t.all (fun c => k < c.1) && cellsWf t

/-- The canonical form of a memory. -/
def Mem.wf (m : Mem) : Bool := cellsWf m.cells

/-- The next free value's number; the step that uses it takes it. -/
def draw (s : State) : Nat × State := (s.free, { s with free := s.free + 1 })

/-- Acknowledged bytes of a saddle not yet on tape (R146). -/
def unsyncBytes (x : Saddle) : Nat := sumL (x.unsync.map (·.2))

/-- The window Wn (R146). -/
def window (s : State) (n : SadNo) : Nat :=
  let w := pnat s .sadWindow n.val
  if w != 0 then w else pnat s .ackWindow

/-- Mode order of R36. -/
def Mode.rank : Mode → Nat
  | .park => 0
  | .stage => 1
  | .stream => 2
  | _ => 0

/-- The name of a mode in replies. -/
def Mode.name : Mode → String
  | .starting => "STARTING"
  | .park => "PARK"
  | .stage => "STAGE"
  | .stream => "STREAM"
  | .service => "SERVICE"
  | .halt => "HALT"

/-- MODE_STAT's encoding (R31). -/
def Mode.code : Mode → Nat
  | .starting => 1
  | .park => 2
  | .stage => 3
  | .stream => 4
  | .service => 5
  | .halt => 6

/-- The name of a HALT cause. -/
def HaltCause.name : HaltCause → String
  | .none => "NONE"
  | .overrun => "OVERRUN"
  | .watchdog => "WATCHDOG"
  | .vcore => "VCORE"
  | .thermal => "THERMAL"
  | .motion => "MOTION"
  | .dram => "DRAM"
  | .xtal => "XTAL"
  | .firmware => "FIRMWARE"

/-- HALT_CAUSE's encoding. -/
def HaltCause.code : HaltCause → Nat
  | .none => 0
  | .overrun => 1
  | .watchdog => 2
  | .vcore => 3
  | .thermal => 4
  | .motion => 5
  | .dram => 6
  | .xtal => 7
  | .firmware => 8

/-- A reply status word (R130). -/
def Status.word : Status → String
  | .ok => "OK"
  | .caught => "CAUGHT"
  | .late => "LATE"
  | .unknown => "UNKNOWN"
  | .deferred => "DEFERRED"
  | .hold => "HOLD"
  | .holes => "HOLES"
  | .busyQueue => "BUSY.QUEUE"
  | .busyPool => "BUSY.POOL"
  | .busyMode => "BUSY.MODE"
  | .denied => "DENIED"
  | .deniedQos => "DENIED.QOS"
  | .badline => "BADLINE"
  | .badsum => "BADSUM"
  | .badarg => "BADARG"
  | .notape => "NOTAPE"
  | .eom => "EOM"
  | .fault => "FAULT"

/-- Name of a deferred cause (R150). -/
def DefCause.name : DefCause → String
  | .none => "NONE"
  | .channels => "CHANNELS"
  | .eom => "EOM"
  | .verify => "VERIFY"
  | .guard => "GUARD"
  | .seal => "SEAL"

/-- Code of a deferred cause (R150). -/
def DefCause.code : DefCause → Nat
  | .none => 0
  | .channels => 1
  | .eom => 2
  | .verify => 3
  | .guard => 4
  | .seal => 5

/-- WAITWHY (R93): the register's code. -/
def WaitWhy.code : WaitWhy → Nat
  | .none => 0
  | .slot => 1
  | .engine => 2
  | .pool => 3
  | .window => 4
  | .lock => 5
  | .halt => 6
  | .mode => 7
  | .tape => 8
  | .power => 9
  | .source => 10
  | .outbound => 11
  | .field => 12

/-- WAITWHY (R93): the name. -/
def WaitWhy.name : WaitWhy → String
  | .none => "none"
  | .slot => "slot"
  | .engine => "engine"
  | .pool => "pool"
  | .window => "window"
  | .lock => "lock"
  | .halt => "halt"
  | .mode => "mode"
  | .tape => "tape"
  | .power => "power"
  | .source => "source"
  | .outbound => "outbound"
  | .field => "field"

/-- The effects of PWR_FAIL_N's recognition are in force (R63, R66). -/
def pfInForce (s : State) : Bool := s.pw.pf.recognised

/-- Raises a HALT cause: the chip enters HALT at the boundary that closes this tick (R40). -/
def haltRequest (s : State) (c : HaltCause) : State :=
  { s with pw := { s.pw with haltPend := match s.pw.haltPend with
      | some d => some d
      | none => some c } }

/-- A deferred error found in this tick; the first one of a tick stands and the boundary raises it (R150). -/
def deferErr (s : State) (n : SadNo) (c : DefCause) : State :=
  modSad s n fun x => { x with defPend := if x.defPend.contains c then x.defPend else x.defPend ++ [c] }

end Sys2Proof.Machine
end

