-- ==== Sys2Proof/Machine/Operands.lean ====
section
/-! DEFINITION. The operand forms of the language: elements of a line (R108), value forms (R111) and their
errors (R112). -/

namespace Sys2Proof.Machine

open Sys2Proof

/-- An argument of a line: its key folded to lower case, and its value text. -/
structure Arg where
  key : String
  val : Option (List Char)
deriving DecidableEq, Repr

/-- Upper case of an ASCII letter. -/
def upChar (c : Char) : Char := if 'a' ≤ c && c ≤ 'z' then Char.ofNat (c.toNat - 32) else c

/-- Lower case of an ASCII letter. -/
def lowChar (c : Char) : Char := if 'A' ≤ c && c ≤ 'Z' then Char.ofNat (c.toNat + 32) else c

/-- A letter. -/
def isLetter (c : Char) : Bool := ('a' ≤ c && c ≤ 'z') || ('A' ≤ c && c ≤ 'Z')

/-- A decimal digit. -/
def isDig (c : Char) : Bool := '0' ≤ c && c ≤ '9'

/-- The value of a hex digit. -/
def hexDig (c : Char) : Option Nat :=
  if isDig c then some (c.toNat - 0x30)
  else if 'a' ≤ c && c ≤ 'f' then some (c.toNat - 0x57)
  else if 'A' ≤ c && c ≤ 'F' then some (c.toNat - 0x37)
  else none

/-- Folds a text to upper case (R109). -/
def upper (l : List Char) : String := String.ofList (l.map upChar)

/-- Splits at the spaces outside strings; none when a string's closing quote is missing (R108, R112). -/
def tokensFrom : List Char → Bool → List Char → Option (List (List Char))
  | [], true, _ => none
  | [], false, cur => some (if cur.isEmpty then [] else [cur.reverse])
  | c :: t, false, cur =>
    if c = ' ' then
      (tokensFrom t false []).map fun r => if cur.isEmpty then r else cur.reverse :: r
    else tokensFrom t (c = '"') (c :: cur)
  | c :: t, true, cur => tokensFrom t (c ≠ '"') (c :: cur)

/-- A `*` stands outside every string (R112). -/
def starOutside : List Char → Bool → Bool
  | [], _ => false
  | c :: t, q => (!q && c = '*') || starOutside t (if c = '"' then !q else q)

/-- Splits a text at the first character that is `c`. -/
def splitAt1 (c : Char) : List Char → List Char × Option (List Char)
  | [] => ([], none)
  | d :: t => if d = c then ([], some t) else
    let (a, b) := splitAt1 c t
    (d :: a, b)

/-- Splits a text at every `c`. -/
def splitAll (c : Char) : List Char → List (List Char)
  | [] => [[]]
  | d :: t =>
    match splitAll c t with
    | [] => [[d]]
    | h :: r => if d = c then [] :: h :: r else (d :: h) :: r

/-- A key: 1 to 63 characters of letters, digits, `.` and `_`, beginning with a letter (R108). -/
def keyOk (l : List Char) : Bool :=
  1 ≤ l.length && l.length ≤ 63 && (l.head?.map isLetter).getD false &&
    l.all fun c => isLetter c || isDig c || c = '.' || c = '_'

/-- An argument element. -/
def parseArg (l : List Char) : Option Arg :=
  let (k, v) := splitAt1 '=' l
  if keyOk k then some { key := String.ofList (k.map lowChar), val := v } else none

/-- Digits of a base with `_` between digits. -/
def digits (base : Nat) : List Char → Option Nat
  | [] => none
  | l =>
    let rec go : List Char → Nat → Bool → Option Nat
      | [], acc, last => if last then some acc else none
      | c :: t, acc, last =>
        if c = '_' then (if last && !t.isEmpty then go t acc false else none)
        else match hexDig c with
          | some d => if d < base then go t (acc * base + d) true else none
          | none => none
    go l 0 false

/-- An integer or a hex value (R111). -/
def parseInt (l : List Char) : Option Int :=
  match l with
  | '0' :: 'x' :: t => if (t.filter (· ≠ '_')).length ≤ 16 then (digits 16 t).map Int.ofNat else none
  | '-' :: t => (digits 10 t).map fun n => -(n : Int)
  | t => (digits 10 t).map Int.ofNat

/-- A size (R111): an integer with a suffix, or a plain one; one below zero has the form and no range that takes it. -/
def parseSize (l : List Char) : Option Int :=
  let r := (l.reverse.take 3).reverse
  let times (k : Nat) (l : List Char) : Option Int := match l with
    | '-' :: t => (digits 10 t).map fun n => -((n * k : Nat) : Int)
    | t => (digits 10 t).map fun n => ((n * k : Nat) : Int)
  let body := l.take (l.length - 3)
  match upper r with
  | "KIB" => times 1024 body
  | "MIB" => times 1048576 body
  | "GIB" => times 1073741824 body
  | _ => times 1 l

/-- A fixed value with at most `d` decimals, in units of the last of them; the Bool admits a sign. -/
def parseFixed (d : Nat) (sign : Bool) (l : List Char) : Option Int :=
  let (neg, t) := match l with
    | '-' :: t => (true, t)
    | t => (false, t)
  if neg && !sign then none
  else match splitAt1 '.' t with
    | (a, some b) =>
      if 1 ≤ b.length && b.length ≤ d && a.all isDig && b.all isDig && !a.isEmpty then
        (digits 10 (a ++ b)).map fun n =>
          let v : Int := (n * 10 ^ (d - b.length) : Nat)
          if neg then -v else v
      else none
    | _ => none

/-- A bool (R111). -/
def parseBool (l : List Char) : Option Bool :=
  match String.ofList l with
  | "0" => some false
  | "no" => some false
  | "1" => some true
  | "yes" => some true
  | _ => none

/-- A string's text, 0 to 64 characters without quotes (R111). -/
def parseStr (l : List Char) : Option String :=
  match l with
  | '"' :: t =>
    match t.reverse with
    | '"' :: r => if r.contains '"' || r.length > 64 then none else some (String.ofList r.reverse)
    | _ => none
  | _ => none

/-- A word of 8 bytes, first byte first (R111). -/
def parseWord (l : List Char) : Option W64 :=
  let t := match l with
    | '0' :: 'x' :: t => t
    | t => t
  if (t.filter (· ≠ '_')).length = 16 then (digits 16 t).map (BitVec.ofNat 64) else none

/-- Elements of a list (R111): none where the list may be empty. -/
def listElems (l : List Char) (mayEmpty : Bool) : Option (List (List Char)) :=
  if mayEmpty && upper l = "NONE" then some []
  else
    let p := splitAll ',' l
    if p.length ≤ 256 && p.all (fun e => !e.isEmpty) then some p else none

/-- A pair (R111). -/
def pairElems (l : List Char) : Option (List Char × List Char) :=
  match splitAll ':' l with
  | [a, b] => some (a, b)
  | _ => none

/-- The characters an enum value may have (R111). -/
def enumChars (l : List Char) : Bool :=
  !l.isEmpty && l.all fun c => isLetter c || isDig c || c = '_' || c = '.'

/-- A value within bounds. -/
def bounded (lo hi v : Int) : Except String Int := if lo ≤ v && v ≤ hi then .ok v else .error "range"

/-- An integer within bounds. -/
def intIn (lo hi : Int) (l : List Char) : Except String Int :=
  match parseInt l with
  | some v => bounded lo hi v
  | none => .error "form"

/-- An enum's index. -/
def enumIn (ns : List String) (l : List Char) : Except String Nat :=
  if enumChars l then
    match ns.findIdx? (· == upper l) with
    | some i => .ok i
    | none => .error "range"
  else .error "form"

/-- A value of a parameter's form (R111): the value, or why not. -/
def parseVal (k : PKind) (l : List Char) : Except String PVal :=
  match k with
  | .int lo hi step =>
    match parseInt l with
    | none => .error "form"
    | some v => if v % (step : Int) ≠ 0 then .error "step" else (bounded lo hi v).map .n
  | .hex _ lo hi z =>
    match parseInt l with
    | none => .error "form"
    | some v => if z && v = 0 then .ok (.n 0) else (bounded lo hi v).map .n
  | .size lo hi z =>
    match parseSize l with
    | none => .error "form"
    | some v =>
      if z && v = 0 then .ok (.n 0)
      else if v % 65536 ≠ 0 then .error "step"
      else (bounded lo hi v).map .n
  | .fixed d step lo hi =>
    match parseFixed d (decide (lo < 0)) l with
    | none => .error "form"
    | some v => if v % (step : Int) ≠ 0 then .error "step" else (bounded lo hi v).map .n
  | .enum ns => (enumIn ns l).map fun i => .n i
  | .bool =>
    match parseBool l with
    | some b => .ok (.n (if b then 1 else 0))
    | none => .error "form"
  | .list lo hi nmin nmax uniq =>
    match listElems l (nmin = 0) with
    | none => .error "form"
    | some es => do
      let vs ← es.mapM (intIn lo hi)
      if vs.length < nmin || nmax < vs.length || (uniq && vs.eraseDups.length ≠ vs.length) then .error "range"
      else .ok (.l vs)
  | .flist d lo hi n =>
    match listElems l false with
    | none => .error "form"
    | some es => do
      let vs ← es.mapM fun e => match parseFixed d (decide (lo < 0)) e with
        | none => Except.error "form"
        | some v => bounded lo hi v
      if vs.length ≠ n then .error "range" else .ok (.l vs)
  | .pair lo hi =>
    match pairElems l with
    | none => .error "form"
    | some (a, b) => do
      let x ← intIn lo hi a
      let y ← intIn lo hi b
      .ok (.p [(x, y)])
  | .plist nmax =>
    match listElems l true with
    | none => .error "form"
    | some es => do
      let vs ← es.mapM fun e => match pairElems e with
        | none => Except.error "form"
        | some (a, b) => do
          let x ← intIn 0 255 a
          let y ← intIn 0 255 b
          .ok (x, y)
      if nmax < vs.length then .error "range" else .ok (.p vs)

end Sys2Proof.Machine
end

