-- ==== Sys2Proof/Machine/VerbArgs.lean ====
section
/-! DEFINITION. The arguments of every verb (R169-R171 and the entries of file 06): a line's elements to a
`Verb`, or the status and fields that answer it. -/

namespace Sys2Proof.Machine

open Sys2Proof

/-- A check's result: the value, or the status word and fields of the rejection (R116). -/
abbrev Chk (α : Type) := Except (Status × List Fld) α

/-- BADARG with its reason and key (R112). -/
def badArg (why key : String) : Status × List Fld := (.badarg, [fld "why" why, fld "key" key])

/-- BADARG for a name that matches no parameter (R131). -/
def badName (name : String) : Status × List Fld := (.badarg, [fld "why" "name", fld "name" name])

/-- DENIED with its reason. -/
def denied (why : String) : Status × List Fld := (.denied, [fld "why" why])

/-- The value text of a key. -/
def argOf (as : List Arg) (k : String) : Option (Option (List Char)) := (as.find? (·.key == k)).map (·.val)

/-- Whether a key is given. -/
def hasArg (as : List Arg) (k : String) : Bool := as.any (·.key == k)

/-- The names of a line's keys: each at most once, and each one the verb takes (R112, R171). -/
def keysOk : List Arg → List String → List String → Chk Unit
  | [], _, _ => .ok ()
  | a :: t, seen, allowed =>
    if seen.contains a.key then .error (badArg "dup" a.key)
    else if !allowed.contains a.key then .error (badArg "key" a.key)
    else keysOk t (a.key :: seen) allowed

/-- An optional key's value. -/
def optArg {α : Type} (as : List Arg) (k : String) (p : List Char → Except String α) : Chk (Option α) :=
  match argOf as k with
  | none => .ok none
  | some none => .error (badArg "form" k)
  | some (some v) =>
    match p v with
    | .ok x => .ok (some x)
    | .error w => .error (badArg w k)

/-- A required key's value. -/
def reqArg {α : Type} (as : List Arg) (k : String) (p : List Char → Except String α) : Chk α := do
  match ← optArg as k p with
  | some x => .ok x
  | none => .error (badArg "missing" k)

/-- A natural number within bounds. -/
def natIn (lo hi : Nat) (l : List Char) : Except String Nat := (intIn lo hi l).map Int.toNat

/-- A saddle number. -/
def sadIn (l : List Char) : Except String SadNo :=
  match intIn 0 7 l with
  | .ok v => if h : v.toNat < 8 then .ok ⟨v.toNat, h⟩ else .error "range"
  | .error e => .error e

/-- A channel number. -/
def chIn (l : List Char) : Except String ChNo :=
  match intIn 0 63 l with
  | .ok v => if h : v.toNat < 64 then .ok ⟨v.toNat, h⟩ else .error "range"
  | .error e => .error e

/-- A key slot. -/
def slotIn (l : List Char) : Except String (Fin 16) :=
  match intIn 0 15 l with
  | .ok v => if h : v.toNat < 16 then .ok ⟨v.toNat, h⟩ else .error "range"
  | .error e => .error e

/-- A bool. -/
def boolIn (l : List Char) : Except String Bool :=
  match parseBool l with
  | some b => .ok b
  | none => .error "form"

/-- A string of at least `n` characters. -/
def strIn (n : Nat) (l : List Char) : Except String String :=
  match parseStr l with
  | none => .error "form"
  | some t => if t.length < n then .error "range" else .ok t

/-- A word. -/
def wordIn (l : List Char) : Except String W64 :=
  match parseWord l with
  | some w => .ok w
  | none => .error "form"

/-- A size or integer within bounds, a multiple of `step`. -/
def sizeIn (lo hi step : Nat) (l : List Char) : Except String Nat :=
  match parseSize l with
  | none => .error "form"
  | some v => if v % (step : Int) ≠ 0 then .error "step" else if (lo : Int) ≤ v ∧ v ≤ (hi : Int) then .ok v.toNat else .error "range"

/-- An enum value as one of the values listed. -/
def pick {α : Type} (l : List (String × α)) (t : List Char) : Except String α :=
  if !enumChars t then .error "form"
  else match l.find? (·.1 == upper t) with
    | some (_, a) => .ok a
    | none => .error "range"

/-- A list of `nmin` to `nmax` elements. -/
def elemsIn {α : Type} (nmin nmax : Nat) (p : List Char → Except String α) (t : List Char) :
    Except String (List α) :=
  match listElems t (nmin = 0) with
  | none => .error "form"
  | some es => do
    let vs ← es.mapM p
    if vs.length < nmin || nmax < vs.length then .error "range" else .ok vs

/-- A pair `addr:len` with its bounds. -/
def pairIn (lo hi : Nat) (t : List Char) : Except String (Nat × Nat) :=
  match pairElems t with
  | none => .error "form"
  | some (a, b) => do
    let x ← natIn 0 u64Max a
    let y ← natIn lo hi b
    .ok (x, y)

/-- A tag as an argument. -/
def tagIn (t : List Char) : Except String Nat :=
  match t with
  | [a, b] =>
    match hexDig a, hexDig b with
    | some x, some y => if x < 2 then .ok (16 * x + y) else .error "form"
    | _, _ => .error "form"
  | _ => .error "form"

/-- A slot element of a plait list (R191). -/
def slotElIn (t : List Char) : Except String SlotEl :=
  match upper t with
  | "F" => .ok .free
  | "X" => .ok .fill
  | _ => (sadIn t).map .owner |>.mapError fun _ => "form"

/-- An ARM code: six characters of A-Z and 2-9 (R176). -/
def codeIn (t : List Char) : Except String String :=
  if t.length = 6 && t.all (fun c => isLetter c || ('2' ≤ c && c ≤ '9')) then .ok (upper t) else .error "form"

/-- Exactly one of several keys (R112): the first of them is named when none is given, the later one when two
are. -/
def oneOf (as : List Arg) (ks : List String) : Chk Unit :=
  match as.filter fun a => ks.contains a.key with
  | [] => .error (badArg "missing" (ks.headD ""))
  | [_] => .ok ()
  | _ :: b :: _ => .error (badArg "key" b.key)

/-- Calibration items. -/
def calItems : List (String × CalItem) :=
  [("ADC", .adc), ("TENSION", .tension), ("SERVO", .servo), ("HEADS", .heads), ("WRITE", .write), ("EQ", .eq)]

/-- The `saddle=` of a verb that acts on a saddle (R170): required of the admin channel, and of a saddle only
its own number. -/
def sadArg (ch : Chan) (as : List Arg) (required : Bool) : Chk (Option SadNo) := do
  let v ← optArg as "saddle" sadIn
  match ch, v with
  | .adm, none => if required then .error (badArg "missing" "saddle") else .ok none
  | _, v => .ok v

/-- The scope of a saddle's own `saddle=` (R170). -/
def sadScope (ch : Chan) (sad : Option SadNo) : Chk Unit :=
  match ch, sad with
  | .sad n, some m => if m = n then .ok () else .error (denied "scope")
  | _, _ => .ok ()

/-- A band. -/
def bandIn (t : List Char) : Except String (Fin 4) :=
  match intIn 0 3 t with
  | .ok v => if h : v.toNat < 4 then .ok ⟨v.toNat, h⟩ else .error "range"
  | .error e => .error e

/-- The host buffer of READ and the source of WRITE for a VF saddle. -/
def sgArgs (as : List Arg) : Chk XferList := do
  let sg ← optArg as "sg" (elemsIn 1 8 (pairIn 1 u64Max))
  let sgt ← optArg as "sgt" (pairIn 1 1024)
  match sg, sgt with
  | some l, _ => .ok (.sg l)
  | none, some (a, c) => .ok (.sgt a c)
  | none, none => .ok .none

/-- WRITE's arguments (R210, R147). -/
def writeArgs (bind : Binding) (as : List Arg) : Chk Verb := do
  let ks := match bind with
    | .console => ["d", "rec"]
    | .sp _ => ["len", "rec"]
    | _ => ["len", "sg", "sgt", "rec"]
  keysOk as [] ks
  let r ← optArg as "rec" boolIn
  match bind with
  | .console =>
    let d ← reqArg as "d" (elemsIn 1 8 wordIn)
    .ok (.write { len := 8 * d.length, src := .words d, recEnd := r.getD true })
  | .sp _ =>
    let len ← reqArg as "len" (sizeIn 1 1610612736 1)
    .ok (.write { len := len, recEnd := r.getD true })
  | _ =>
    let len ← reqArg as "len" (sizeIn 1 1610612736 1)
    oneOf as ["sg", "sgt"]
    let src ← sgArgs as
    .ok (.write { len := len, src := src, recEnd := r.getD true })

/-- READ's arguments (R193). -/
def readArgs (bind : Binding) (as : List Arg) : Chk Verb := do
  let vf := match bind with
    | .console | .sp _ => false
    | _ => true
  keysOk as [] (["girth", "len", "fill"] ++ if vf then ["sg", "sgt"] else [])
  let g ← optArg as "girth" (natIn 0 girthMax)
  let len ← reqArg as "len" (sizeIn 1 (if bind == .console then 64 else 67108864) 1)
  let f ← optArg as "fill" (pick [("BEST", false), ("ZERO", true)])
  if vf then oneOf as ["sg", "sgt"] else pure ()
  let dst ← sgArgs as
  .ok (.read { girth := g, len := len, dst := dst, fill := f })

/-- SADDLE op=SET (R196). -/
def sadSetArgs (as : List Arg) : Chk SadSetArgs := do
  let cls ← optArg as "class" (pick [("RATE", QosClass.rate), ("SHARE", .share), ("IDLE", .idle)])
  let rate ← optArg as "rate" (natIn 0 3612)
  let weight ← optArg as "weight" (natIn 1 64)
  let policy ← optArg as "policy" (pick [("PASS", Policy.pass), ("BOUND", .bound), ("FIT", .fit)])
  let ratio ← optArg as "ratio" (natIn 0 4)
  let format ← optArg as "format" (pick [("NONE", Fmt.none), ("S16", .s16), ("S24", .s24), ("S32", .s32)])
  let lanes ← optArg as "lanes" (natIn 1 8)
  .ok { cls := cls, rate := rate, weight := weight, policy := policy, ratio := ratio, format := format, lanes := lanes }

/-- A saddle number that a saddle-acting verb must have; a saddle acts on itself. -/
def sadTarget (ch : Chan) (sad : Option SadNo) : Chk SadNo :=
  match ch, sad with
  | .sad n, _ => .ok n
  | .adm, some n => .ok n
  | .adm, none => .error (badArg "missing" "saddle")

/-- SET's pairs (R131, R133): every name exists and every value has its form. -/
def setPairs : List Arg → List String → Chk (List (Param × PVal))
  | [], _ => .ok []
  | a :: t, seen =>
    if seen.contains a.key then .error (badArg "dup" a.key)
    else match findParam a.key with
      | none => .error (badName a.key)
      | some p =>
        match a.val with
        | none => .error (badArg "form" a.key)
        | some v =>
          match parseVal (pspec p.id).kind v with
          | .error w => .error (badArg w a.key)
          | .ok x => (setPairs t (a.key :: seen)).map ((p, x) :: ·)

/-- GET's names (R132). -/
def getNames : List Arg → List String → Chk (List String)
  | [], _ => .ok []
  | a :: t, seen =>
    if seen.contains a.key then .error (badArg "dup" a.key)
    else if a.val.isSome then .error (badArg "form" a.key)
    else if (leavesOf a.key).isEmpty then .error (badName a.key)
    else (getNames t (a.key :: seen)).map (a.key :: ·)

/-- Whether the line says CONFIRM=yes. -/
def confirmed (as : List Arg) : Chk Bool := do .ok ((← optArg as "confirm" boolIn).getD false)

/-- A verb with its own arguments: names, then presence and forms. `confirm=` goes with the forms that R120 names alone (R171). -/
def verbForm (ch : Chan) (bind : Binding) (verb : String) (as : List Arg) : Chk Verb := do
  match verb with
  | "ABORT" =>
    keysOk as [] ["tag", "saddle"]
    let sad ← sadArg ch as false
    let tag ← reqArg as "tag" tagIn
    if ch == .adm && sad.isNone && 8 ≤ tag then .error (badArg "range" "tag") else .ok (.abort tag sad)
  | "ACTIVATE" =>
    keysOk as [] ["slot", "confirm"]
    .ok (.activate (← reqArg as "slot" (pick [("A", Slot.a), ("B", .b)])))
  | "ARM" =>
    keysOk as [] ["action", "confirm"]
    .ok (.arm (← reqArg as "action" (pick [("STAGE1", ArmAction.stage1), ("KEK", .kek)])))
  | "CAL" =>
    keysOk as [] ["what", "band"]
    let w ← reqArg as "what" (elemsIn 1 6 (pick calItems))
    .ok (.cal w (← optArg as "band" bandIn))
  | "CHAN" =>
    let op ← reqArg as "op" (pick [("LIST", 0), ("OUT", 1), ("IN", 2)])
    keysOk as [] (["op"] ++ if op = 0 then [] else ["ch", "confirm"])
    if op = 0 then .ok .chanList
    else
      let c ← reqArg as "ch" chIn
      .ok (if op = 1 then .chanOut c else .chanIn c)
  | "CLEAR" =>
    keysOk as [] ["saddle"]
    .ok (.clear (← sadArg ch as true))
  | "CM" =>
    let op ← reqArg as "op" (pick [("READ", false), ("REPAIR", true)])
    if op then
      keysOk as [] ["op", "confirm"]
      .ok .cmRepair
    else
      let part ← optArg as "part" (pick [("DIR", 0), ("HEAD", 1), ("EPOCHS", 2), ("EOD", 3), ("SESSION", 4), ("RAW", 5)])
      keysOk as [] (["op", "part"] ++ if part == some 5 then ["addr", "len"] else [])
      match part with
      | some 5 =>
        let a ← reqArg as "addr" (natIn 0 32767)
        let l ← reqArg as "len" (natIn 1 64)
        .ok (.cmRead (.raw a l))
      | some 1 => .ok (.cmRead .head)
      | some 2 => .ok (.cmRead .epochs)
      | some 3 => .ok (.cmRead .eod)
      | some 4 => .ok (.cmRead .session)
      | _ => .ok (.cmRead .dir)
  | "COMMIT" =>
    keysOk as [] ["note"]
    .ok (.commit ((← optArg as "note" (strIn 0)).getD ""))
  | "CONFIGS" =>
    keysOk as [] []
    .ok .configs
  | "CONFIRM" =>
    keysOk as [] ["action", "code"]
    let a ← reqArg as "action" (pick [("STAGE1", ArmAction.stage1), ("KEK", .kek)])
    .ok (.confirm a (← reqArg as "code" codeIn))
  | "DISCARD" =>
    keysOk as [] ["saddle", "from", "confirm"]
    let sad ← sadArg ch as true
    .ok (.discard sad (← optArg as "from" (natIn 0 girthMax)))
  | "EVENTS" =>
    keysOk as [] ["after", "n", "level"]
    let a ← optArg as "after" (natIn 0 4294967295)
    let n ← optArg as "n" (natIn 1 64)
    let l ← optArg as "level" (pick [("INFO", Sev.info), ("WARN", .warn), ("ERROR", .error)])
    .ok (.events a (n.getD 16) (l.getD .info))
  | "GET" =>
    if as.isEmpty then .error (badArg "missing" "name") else .ok (.get (← getNames as []))
  | "HELLO" =>
    keysOk as [] ["session"]
    .ok (.hello (← optArg as "session" (pick [("TYPED", SesMode.typed), ("GENERATED", .generated)])))
  | "INFO" =>
    keysOk as [] ["what"]
    let w ← optArg as "what" (pick [("DEV", Verb.infoDev), ("FW", .infoFw), ("LINK", .infoLink),
      ("DRAM", .infoDram), ("PORTS", .infoPorts)])
    .ok (w.getD .infoDev)
  | "KEY" =>
    let op ← reqArg as "op" (pick [("PART", 0), ("LOAD", 1), ("ZERO", 2), ("LIST", 3), ("KEK", 4)])
    keysOk as [] (["op"] ++ match op with
      | 0 => ["slot", "seq", "w"]
      | 1 => ["slot"]
      | 2 => ["slot", "confirm"]
      | 3 => []
      | _ => ["seq", "w", "confirm"])
    match op with
    | 0 =>
      let s ← reqArg as "slot" slotIn
      let q ← reqArg as "seq" (natIn 0 8)
      let w ← reqArg as "w" wordIn
      if h : q < 9 then .ok (.keyPart s ⟨q, h⟩ w) else .error (badArg "range" "seq")
    | 1 => .ok (.keyLoad (← reqArg as "slot" slotIn))
    | 2 => .ok (.keyZero (← reqArg as "slot" slotIn))
    | 3 => .ok .keyList
    | _ =>
      let q ← reqArg as "seq" (natIn 0 3)
      let w ← reqArg as "w" wordIn
      if h : q < 4 then .ok (.keyKek ⟨q, h⟩ w) else .error (badArg "range" "seq")
  | "LOAD" =>
    keysOk as [] []
    .ok .load
  | "LOCATE" =>
    keysOk as [] ["girth", "ds", "to", "saddle"]
    oneOf as ["girth", "ds", "to"]
    if ch == .adm && hasArg as "saddle" && !hasArg as "girth" then .error (badArg "key" "saddle") else pure ()
    let sad ← sadArg ch as (hasArg as "girth")
    let g ← optArg as "girth" (natIn 0 girthMax)
    let d ← optArg as "ds" (natIn 0 7553087)
    let t ← optArg as "to" (pick [("BOT", LocTarget.bot), ("EOD", .eod)])
    match g, d, t with
    | some g, _, _ => .ok (.locate sad (.girth g))
    | _, some d, _ => .ok (.locate sad (.ds d))
    | _, _, some t => .ok (.locate sad t)
    | _, _, _ => .error (badArg "missing" "girth")
  | "LOG" =>
    keysOk as [] ["text", "op"]
    oneOf as ["text", "op"]
    let t ← optArg as "text" (strIn 1)
    let _ ← optArg as "op" (pick [("SAVE", ())])
    match t with
    | some t => .ok (.logText t)
    | none => .ok .logSave
  | "MARK" =>
    keysOk as [] ["note"]
    .ok (.mark ((← optArg as "note" (strIn 0)).getD ""))
  | "MODE" =>
    keysOk as [] ["to", "confirm"]
    .ok (.mode (← reqArg as "to" (pick [("PARK", Mode.park), ("STAGE", .stage), ("STREAM", .stream), ("SERVICE", .service)])))
  | "PLAIT" =>
    let op ← reqArg as "op" (pick [("SHOW", 0), ("PUT", 1), ("APPLY", 2), ("AUTO", 3)])
    keysOk as [] (["op"] ++ match op with
      | 0 => ["from", "n"]
      | 1 => ["at", "list"]
      | _ => [])
    match op with
    | 0 =>
      let f ← optArg as "from" (natIn 0 255)
      let n ← optArg as "n" (natIn 1 256)
      .ok (.plaitShow (f.getD 0) (n.getD 256))
    | 1 =>
      let a ← reqArg as "at" (natIn 0 255)
      .ok (.plaitPut a (← reqArg as "list" (elemsIn 1 64 slotElIn)))
    | 2 => .ok .plaitApply
    | _ => .ok .plaitAuto
  | "QRESET" =>
    keysOk as [] ["saddle", "confirm"]
    .ok (.qreset (← sadArg ch as false))
  | "READ" => readArgs bind as
  | "ROLLBACK" =>
    keysOk as [] ["to", "confirm"]
    .ok (.rollback (← optArg as "to" (natIn 0 4294967295)))
  | "SADDLE" =>
    let op ← reqArg as "op" (pick [("OPEN", 0), ("CLOSE", 1), ("SET", 2)])
    let qos := ["class", "rate", "weight", "policy", "ratio", "format", "lanes"]
    keysOk as [] (["op", "saddle"] ++ if op = 2 then qos else [])
    let sad ← sadArg ch as true
    let n ← sadTarget ch sad
    let own : Chk Unit := sadScope ch sad
    match op with
    | 0 => own.map fun _ => .saddleOpen n
    | 1 => own.map fun _ => .saddleClose n
    | _ =>
      if qos.any (hasArg as) then
        let a ← sadSetArgs as
        own.map fun _ => .saddleSet n a
      else .error (badArg "missing" "class")
  | "SEAL" =>
    keysOk as [] ["saddle", "on", "slot"]
    let sad ← sadArg ch as true
    let n ← sadTarget ch sad
    let on ← reqArg as "on" boolIn
    let slot ← optArg as "slot" slotIn
    if on && slot.isNone then .error (badArg "missing" "slot") else .ok (.seal n on slot)
  | "SET" =>
    if as.isEmpty then .error (badArg "missing" "name") else .ok (.set (← setPairs as []))
  | "SPACE" =>
    keysOk as [] ["marks", "girths", "saddle"]
    oneOf as ["marks", "girths"]
    let sad ← sadArg ch as true
    let nz (b : Nat) (l : List Char) : Except String Int := do
      let v ← intIn (-(b : Int)) b l
      if v = 0 then .error "range" else .ok v
    let m ← optArg as "marks" (nz 65535)
    let g ← optArg as "girths" (nz girthMax)
    match m, g with
    | some m, _ => .ok (.space sad (.marks m))
    | _, some g => .ok (.space sad (.girths g))
    | _, _ => .error (badArg "missing" "marks")
  | "SRESET" =>
    keysOk as [] ["saddle", "confirm"]
    .ok (.sreset (← sadArg ch as true))
  | "STATUS" =>
    keysOk as [] ["saddle"]
    .ok (.status (← sadArg ch as false))
  | "SYNC" =>
    keysOk as [] []
    .ok .sync
  | "TEST" =>
    let w ← reqArg as "what" (pick [("DRAM", 0), ("FLASH", 1), ("LOOP", 2), ("PATTERN", 3)])
    keysOk as [] (["what", "pass"] ++ if w = 0 || w = 3 then ["confirm"] else [])
    let p := (← optArg as "pass" (natIn 1 1000)).getD 1
    .ok (match w with
      | 0 => .testDram p
      | 1 => .testFlash p
      | 2 => .testLoop p
      | _ => .testPattern p)
  | "TIME" =>
    keysOk as [] ["t", "text"]
    let t ← optArg as "t" (intIn (-9223372036854775808) 9223372036854775807)
    let x ← optArg as "text" (strIn 0)
    if t.isNone && x.isNone then .error (badArg "missing" "t") else .ok (.time t x)
  | "UNLOAD" =>
    keysOk as [] []
    .ok .unload
  | "UPDATE" =>
    let op ← reqArg as "op" (pick [("BEGIN", 0), ("DATA", 1), ("DMA", 2), ("END", 3), ("CANCEL", 4)])
    keysOk as [] (["op", "confirm"] ++ match op with
      | 0 => ["target", "len"]
      | 1 => ["off", "d"]
      | 2 => ["off", "sg"]
      | _ => [])
    match op with
    | 0 =>
      let t ← reqArg as "target" (pick [("A", Target.a), ("B", .b), ("STAGE1", .stage1)])
      let l ← reqArg as "len" (sizeIn 520 (if t == .stage1 then 262144 else 16777216) 8)
      .ok (.updateBegin t l)
    | 1 =>
      let o ← reqArg as "off" (natIn 0 16777216)
      let d ← reqArg as "d" (elemsIn 1 7 wordIn)
      .ok (.updateData o (d.flatMap fun w => beBytes 8 w.toNat))
    | 2 =>
      let o ← reqArg as "off" (natIn 0 16777216)
      let p ← reqArg as "sg" (elemsIn 1 1 (pairIn 1 16777216))
      .ok (.updateDma o (p.headD (0, 0)).1 (p.headD (0, 0)).2)
    | 3 => .ok .updateEnd
    | _ => .ok .updateCancel
  | "WRITE" => writeArgs bind as
  | _ => .error (.badline, [fld "why" "verb"])

/-- The arguments of a verb (check 6 of R115), the form of `confirm=` among them in either session mode (R111, R120). -/
def verbArgs (ch : Chan) (bind : Binding) (verb : String) (as : List Arg) : Chk Verb := do
  let v ← verbForm ch bind verb as
  let _ ← confirmed as
  .ok v

end Sys2Proof.Machine
end

