-- ==== Sys2Proof/Machine/Filjo.lean ====
section
/-! DEFINITION. The language engine (file 04): reading a line, the checks of R115, and the text of replies
(R126, R127). -/

namespace Sys2Proof.Machine

open Sys2Proof

/-- The channel that a transport's lines go to (R117): none for a control channel of a port bound to no
saddle (R119), and for the ring of a saddle that is not bound to VF (R117). Console lines go to the saddle that `console.seat` names while it is bound to CONSOLE (R75). -/
def chanOf (s : State) : Transport → Option Chan
  | .pf0 => some .adm
  | .vf n => if bindOf s n == .vf then some (.sad n) else none
  | .sp p => (sadOfPort s p).map .sad
  | .console =>
    match sadOfConsole s with
    | some n => if pnat s .consoleSeat == n.val + 1 then some (.sad n) else some .adm
    | none => some .adm

/-- The place of a transport in the round of R121. -/
def Transport.index : Transport → Nat
  | .pf0 => 0
  | .vf n => 1 + n.val
  | .sp p => 9 + p.val
  | .console => 13

/-- A transport's session, for a console or a control channel. -/
def sessionOf (s : State) : Transport → Option Session
  | .console => some s.fil.con
  | .sp p => some s.port[p].ses
  | _ => none

/-- Changes a transport's session. -/
def modSes (s : State) (tr : Transport) (f : Session → Session) : State :=
  match tr with
  | .console => { s with fil := { s.fil with con := f s.fil.con } }
  | .sp p => modPort s p fun x => { x with ses := f x.ses }
  | _ => s

/-- The session mode of a transport (R117). -/
def sesModeOf (s : State) (tr : Transport) : SesMode := ((sessionOf s tr).map (·.mode)).getD .generated

/-- The prompt of a typed session (R117, R119). -/
def promptOf (s : State) (tr : Transport) : String :=
  match chanOf s tr, tr with
  | some .adm, _ => "adm: "
  | some (.sad n), _ => "s" ++ toString n.val ++ ": "
  | none, .sp p => "sp" ++ toString p.val ++ ": "
  | none, _ => "adm: "

/-- CR LF. -/
def crlf : List Byte := [0x0D, 0x0A]

/-- Puts bytes into a session's output buffer. -/
def emit (s : State) (tr : Transport) (b : List Byte) : State :=
  let s := modSes s tr fun x => { x with out := x.out ++ b }
  match tr with
  | .console => { s with out := { s.out with con := s.out.con ++ b } }
  | _ => s

/-! ### Reading a line -/

/-- Where a byte string that ends in a checksum field has its `*`: the bytes before it and its value (R108). In generated mode an HT
stands for the field's space (R106). -/
def sumField (gen : Bool) (l : List Byte) : Option (List Byte × Nat) :=
  let n := l.length
  if n < 6 then none
  else
    let f := l.drop (n - 6)
    let hex := (f.drop 2).map fun b => hexDig (Char.ofNat b.toNat)
    if (f.take 2 == [0x20, 0x2A] || (gen && f.take 2 == [0x09, 0x2A])) && hex.all Option.isSome then
      some (l.take (n - 5), hex.foldl (fun a d => 16 * a + d.getD 0) 0)
    else none

/-- BADLINE with its reason (R130). -/
def badLine (why : String) : Status × List Fld := (.badline, [fld "why" why])

/-- Checks 1 to 3 of R115 and the characters of the line without its checksum field. -/
def lineChars (r : RawLine) : Chk (List Char) := do
  if r.gen && (r.long || 200 < r.bytes.length) then .error (badLine "long") else pure ()
  let body ← match sumField r.gen r.bytes with
    | some (b, v) => if (crc16 b).toNat = v then pure b.dropLast else Except.error (Status.badsum, [])
    | none => if r.gen then Except.error (Status.badsum, [fld "why" "nosum"]) else pure r.bytes
  if r.badChar || body.any (fun b => (b.toNat < 0x20 || 0x7E < b.toNat) && !(r.gen && b == 0x09)) then
    .error (badLine "char")
  else .ok (body.map fun b => if b == 0x09 then ' ' else Char.ofNat b.toNat)

/-- The verbs of the language (R169). -/
def verbNames : List String :=
  ["ABORT", "ACTIVATE", "ARM", "CAL", "CHAN", "CLEAR", "CM", "COMMIT", "CONFIGS", "CONFIRM", "DISCARD", "EVENTS",
   "GET", "HELLO", "INFO", "KEY", "LOAD", "LOCATE", "LOG", "MARK", "MODE", "PLAIT", "QRESET", "READ", "ROLLBACK",
   "SADDLE", "SEAL", "SET", "SPACE", "SRESET", "STATUS", "SYNC", "TEST", "TIME", "UNLOAD", "UPDATE", "WRITE"]

/-- A line's tag, verb and arguments. -/
structure Parsed where
  tag : Option Nat
  verb : String
  args : List Arg
deriving DecidableEq, Repr

/-- The tag element: a first element that begins with a digit (R108-R110). -/
def tagElem (adm : Bool) (t : List Char) : Chk Nat :=
  match tagIn t with
  | .ok v => if adm && 8 ≤ v then .error (badLine "tag") else .ok v
  | .error _ => .error (badLine "tag")

/-- Check 4 of R115: grammar, tag and verb (R108-R110, R112). -/
def lineGrammar (adm : Bool) (l : List Char) : Chk Parsed := do
  if starOutside l false then .error (badLine "syntax") else pure ()
  match tokensFrom l false [] with
  | none => .error (badLine "syntax")
  | some ts =>
    let (tag, ts) ← match ts with
      | t :: r => if (t.head?.map isDig).getD false then (tagElem adm t).map fun v => (some v, r) else pure (none, ts)
      | [] => pure (none, ts)
    match ts with
    | [] => .error (badLine "verb")
    | v :: as =>
      if v.all isLetter && verbNames.contains (upper v) then
        match as.mapM parseArg with
        | some args => .ok { tag := tag, verb := upper v, args := args }
        | none => .error (badLine "syntax")
      else .error (badLine "verb")

/-- The tag against the verb's kind (R122): the verb is immediate, queued, or either. -/
def tagKind (p : Parsed) : Bool :=
  match p.verb with
  | "ABORT" | "QRESET" => p.tag.isNone
  | "HELLO" | "STATUS" | "GET" | "SET" => true
  | _ => p.tag.isSome

/-- Verbs that only the admin channel issues (R169). -/
def admOnly (v : Verb) : Bool :=
  match v with
  | .activate _ | .arm _ | .cal .. | .chanList | .chanOut _ | .chanIn _ | .cmRead _ | .cmRepair | .commit _
  | .confirm .. | .keyPart .. | .keyLoad _ | .keyZero _ | .keyList | .keyKek .. | .load | .logSave | .plaitPut ..
  | .plaitApply | .plaitAuto | .rollback _ | .saddleOpen _ | .saddleClose _ | .seal .. | .testDram _ | .testFlash _
  | .testLoop _ | .testPattern _ | .unload | .updateBegin .. | .updateData .. | .updateDma .. | .updateEnd
  | .updateCancel => true
  | .locate _ (.ds _) => true
  | _ => false

/-- Verbs that only a saddle issues (R169). -/
def sadOnly (v : Verb) : Bool :=
  match v with
  | .mark _ | .read _ | .sync | .write _ => true
  | _ => false

/-- The `saddle=` of a verb (R170). -/
def verbSad (v : Verb) : Option SadNo :=
  match v with
  | .abort _ s | .clear s | .discard s _ | .locate s _ | .qreset s | .space s _ | .sreset s | .status s => s
  | .saddleSet n _ | .saddleOpen n | .saddleClose n | .seal n .. => some n
  | _ => none

/-- Whether a parameter belongs to a saddle's instance under `saddle.n` or `pool.saddle.n` (R76). -/
def sadParam (p : Param) : Bool :=
  let r := pspec p.id
  r.inst == .sad && (r.pre == "saddle." || r.pre == "pool.saddle.")

/-- Whether a saddle may read a parameter (R76). -/
def mayGet (n : SadNo) (p : Param) : Bool := !sadParam p || p.i == n.val

/-- Whether a parameter lies in a saddle's own `saddle.n` (R76). -/
def inScope (n : SadNo) (p : Param) : Bool := (pspec p.id).pre == "saddle." && p.i == n.val

/-- Whether a saddle may set a parameter (R76). -/
def maySet (n : SadNo) (p : Param) : Bool :=
  inScope n p && p.id != .sadBind && p.id != .sadFollow

/-- A name that selects another saddle's instance (R76). -/
def foreignName (n : SadNo) (name : String) : Bool :=
  match segments name with
  | a :: b :: _ =>
    let other (x : List Char) : Bool := match digits 10 x with
      | some v => v < 8 && v != n.val
      | none => false
    (a == "saddle".toList && other b) ||
      (match segments name with
       | a :: b :: c :: _ => a == "pool".toList && b == "saddle".toList && other c
       | _ => false)
  | _ => false

/-- SET's check 7 (R76, R115, R123, R131): the first argument that is out of scope, read-only, or must be queued; channel scope comes
first (R115). -/
def setScope (ch : Chan) (imm : Bool) : List (Param × PVal) → Chk Unit
  | [] => .ok ()
  | (p, _) :: t =>
    let bad (why : String) : Chk Unit := .error (.denied, [fld "why" why, fld "key" (paramName p)])
    if (match ch with
      | .adm => false
      | .sad n => !inScope n p) then bad "scope"
    else if (pspec p.id).modes == .ro then bad "readonly"
    else if (match ch with
      | .adm => false
      | .sad n => !maySet n p) then bad "scope"
    else if imm && (pspec p.id).modes != .all then bad "queued"
    else setScope ch imm t

/-- GET's check 7 (R76). -/
def getScope (ch : Chan) (names : List String) : Chk Unit :=
  match ch with
  | .adm => .ok ()
  | .sad n =>
    match names.find? (foreignName n) with
    | some x => .error (.denied, [fld "why" "scope", fld "key" x])
    | none => .ok ()

/-- The forms that need CONFIRM=yes in typed mode (R120, R169). -/
def needsConfirm (s : State) (v : Verb) : Bool :=
  match v with
  | .discard .. | .qreset _ | .sreset _ | .rollback _ | .updateBegin .. | .updateData .. | .updateDma .. | .updateEnd
  | .updateCancel | .activate _ | .arm _ | .chanOut _ | .chanIn _ | .cmRepair | .keyZero _ | .keyKek ..
  | .testDram _ | .testPattern _ => true
  | .mode _ => s.pw.mode == .halt
  | _ => false

/-- Check 7 of R115: channel scope, transport, read-only parameters and the CONFIRM rule. -/
def lineScope (s : State) (ch : Chan) (tr : Transport) (typed : Bool) (p : Parsed) (v : Verb) : Chk Unit := do
  let sp := match tr with
    | .sp _ => true
    | _ => false
  match v, ch with
  | .abort .., .sad _ => if sp then .error (denied "transport") else pure ()
  | .confirm .., _ => if tr != .console || !typed then .error (denied "transport") else if ch == .adm then pure () else .error (denied "scope")
  | _, .sad _ => if admOnly v then .error (denied "scope") else pure ()
  | _, .adm => if sadOnly v then .error (denied "scope") else pure ()
  sadScope ch (verbSad v)
  match v with
  | .set ps => setScope ch p.tag.isNone ps
  | .get ns => getScope ch ns
  | .hello (some .typed) =>
    match tr with
    | .pf0 | .vf _ => .error (denied "transport")
    | _ => pure ()
  | _ => pure ()
  if typed && needsConfirm s v && !(← confirmed p.args) then .error (denied "confirm") else pure ()

/-- The verbs accepted in HOLD (R152). -/
def holdOk (v : Verb) : Bool :=
  match v with
  | .hello _ | .infoDev | .infoFw | .infoLink | .infoDram | .infoPorts | .status _ | .get _ | .set _ | .configs
  | .events .. | .logText _ | .logSave | .mode _ | .clear _ | .discard .. | .sreset _ | .abort .. | .qreset _ => true
  | _ => false

/-! ### Replies -/

/-- A field as text. -/
def Fld.text (f : Fld) : String := f.k ++ "=" ++ f.v

/-- The parts of a value's comma list, put together again as long as they fit in `room` characters (R127). -/
def joinParts (room : Nat) : List String → String → List String
  | [], cur => [cur]
  | p :: t, cur => if cur.length + 1 + p.length ≤ room then joinParts room t (cur ++ "," ++ p) else cur :: joinParts room t p

/-- A field cut at the commas of its value into pieces that fit in `room` characters (R127). -/
def fldPieces (room : Nat) (f : Fld) : List String :=
  if f.text.length ≤ room then [f.text]
  else
    match (splitAll ',' f.v.toList).map String.ofList with
    | [] => [f.text]
    | p :: t => (joinParts (room - f.k.length - 1) t p).map fun x => f.k ++ "=" ++ x

/-- Fills lines with pieces in order: `room` characters in a line that has `more=`, `last` in the last. -/
def packPieces (room last : Nat) (isLast : Bool) : List String → List String → Nat → List (List String)
  | [], cur, _ => [cur.reverse]
  | t :: ts, cur, used =>
    if isLast && used + sumL ((t :: ts).map fun x => x.length + 1) ≤ last then [cur.reverse ++ t :: ts]
    else if used + t.length + 1 ≤ room || cur.isEmpty then packPieces room last isLast ts (t :: cur) (used + t.length + 1)
    else cur.reverse :: packPieces room last isLast ts [t] (t.length + 1)

/-- The tag field of a reply (R126). -/
def RTag.text : RTag → String
  | .q t => hexStr 2 t
  | .imm => "--"
  | .unsol => "!!"

/-- A line with its checksum (R113, R126). -/
def sumLine (l : String) : String := l ++ "*" ++ hexStr 4 (crc16 (ascii l)).toNat

/-- The lines of a reply, each of at most 120 characters with its checksum, every one but the last with
`more=k` (R126, R127). -/
def renderReply (r : Reply) : List String :=
  let head := r.tag.text ++ " " ++ r.status.word ++ " "
  let base := head.length + 5
  let logical := r.fields :: r.more
  let pack (d : Nat) : List (List String) :=
    let room := 120 - base - (6 + d)
    (logical.zipIdx.map fun (fs, i) =>
      packPieces room (120 - base) (i + 1 == logical.length) (fs.flatMap (fldPieces (room - 1))) [] 0).flatten
  let l1 := pack 1
  let lines := if l1.length ≤ 10 then l1 else
    let l2 := pack 2
    if l2.length ≤ 100 then l2 else
      let l3 := pack 3
      if l3.length ≤ 1000 then l3 else pack 5
  lines.zipIdx.map fun (ts, i) =>
    let k := lines.length - 1 - i
    sumLine (head ++ String.join ((ts ++ if k = 0 then [] else ["more=" ++ toString k]).map (· ++ " ")))

/-- The reply to a rejected line: the tag `--` for BADLINE and BADSUM, and the ring slot (R116); the line's own
tag otherwise. -/
def rejectReply (tr : Transport) (ch : Chan) (tag : Option Nat) (slot : Option Nat) (e : Status × List Fld) : Reply :=
  match e with
  | (.badline, fs) => { tr := tr, ch := ch, tag := .imm, status := .badline, fields := fs ++ (slot.map (fnum "slot")).toList }
  | (.badsum, fs) => { tr := tr, ch := ch, tag := .imm, status := .badsum, fields := fs ++ (slot.map (fnum "slot")).toList }
  | (st, fs) => { tr := tr, ch := ch, tag := (tag.map RTag.q).getD .imm, status := st, fields := fs }

end Sys2Proof.Machine
end

