-- ==== Sys2Proof/Machine/Crypto.lean ====
section
/-! DEFINITION. The ciphers and digest the spec names: AES-256 (FIPS 197), XTS (IEEE Std 1619), key unwrap
(RFC 3394) and SHA-256. -/

namespace Sys2Proof.Machine

open Sys2Proof

/-! ### AES-256 -/

/-- Multiplication by x in GF(2^8). -/
def xtime (a : Byte) : Byte := if a.msb then (a <<< 1) ^^^ 0x1B#8 else a <<< 1

/-- Multiplication in GF(2^8) of AES. -/
def gmul (a b : Byte) : Byte :=
  ((List.range 8).foldl (fun (r : Byte × Byte) i =>
    (if b.getLsbD i then r.1 ^^^ r.2 else r.1, xtime r.2)) (0#8, a)).1

/-- The inverse in GF(2^8), 0 for 0: the 254th power. -/
def ginv (a : Byte) : Byte :=
  let a2 := gmul a a
  let a4 := gmul a2 a2
  let a8 := gmul a4 a4
  let a16 := gmul a8 a8
  let a32 := gmul a16 a16
  let a64 := gmul a32 a32
  let a128 := gmul a64 a64
  gmul a128 (gmul a64 (gmul a32 (gmul a16 (gmul a8 (gmul a4 a2)))))

/-- The S-box. -/
def sbox (a : Byte) : Byte :=
  let i := ginv a
  i ^^^ i.rotateLeft 1 ^^^ i.rotateLeft 2 ^^^ i.rotateLeft 3 ^^^ i.rotateLeft 4 ^^^ 0x63#8

/-- The inverse S-box. -/
def sboxInv (a : Byte) : Byte := ginv (a.rotateLeft 1 ^^^ a.rotateLeft 3 ^^^ a.rotateLeft 6 ^^^ 0x05#8)

/-- Bytewise exclusive or. -/
def xorB (a b : List Byte) : List Byte := List.zipWith (· ^^^ ·) a b

/-- The words of the AES-256 key schedule from word `i` on, newest first in `w`. -/
def keyWords : Nat → Nat → Byte → List (List Byte) → List (List Byte)
  | 0, _, _, w => w
  | k + 1, i, rc, w =>
    let prev := w.headD []
    let t := if i % 8 = 0 then
        let r := (prev.drop 1 ++ prev.take 1).map sbox
        xorB r [rc, 0, 0, 0]
      else if i % 8 = 4 then prev.map sbox
      else prev
    let n := xorB (w.getD 7 []) t
    keyWords k (i + 1) (if i % 8 = 0 then xtime rc else rc) (n :: w)

/-- The fifteen round keys of a 32-byte key. -/
def roundKeys (key : List Byte) : List (List Byte) :=
  let w := (keyWords 52 8 1#8 (parts 4 key).reverse).reverse
  (List.range 15).map fun r => ((w.drop (4 * r)).take 4).flatten

/-- A permutation of a block's bytes. -/
def permB (f : Nat → Nat) (b : List Byte) : List Byte := (List.range 16).map fun i => b.getD (f i) 0

/-- A column map over the block. -/
def mixWith (m : List Byte) (b : List Byte) : List Byte :=
  (parts 4 b).flatMap fun c => (List.range 4).map fun r =>
    (List.range 4).foldl (fun a i => a ^^^ gmul (m.getD ((i + 4 - r) % 4) 0) (c.getD i 0)) 0#8

/-- One block under AES-256. -/
def aesEnc (key b : List Byte) : List Byte :=
  let ks := roundKeys key
  let sub (x : List Byte) : List Byte := permB (fun i => (i + 4 * (i % 4)) % 16) (x.map sbox)
  let mid := (ks.drop 1).take 13
  let x := mid.foldl (fun x k => xorB (mixWith [2, 3, 1, 1] (sub x)) k) (xorB b (ks.getD 0 []))
  xorB (sub x) (ks.getD 14 [])

/-- The inverse of one block under AES-256. -/
def aesDec (key b : List Byte) : List Byte :=
  let ks := (roundKeys key).reverse
  let sub (x : List Byte) : List Byte := (permB (fun i => (i + 12 * (i % 4)) % 16) x).map sboxInv
  let mid := (ks.drop 1).take 13
  let x := mid.foldl (fun x k => mixWith [14, 11, 13, 9] (xorB (sub x) k)) (xorB b (ks.getD 0 []))
  xorB (sub x) (ks.getD 14 [])

/-- The next tweak of XTS: the little-endian block times x. -/
def xtsNext (t : List Byte) : List Byte :=
  let v := leVal t
  let d := 2 * v
  leBytes 16 (if 2 ^ 127 ≤ v then (d - 2 ^ 128) ^^^ 0x87 else d)

/-- XTS over whole blocks with a running tweak (IEEE Std 1619); `f` is the block cipher under the data key. -/
def xtsBlocks (f : List Byte → List Byte) : List (List Byte) → List Byte → List Byte
  | [], _ => []
  | b :: t, tw => xorB (f (xorB b tw)) tw ++ xtsBlocks f t (xtsNext tw)

/-- Encrypts a data unit under a 64-byte key pair and a tweak value (R254). -/
def xtsEnc (pair : List Byte) (tweak : Nat) (d : List Byte) : List Byte :=
  xtsBlocks (aesEnc (pair.take 32)) (parts 16 d) (aesEnc (pair.drop 32) (leBytes 16 tweak))

/-- Decrypts a data unit (R254, R257). -/
def xtsDec (pair : List Byte) (tweak : Nat) (d : List Byte) : List Byte :=
  xtsBlocks (aesDec (pair.take 32)) (parts 16 d) (aesEnc (pair.drop 32) (leBytes 16 tweak))

/-- One unwrap step of RFC 3394: the register A and the words R. -/
def unwrapStep (kek : List Byte) (n : Nat) (st : List Byte × List (List Byte)) (t : Nat) :
    List Byte × List (List Byte) :=
  let i := (t - 1) % n
  let b := aesDec kek (xorB st.1 (beBytes 8 t) ++ st.2.getD i [])
  (b.take 8, st.2.set i (b.drop 8))

/-- Unwraps 8(n+1) bytes under the KEK; none when the integrity check fails (RFC 3394, R185). -/
def unwrap (kek w : List Byte) : Option (List Byte) :=
  let ws := parts 8 w
  let n := ws.length - 1
  let (a, r) := ((List.range (6 * n)).map fun k => 6 * n - k).foldl (unwrapStep kek n) (ws.headD [], ws.drop 1)
  if a = List.replicate 8 0xA6#8 then some r.flatten else none

/-- The key check value: 3 bytes of the all-zero block under the data key (R185). -/
def kcv (pair : List Byte) : String := hexStr 6 (beVal ((aesEnc (pair.take 32) (List.replicate 16 0)).take 3))

/-! ### SHA-256 -/

/-- The round constants (FIPS 180-4). -/
def shaK : List W32 :=
  [0x428A2F98#32, 0x71374491#32, 0xB5C0FBCF#32, 0xE9B5DBA5#32, 0x3956C25B#32, 0x59F111F1#32, 0x923F82A4#32, 0xAB1C5ED5#32] ++
  [0xD807AA98#32, 0x12835B01#32, 0x243185BE#32, 0x550C7DC3#32, 0x72BE5D74#32, 0x80DEB1FE#32, 0x9BDC06A7#32, 0xC19BF174#32] ++
  [0xE49B69C1#32, 0xEFBE4786#32, 0x0FC19DC6#32, 0x240CA1CC#32, 0x2DE92C6F#32, 0x4A7484AA#32, 0x5CB0A9DC#32, 0x76F988DA#32] ++
  [0x983E5152#32, 0xA831C66D#32, 0xB00327C8#32, 0xBF597FC7#32, 0xC6E00BF3#32, 0xD5A79147#32, 0x06CA6351#32, 0x14292967#32] ++
  [0x27B70A85#32, 0x2E1B2138#32, 0x4D2C6DFC#32, 0x53380D13#32, 0x650A7354#32, 0x766A0ABB#32, 0x81C2C92E#32, 0x92722C85#32] ++
  [0xA2BFE8A1#32, 0xA81A664B#32, 0xC24B8B70#32, 0xC76C51A3#32, 0xD192E819#32, 0xD6990624#32, 0xF40E3585#32, 0x106AA070#32] ++
  [0x19A4C116#32, 0x1E376C08#32, 0x2748774C#32, 0x34B0BCB5#32, 0x391C0CB3#32, 0x4ED8AA4A#32, 0x5B9CCA4F#32, 0x682E6FF3#32] ++
  [0x748F82EE#32, 0x78A5636F#32, 0x84C87814#32, 0x8CC70208#32, 0x90BEFFFA#32, 0xA4506CEB#32, 0xBEF9A3F7#32, 0xC67178F2#32]

/-- The initial hash value. -/
def shaH : List W32 := [0x6A09E667#32, 0xBB67AE85#32, 0x3C6EF372#32, 0xA54FF53A#32, 0x510E527F#32, 0x9B05688C#32, 0x1F83D9AB#32, 0x5BE0CD19#32]

/-- The message schedule, newest word first. -/
def shaSched : Nat → List W32 → List W32
  | 0, w => w
  | k + 1, w =>
    let a := w.getD 14 0
    let b := w.getD 1 0
    let s0 := a.rotateRight 7 ^^^ a.rotateRight 18 ^^^ (a >>> 3)
    let s1 := b.rotateRight 17 ^^^ b.rotateRight 19 ^^^ (b >>> 10)
    shaSched k ((w.getD 15 0 + s0 + w.getD 6 0 + s1) :: w)

/-- One round. -/
def shaRound (v : List W32) (kw : W32 × W32) : List W32 :=
  match v with
  | [a, b, c, d, e, f, g, h] =>
    let s1 := e.rotateRight 6 ^^^ e.rotateRight 11 ^^^ e.rotateRight 25
    let ch := (e &&& f) ^^^ (~~~e &&& g)
    let t1 := h + s1 + ch + kw.1 + kw.2
    let s0 := a.rotateRight 2 ^^^ a.rotateRight 13 ^^^ a.rotateRight 22
    let mj := (a &&& b) ^^^ (a &&& c) ^^^ (b &&& c)
    [t1 + s0 + mj, a, b, c, d + t1, e, f, g]
  | v => v

/-- One block of 64 bytes. -/
def shaBlock (h : List W32) (b : List Byte) : List W32 :=
  let w := (shaSched 48 ((parts 4 b).map fun x => BitVec.ofNat 32 (beVal x)).reverse).reverse
  List.zipWith (· + ·) h ((List.zip shaK w).foldl shaRound h)

/-- SHA-256 of a byte string (FIPS 180-4). -/
def sha256 (m : List Byte) : List Byte :=
  let z := (119 - m.length % 64) % 64
  let p := m ++ [0x80#8] ++ List.replicate z 0 ++ beBytes 8 (8 * m.length)
  ((parts 64 p).foldl shaBlock shaH).flatMap fun x => beBytes 4 x.toNat

end Sys2Proof.Machine
end

