-- ==== Sys2Proof/Machine/Coder.lean ====
section
/-! DEFINITION. The girth coder and sealing of a girth (file 08): sizes, headers, prediction, residual codes,
loss, decoding and its checks. -/

namespace Sys2Proof.Machine

open Sys2Proof

/-- Sample width in bits (R232). -/
def fmtBits : Fmt → Nat
  | .none => 8
  | .s16 => 16
  | .s24 => 24
  | .s32 => 32

/-- FMT's code (R239). -/
def fmtCode : Fmt → Nat
  | .none => 0
  | .s16 => 1
  | .s24 => 2
  | .s32 => 3

/-- The format of a code. -/
def fmtOfCode : Nat → Fmt
  | 1 => .s16
  | 2 => .s24
  | 3 => .s32
  | _ => .none

/-- The frame size f in bytes (R232). -/
def frameBytes (f : Fmt) (lanes : Nat) : Nat :=
  match f with
  | .none => 1
  | _ => lanes * fmtBits f / 8

/-- A saddle's full block F (R232). -/
def fullBlock (f : Fmt) (lanes : Nat) : Nat := 4096 / frameBytes f lanes * frameBytes f lanes

/-- Rows of a girth (R233). -/
def rowsOf : Nat → Nat
  | 0 => 8
  | 1 => 6
  | 2 => 4
  | 3 => 3
  | _ => 2

/-- Girths of one saddle per data set (R82). -/
def girthsPerDs : Nat → Nat
  | 0 => 728
  | 1 => 952
  | 2 => 1456
  | 3 => 1904
  | _ => 2912

/-- The body size of a ratio code (R233). -/
def bodySize (ratio : Nat) : Nat := if ratio = 0 then 4096 else 512 * rowsOf ratio - 16

/-- Whether a policy, format and ratio code combine (R236). -/
def comboOk (p : Policy) (f : Fmt) (ratio : Nat) : Bool :=
  match p, f with
  | .pass, _ => ratio == 0
  | .bound, .s16 => 1 ≤ ratio && ratio ≤ 4
  | .bound, .s24 => ratio == 1 || ratio == 2
  | .bound, .s32 => ratio == 1
  | .bound, .none => false
  | .fit, .none => false
  | .fit, _ => 1 ≤ ratio && ratio ≤ 4

/-! ### Headers -/

/-- KIND's code (R239). -/
def kindCode : GKind → Nat
  | .data => 0
  | .mark => 1
  | .time => 2
  | .fill => 3

/-- The COUNT field (R239). -/
def countField (g : Girth) : Nat :=
  match g.kind with
  | .data => if g.fmt == .none then g.content.length - 1 else g.content.length / (fmtBits g.fmt / 8) - 1
  | .fill => 512 * g.rows - 1
  | _ => g.content.length - 1

/-- The LOSS field: sub-block 0 in the high nibble (R239). -/
def lossField (l : List Nat) : Nat := (List.range 8).foldl (fun a j => a * 16 + l.getD j 0) 0

/-- The 16-byte header (R239). -/
def headerBytes (g : Girth) : List Byte :=
  let b0 := 128 + 16 * g.sad.val + 2 * g.ratio + g.isSealed.toNat
  let b1 := 64 * fmtCode g.fmt + 8 * (g.lanes - 1) + 2 * kindCode g.kind + g.recEnd.toNat
  let c := countField g % 4096
  let r := g.recOff % 4096
  let h := beBytes 1 b0 ++ beBytes 1 b1 ++ beBytes 5 g.seq ++ beBytes 4 (lossField g.loss) ++ beBytes 3 (c * 4096 + r)
  h ++ beBytes 2 (crc16 h).toNat

/-- A header's fields as read. -/
structure Header where
  sad : SadNo
  ratio : Nat
  isSealed : Bool
  fmt : Fmt
  lanes : Nat
  kind : GKind
  recEnd : Bool
  seq : Nat
  loss : List Nat
  count : Nat
  recOff : Nat
deriving DecidableEq, Repr, Inhabited

/-- A girth header passes its CRC (R239). -/
def headerCrc (h : List Byte) : Bool := h.length = 16 && (crc16 (h.take 14)).toNat = beVal (h.drop 14)

/-- A valid header (R240). -/
def parseHeader (h : List Byte) : Option Header :=
  if h.length ≠ 16 then none
  else
    let b0 := (h.getD 0 0).toNat
    let b1 := (h.getD 1 0).toNat
    let ratio := b0 / 2 % 8
    if b0 < 128 || 4 < ratio || (crc16 (h.take 14)).toNat ≠ beVal (h.drop 14) then none
    else some {
      sad := ⟨b0 / 16 % 8, by omega⟩
      ratio := ratio
      isSealed := b0 % 2 = 1
      fmt := fmtOfCode (b1 / 64)
      lanes := b1 / 8 % 8 + 1
      kind := match b1 / 2 % 4 with
        | 0 => .data
        | 1 => .mark
        | 2 => .time
        | _ => .fill
      recEnd := b1 % 2 = 1
      seq := beField h 2 5
      loss := (List.range 8).map fun j => beField h 7 4 / 16 ^ (7 - j) % 16
      count := beField h 11 3 / 4096
      recOff := beField h 11 3 % 4096 }

/-! ### Residual coding -/

/-- Clamps to a format's range. -/
def clampW (w : Nat) (v : Int) : Int := max (-(2 ^ (w - 1) : Int)) (min v (2 ^ (w - 1) - 1))

/-- The prediction of order `o` from the reconstructed samples of a lane, newest first (R241). -/
def predict (w o : Nat) (h : List Int) : Int :=
  let a := h.getD 0 0
  let b := h.getD 1 0
  let c := h.getD 2 0
  clampW w (match o with
    | 0 => 0
    | 1 => a
    | 2 => 2 * a - b
    | _ => 3 * a - 3 * b + c)

/-- The quantised residual (R242). -/
def quantise (k : Nat) (e : Int) : Int := (e + (if k = 0 then 0 else (2 ^ (k - 1) : Int))) / (2 ^ k : Int)

/-- The reconstruction (R242). -/
def rebuild (w k : Nat) (pred q : Int) : Int := clampW w (pred + q * 2 ^ k)

/-- Codes samples at an order and loss shift: the q values in order and the samples rebuilt, newest first. -/
def residuals (w k o : Nat) : List Int → List Int → List Int × List Int
  | [], h => ([], h)
  | x :: t, h =>
    let p := predict w o h
    let q := quantise k (x - p)
    let (qs, h') := residuals w k o t ((rebuild w k p q :: h).take 3)
    (q :: qs, h')

/-- The unsigned form of q (R244). -/
def zig (q : Int) : Nat := if 0 ≤ q then (2 * q).toNat else (-2 * q - 1).toNat

/-- The signed form of u. -/
def zag (u : Nat) : Int := if u % 2 = 0 then (u / 2 : Nat) else -((u + 1) / 2 : Nat)

/-- Bits of a Rice code (R244). -/
def riceLen (w k p u : Nat) : Nat := if u / 2 ^ p < 32 then u / 2 ^ p + 1 + p else 32 + (w - k + 2)

/-- A Rice code (R244). -/
def riceBits (w k p u : Nat) : List Bool :=
  if u / 2 ^ p < 32 then List.replicate (u / 2 ^ p) true ++ [false] ++ natBits p u
  else List.replicate 32 true ++ natBits (w - k + 2) u

/-- The smallest width in which every q fits as two's complement, at most 32 (R244). -/
def fixedWidth (qs : List Int) : Option Nat :=
  (rangeFrom 1 33).find? fun b => qs.all fun q => decide (-(2 ^ (b - 1) : Int) ≤ q ∧ q < 2 ^ (b - 1))

/-- One choice of order, mode and parameter: bits used, order, mode (0 Rice, 1 fixed) and PARAM. -/
structure Choice where
  bits : Nat
  order : Nat
  fixed : Bool
  param : Nat
deriving DecidableEq, Repr, Inhabited

/-- The earlier of two choices unless the later takes fewer bits (R245). -/
def better (a b : Choice) : Choice := if b.bits < a.bits then b else a

/-- The best choice of an order (R245). -/
def bestOf (w k o : Nat) (qs : List Int) : Choice :=
  let us := qs.map zig
  let rice (p : Nat) : Choice := ⟨sumL (us.map (riceLen w k p)), o, false, p⟩
  let r := (rangeFrom 1 32).foldl (fun b p => better b (rice p)) (rice 0)
  match fixedWidth qs with
  | some b => better r ⟨qs.length * b, o, true, b - 1⟩
  | none => r

/-- The bits of one lane of one sub-block and the history after it (R243, R245). -/
def codeLane (w k : Nat) (xs h : List Int) : List Bool × List Int :=
  let opt := (List.range 4).map fun o => (residuals w k o xs h, o)
  let cands := opt.map fun ((qs, h'), o) => (bestOf w k o qs, qs, h')
  match cands with
  | [] => ([], h)
  | c :: cs =>
    let (b, qs, h') := cs.foldl (fun a d => if d.1.bits < a.1.bits then d else a) c
    let codes := qs.flatMap fun q =>
      if b.fixed then natBits (b.param + 1) (twos (b.param + 1) q) else riceBits w k b.param (zig q)
    (natBits 2 b.order ++ [b.fixed] ++ natBits 5 b.param ++ codes, h')

/-- The samples of a block, little-endian, in stream order (R237). -/
def samplesOf (f : Fmt) (d : List Byte) : List Int :=
  (parts (fmtBits f / 8) d).map fun x => signed (fmtBits f) (leVal x)

/-- The frames of sub-block j: frames whose first byte lies at offsets 512 j to 512 j + 511 (R243). -/
def subFrames (fb frames j : Nat) : List Nat := (List.range frames).filter fun i => i * fb / 512 = j

/-- The samples of lane l in sub-block j. -/
def laneSamples (f : Fmt) (lanes : Nat) (xs : List Int) (j l : Nat) : List Int :=
  (subFrames (frameBytes f lanes) (xs.length / lanes) j).map fun i => xs.getD (i * lanes + l) 0

/-- The bits of sub-block j for every lane, and the histories after it. -/
def codeSub (f : Fmt) (lanes : Nat) (xs : List Int) (k j : Nat) (hs : List (List Int)) :
    List Bool × List (List Int) :=
  let r := (List.range lanes).map fun l =>
    let ys := laneSamples f lanes xs j l
    if ys.isEmpty then ([], hs.getD l []) else codeLane (fmtBits f) k ys (hs.getD l [])
  (r.flatMap (·.1), r.map (·.2))

/-- The bits of every sub-block at the given loss shifts (R243). -/
def codeBlock (f : Fmt) (lanes : Nat) (xs : List Int) (ks : List Nat) : List (List Bool) :=
  ((List.range 8).foldl (fun (acc : List (List Bool) × List (List Int)) j =>
    let (b, h) := codeSub f lanes xs (ks.getD j 0) j acc.2
    (acc.1 ++ [b], h)) ([], List.replicate lanes [])).1

/-- The sub-block with the largest cost among those whose shift is below 15, the lowest on a tie (R245). -/
def costliest (cost ks : List Nat) : Nat :=
  ((List.range 8).foldl (fun (b : Option Nat) j =>
    if ks.getD j 0 < 15 then
      match b with
      | none => some j
      | some i => if cost.getD i 0 < cost.getD j 0 then some j else some i
    else b) none).getD 0

/-- The BOUND loop (R245): the loss shifts and the body's bits. -/
def boundLoop (f : Fmt) (lanes : Nat) (xs : List Int) (room : Nat) : Nat → List Nat → List Nat × List Bool
  | 0, ks => (ks, (codeBlock f lanes xs ks).flatten)
  | n + 1, ks =>
    let subs := codeBlock f lanes xs ks
    let cost := subs.map List.length
    if sumL cost ≤ room then (ks, subs.flatten)
    else
      let j := costliest cost ks
      boundLoop f lanes xs room n (ks.set j (ks.getD j 0 + 1))

/-- The body of a girth of content bytes that is not coded: content padded with 0x00. -/
def plainBody (ratio : Nat) (d : List Byte) : List Byte := padTo (bodySize ratio) 0 d

/-- Codes a girth under its saddle's policy (R238). -/
def codeGirth (p : Policy) (g : Girth) : Girth :=
  match g.kind with
  | .data =>
    match p with
    | .pass => { g with ratio := 0, rows := 8, body := plainBody 0 g.content, loss := List.replicate 8 0, coded := true }
    | .bound =>
      let (ks, bits) := boundLoop g.fmt g.lanes (samplesOf g.fmt g.content) (8 * bodySize g.ratio) 120 (List.replicate 8 0)
      { g with rows := rowsOf g.ratio, body := padTo (bodySize g.ratio) 0 (bitsBytes bits), loss := ks, coded := true }
    | .fit =>
      let bits := (codeBlock g.fmt g.lanes (samplesOf g.fmt g.content) (List.replicate 8 0)).flatten
      if bits.length ≤ 8 * bodySize g.ratio then
        { g with rows := rowsOf g.ratio, body := padTo (bodySize g.ratio) 0 (bitsBytes bits),
                 loss := List.replicate 8 0, coded := true }
      else { g with ratio := 0, rows := 8, body := plainBody 0 g.content, loss := List.replicate 8 0, coded := true }
  | _ => { g with rows := rowsOf g.ratio, body := plainBody g.ratio g.content, loss := List.replicate 8 0, coded := true }

/-- A FILL girth over some rows (R233, R234, R240). -/
def fillGirth (sad : SadNo) (seq rows : Nat) : Girth :=
  { sad := sad, seq := seq, kind := .fill, ratio := 0, rows := rows, body := List.replicate (512 * rows - 16) 0,
    loss := List.replicate 8 0, coded := true }

/-- MARK's content (R250). -/
def markContent (note : String) : List Byte := beBytes 1 note.length ++ ascii note

/-- TIME's content (R250). -/
def timeContent (t : Int) (ptc : Nat) (sid : W64) (text : String) : List Byte :=
  beBytes 8 (twos 64 t) ++ beBytes 8 ptc ++ beBytes 8 sid.toNat ++ beBytes 1 text.length ++ ascii text

/-- The tweak of a sealed girth (R254). -/
def tweakOf (sad : SadNo) (seq : Nat) : Nat := sad.val * 2 ^ 40 + seq

/-- Seals a coded girth's body (R253, R254). -/
def sealGirth (pair : List Byte) (g : Girth) : Girth :=
  match g.kind with
  | .fill => g
  | _ => { g with body := xtsEnc pair (tweakOf g.sad g.seq) g.body, isSealed := true }

/-! ### Decoding -/

/-- Leading one-bits, at most 32, and the bits after them. -/
def unary : Nat → List Bool → Option (Nat × List Bool)
  | 0, l => some (0, l)
  | _ + 1, [] => none
  | n + 1, b :: t => if b then (unary n t).map fun (c, r) => (c + 1, r) else some (0, b :: t)

/-- The value of the next `n` bits. -/
def takeBits (n : Nat) (l : List Bool) : Option (Nat × List Bool) :=
  if l.length < n then none else some (bitsVal (l.take n), l.drop n)

/-- One Rice code (R244); none past the end of the body or for an escape above its bound (R251). -/
def readRice (w k p : Nat) (l : List Bool) : Option (Int × List Bool) := do
  let (c, r) ← unary 32 l
  if c < 32 then
    match r with
    | false :: r =>
      let (v, r) ← takeBits p r
      some (zag (c * 2 ^ p + v), r)
    | _ => none
  else
    let (u, r) ← takeBits (w - k + 2) r
    if 2 ^ (w - k + 1) < u then none else some (zag u, r)

/-- The q values of one lane of a sub-block. -/
def readQs (w k : Nat) (fixed : Bool) (param : Nat) : Nat → List Bool → Option (List Int × List Bool)
  | 0, l => some ([], l)
  | n + 1, l => do
    let (q, r) ← if fixed then (takeBits (param + 1) l).map fun (v, r) => (signed (param + 1) v, r)
      else readRice w k param l
    let (qs, r) ← readQs w k fixed param n r
    some (q :: qs, r)

/-- Rebuilds samples from q values, newest first in the history. -/
def unquant (w k o : Nat) : List Int → List Int → List Int × List Int
  | [], h => ([], h)
  | q :: t, h =>
    let x := rebuild w k (predict w o h) q
    let (xs, h') := unquant w k o t ((x :: h).take 3)
    (x :: xs, h')

/-- Decodes one lane of a sub-block. -/
def readLane (w k n : Nat) (h : List Int) (l : List Bool) : Option (List Int × List Int × List Bool) := do
  let (o, r) ← takeBits 2 l
  let (m, r) ← takeBits 1 r
  let (p, r) ← takeBits 5 r
  if m = 1 && w - k + 2 < p + 1 then none else pure ()
  let (qs, r) ← readQs w k (m == 1) p n r
  let (xs, h') := unquant w k o qs h
  some (xs, h', r)

/-- Decodes the lanes of a sub-block of `n` frames: the samples of each lane. -/
def readLanes (w k n : Nat) : List (List Int) → List Bool → Option (List (List Int) × List (List Int) × List Bool)
  | [], l => some ([], [], l)
  | h :: hs, l => do
    let (xs, h', r) ← readLane w k n h l
    let (ys, hs', r) ← readLanes w k n hs r
    some (xs :: ys, h' :: hs', r)

/-- Decodes a coded body of `frames` frames: samples in stream order. -/
def readBody (f : Fmt) (lanes frames : Nat) (loss : List Nat) : List Nat → List (List Int) → List Bool → Option (List Int)
  | [], _, _ => some []
  | j :: js, hs, l =>
    let n := (subFrames (frameBytes f lanes) frames j).length
    if n = 0 then readBody f lanes frames loss js hs l
    else do
      let (xs, hs', r) ← readLanes (fmtBits f) (loss.getD j 0) n hs l
      let here := (List.range n).flatMap fun i => xs.map fun lane => lane.getD i 0
      (readBody f lanes frames loss js hs' r).map (here ++ ·)

/-- Samples as little-endian bytes (R237). -/
def sampleBytes (f : Fmt) (xs : List Int) : List Byte := xs.flatMap fun x => leBytes (fmtBits f / 8) (twos (fmtBits f) x)

/-- The bytes that COUNT implies (R239, R252); MARK, TIME and FILL deliver none (R250). -/
def impliedBytes (h : Header) : Nat :=
  match h.kind with
  | .data => if h.fmt == .none then h.count + 1 else (h.count + 1) * (fmtBits h.fmt / 8)
  | _ => 0

/-- The malformed conditions that the header alone shows (R251). -/
def headerMalformed (h : Header) (rows : Nat) : Bool :=
  (h.kind != .fill && rowsOf h.ratio != rows) ||
  (h.fmt == .none && 1 ≤ h.ratio) ||
  (h.kind == .data && h.fmt != .none &&
    ((h.count + 1) % h.lanes ≠ 0 || 4096 / frameBytes h.fmt h.lanes < (h.count + 1) / h.lanes)) ||
  (h.kind == .data && h.fmt == .none && 4096 < h.count + 1)

/-- Decodes a girth of valid header and clear body: its bytes, or none when it is malformed (R251). -/
def decodeGirth (h : Header) (rows : Nat) (body : List Byte) : Option (List Byte) :=
  if headerMalformed h rows then none
  else
    match h.kind with
    | .data =>
      if h.ratio = 0 then some (body.take (impliedBytes h))
      else
        (readBody h.fmt h.lanes ((h.count + 1) / h.lanes) h.loss (List.range 8) (List.replicate h.lanes [])
          (body.flatMap byteBits)).map (sampleBytes h.fmt)
    | _ => some []

end Sys2Proof.Machine
end

