-- ==== Sys2Proof/Machine/Share.lean ====
section
/-! DEFINITION. Budgets and their division (R19-R21, R91). -/

namespace Sys2Proof.Machine

open Sys2Proof

/-- A per-tick budget at the tick period in force, rounded down to a whole unit (R19). -/
def budget (s : State) (perTick : Nat) : Nat := perTick * s.tk.periodNs / 100000

/-- The weight of a saddle within its class (R91). -/
def weightOf (s : State) (n : SadNo) : Nat :=
  match classOf s n with
  | .rate => max 1 s.sad[n].admitted
  | .share => pnat s .sadWeight n.val
  | .idle => 1

/-- The participant with the highest credit after each has added its weight, the lowest number on a tie, from
entries (saddle, credit) in rising order (R91). -/
def topCredit : List (SadNo × Int) → Option SadNo
  | [] => none
  | (n, c) :: t =>
    match topCredit t with
    | none => some n
    | some m => if (look m t).getD 0 > c then some m else some n

/-- One pick of smooth weighted round robin over the eligible participants, in rising order, with their
weights and credits: the winner and every participant's new credit (R91). -/
def swrr (el : List (SadNo × Nat × Int)) : Option (SadNo × List (SadNo × Int)) :=
  let grown := el.map fun (n, w, c) => (n, c + (w : Int))
  let total : Int := (sumL (el.map fun (_, w, _) => w) : Nat)
  (topCredit grown).map fun m => (m, grown.map fun (n, c) => (n, if n = m then c - total else c))

/-- The engines that keep a credit per saddle (R91). -/
abbrev engPool : Fin 8 := 1

/-- The girth coder's credits. -/
abbrev engCoder : Fin 8 := 2

/-- The sealing engine's credits. -/
abbrev engSeal : Fin 8 := 3

/-- One pick for an engine among saddles of one class (R91). -/
def pickFor (s : State) (eng : Fin 8) (elig : List SadNo) : Option (SadNo × State) :=
  (swrr (elig.map fun n => (n, weightOf s n, s.sad[n].credits[eng]))).map fun (m, cs) =>
    (m, cs.foldl (fun s (n, c) => modSad s n fun x => { x with credits := x.credits.set eng.val c eng.isLt }) s)

/-- One pick for an engine: RATE saddles first, then SHARE, then IDLE (R21, R91). -/
def pickEngine (s : State) (eng : Fin 8) (elig : List SadNo) : Option (SadNo × State) :=
  let of (c : QosClass) := elig.filter fun n => classOf s n == c
  match pickFor s eng (of .rate) with
  | some r => some r
  | none =>
    match pickFor s eng (of .share) with
    | some r => some r
    | none => pickFor s eng (of .idle)

end Sys2Proof.Machine
end

