-- ==== Sys2Proof/Machine/Format.lean ====
section
/-! DEFINITION. The Vogor V2 format (file 09): geometry, rows and their codes, sub data sets and data sets,
channel frames, leaders, trailers, track identities, the plait block, and where data sets lie. -/

namespace Sys2Proof.Machine

open Sys2Proof

/-! ### Geometry (R259-R261, R286, R288, R289) -/

/-- The data band of a wrap (R260). -/
def bandOfWrap (w : Nat) : Nat := w / 48

/-- The track slot of a wrap (R260). -/
def slotOfWrap (w : Nat) : Nat := w % 48

/-- A wrap runs in reverse when its slot is odd (R260). -/
def wrapRev (w : Nat) : Bool := w % 2 == 1

/-- Channel bits of a frame with Q rewrite slots (R275). -/
def frameLen (q : Nat) : Nat := 600446 + 4982 * q

/-- The largest frame (R286, R289). -/
def frameMax : Nat := frameLen 12

/-- A length in channel bits, in thirds of a nanometre (R289): one bit is 127/3 nm. -/
def bitsNm3 (b : Nat) : Nat := 127 * b

/-- The data zone's length and the end margin, in thirds of a nanometre (R261, R286). -/
def zoneNm3 : Nat := 3000000000000

/-- 40 mm. -/
def marginNm3 : Nat := 120000000

/-- A data set may start after `x` channel bits of a wrap (R286). -/
def frameFits (x : Nat) : Bool := bitsNm3 (x + frameMax) + marginNm3 ≤ zoneNm3

/-- Data sets of a wrap without rewrites (R286). -/
def dsPerWrap : Nat := 39339

/-- Data sets of a cartridge (R289). -/
def dsPerCart : Nat := 7553088

/-- Position m in mm of a point `x` channel bits along a wrap (R288). -/
def mmOf (w x : Nat) : Nat :=
  let d := bitsNm3 x / 3000000
  if wrapRev w then 1000000 - d else d

/-- The estimate of x for the i-th data set of a wrap (R288). -/
def estBits (i : Nat) : Nat := i * frameLen 0

/-! ### Galois field of C2 and C3 (R271) -/

/-- Multiplication by α. -/
def gfX (a : Byte) : Byte := if a.msb then (a <<< 1) ^^^ 0x1D#8 else a <<< 1

/-- Multiplication over GF(2^8) with x^8 + x^4 + x^3 + x^2 + 1. -/
def gfMul (a b : Byte) : Byte :=
  ((List.range 8).foldl (fun (acc : Byte × Byte) i =>
    (if b.getLsbD i then acc.1 ^^^ acc.2 else acc.1, gfX acc.2)) (0, a)).1

/-- A power of an element. -/
def gfPow (a : Byte) : Nat → Byte
  | 0 => 1
  | n + 1 => gfMul a (gfPow a n)

/-- α to a power, exponents modulo 255. -/
def alpha (n : Nat) : Byte := gfPow 2 (n % 255)

/-- The inverse: a^254. -/
def gfInv (a : Byte) : Byte :=
  let s (x : Byte) := gfMul x x
  let a2 := s a
  let a3 := gfMul a2 a
  let a6 := s a3
  let a7 := gfMul a6 a
  let a14 := s a7
  let a15 := gfMul a14 a
  let a30 := s a15
  let a31 := gfMul a30 a
  let a62 := s a31
  let a63 := gfMul a62 a
  let a126 := s a63
  let a127 := gfMul a126 a
  s a127

/-- Multiplies a polynomial, highest degree first, by (x + r). -/
def polyRoot (p : List Byte) (r : Byte) : List Byte :=
  List.zipWith (· ^^^ ·) (p ++ [0]) ((0 : Byte) :: p.map (gfMul r))

/-- The generator of `n` parity bytes: the product of (x + α^i), i = 0 to n - 1 (R271, R272). -/
def rsGen (n : Nat) : List Byte := (List.range n).foldl (fun p i => polyRoot p (alpha i)) [1]

/-- One step of the systematic encoder: the remainder register after one data byte. -/
def rsStep (g : List Byte) (reg : List Byte) (b : Byte) : List Byte :=
  let f := b ^^^ reg.headD 0
  List.zipWith (· ^^^ ·) (reg.drop 1 ++ [0]) (g.map (gfMul f))

/-- The parity bytes of data bytes, first byte highest (R271, R272). -/
def rsParity (n : Nat) (d : List Byte) : List Byte :=
  let g := (rsGen n).drop 1
  d.foldl (rsStep g) (List.replicate n 0)

/-- The value of a word, first byte highest, at a point. -/
def polyAt (c : List Byte) (x : Byte) : Byte := c.foldl (fun a b => gfMul a x ^^^ b) 0

/-- The syndromes of a word: its values at α^0 to α^(n-1). -/
def syndromes (n : Nat) (c : List Byte) : List Byte := (List.range n).map fun i => polyAt c (alpha i)

/-! ### Rows (R264-R270) -/

/-- The row header (R265). -/
def rowHeader (dsn sds rkind row : Nat) (sad : SadNo) (wrap chan slotpos : Nat) : List Byte :=
  let h := beBytes 4 dsn ++ beBytes 1 (4 * sds + rkind) ++ beBytes 1 row ++ beBytes 1 (32 * sad.val) ++ beBytes 1 wrap ++
    beBytes 1 (4 * chan) ++ beBytes 1 slotpos
  h ++ beBytes 2 (crc16 h).toNat

/-- A row header's fields as read. -/
structure RowHdr where
  dsn : Nat
  sds : Nat
  rkind : Nat
  row : Nat
  sad : Nat
  wrap : Nat
  chan : Nat
  slotpos : Nat
deriving DecidableEq, Repr, Inhabited

/-- A valid row header (R265): its CRC matches and RKIND is not 3. -/
def parseRowHeader (h : List Byte) : Option RowHdr :=
  let b (i : Nat) := (h.getD i 0).toNat
  if h.length < 12 || (crc16 (h.take 10)).toNat ≠ beField h 10 2 || b 4 % 4 = 3 then none
  else some { dsn := beField h 0 4, sds := b 4 / 4, rkind := b 4 % 4, row := b 5 % 128, sad := b 6 / 32, wrap := b 7,
              chan := b 8 / 4, slotpos := b 9 }

/-- The shifts a_j of C1 (R266). -/
def c1Shifts : List Nat :=
  [2, 3, 5, 7, 11, 13, 17, 19, 23, 29, 31, 37, 41, 43, 47, 53, 59, 61, 67, 71, 73, 79, 83, 86]

/-- (P^s v)[x] = v[(x + s) mod 176] (R267). -/
def circ (s : Nat) (v : List Bool) : List Bool := v.drop (s % 176) ++ v.take (s % 176)

/-- The sum of two blocks over GF(2). -/
def xorBits (a b : List Bool) : List Bool := List.zipWith (· ^^ ·) a b

/-- λ of a block row: the shifts are a multiple of a_j (R267). -/
def lambda (mult : Nat) (info : List Bool) : List Bool :=
  (List.zip (parts 176 info) c1Shifts).foldl (fun acc (x, a) => xorBits acc (circ (mult * a) x)) (List.replicate 176 false)

/-- The C1 codeword of 4,224 information bits (R267). -/
def c1Encode (info : List Bool) : List Bool :=
  let l0 := lambda 0 info
  let l1 := lambda 1 info
  let l2 := lambda 2 info
  let p0 := xorBits (xorBits l0 l1) l2
  info ++ p0 ++ xorBits l0 (circ 1 p0) ++ xorBits l2 (circ 1 p0)

/-- A word of 4,752 bits satisfies H c = 0 (R266). -/
def c1Ok (c : List Bool) : Bool :=
  let info := c.take 4224
  let p0 := (c.drop 4224).take 176
  let p1 := (c.drop 4400).take 176
  let p2 := (c.drop 4576).take 176
  let zero (l : List Bool) : Bool := l.all (! ·)
  c.length == 4752 && zero (xorBits (xorBits (lambda 0 info) (circ 1 p0)) p1) &&
    zero (xorBits (xorBits (xorBits (lambda 1 info) p0) p1) p2) && zero (xorBits (xorBits (lambda 2 info) (circ 1 p0)) p2)

/-- The scrambler's bits from a state s14…s0 (R268). -/
def scrambleBits : Nat → Nat → List Bool
  | 0, _ => []
  | n + 1, st =>
    let o := st.testBit 14 ^^ st.testBit 13
    o :: scrambleBits n (st * 2 % 32768 + o.toNat)

/-- Scrambling, and descrambling, with a seed (R268). -/
def scramble (seed : Nat) (l : List Bool) : List Bool := xorBits l (scrambleBits l.length seed)

/-- The seed of a row (R268). -/
def rowSeed (slotpos ch : Nat) : Nat := 1 + 64 * slotpos + ch

/-- The seed of a leader or trailer (R268). -/
def leadSeed : Nat := 0x7FFF

/-- The longest run of equal bits. -/
def longestRun (l : List Bool) : Nat :=
  (l.foldl (fun (acc : Option Bool × Nat × Nat) b =>
    let run := if acc.1 == some b then acc.2.1 + 1 else 1
    (some b, run, max acc.2.2 run)) (none, 0, 0)).2.2

/-- The pattern 0xAA_AAAA. -/
def flipMask : List Bool := (List.range 24).map fun i => i % 2 == 0

/-- The modulator over 24-bit words from a previous channel bit (R269). -/
def modWords : Bool → List (List Bool) → List Bool
  | _, [] => []
  | prev, w :: t =>
    let plain := false :: w
    let flip := true :: xorBits w flipMask
    let out := if longestRun (prev :: flip) < longestRun (prev :: plain) then flip else plain
    out ++ modWords (out.getLastD prev) t

/-- The modulator (R269). -/
def modulate (prev : Bool) (l : List Bool) : List Bool := modWords prev (parts 24 l)

/-- The inverse map (R269). -/
def demodulate (l : List Bool) : List Bool :=
  (parts 25 l).flatMap fun w => if w.headD false then xorBits (w.drop 1) flipMask else w.drop 1

/-- The resync field (R270). -/
def resyncBits : List Bool := natBits 32 0xB4D32E79

/-- A row slot's 4,982 channel bits (R270). -/
def rowSlotBits (row : List Byte) (slotpos ch : Nat) : List Bool :=
  resyncBits ++ modulate true (scramble (rowSeed slotpos ch) (c1Encode (row.flatMap byteBits)))

/-! ### Data sets (R271-R274, R284) -/

/-- The channel of row r of SDS s (R274). -/
def chanOfRow (s r : Nat) : Nat := (s + 7 * r) % 64

/-- The SDS whose row r lies on a channel (R274). -/
def sdsOnChan (ch r : Nat) : Nat := (ch + 448 * r - 7 * r) % 64

/-- The payload and reserved bytes of a girth's rows (R233, R234). -/
def girthRows (g : Girth) : List (List Byte) :=
  let h := headerBytes g
  if g.kind != .fill && g.ratio == 0 then
    (parts 512 g.body).zipIdx.map fun (p, k) => p ++ slice h (4 * (k % 4)) 4
  else (parts 512 (h ++ g.body)).map (· ++ List.replicate 4 0)

/-- A row of zeros. -/
def zeroRow : List Byte := List.replicate 516 0

/-- Girths of a data set laid into SDS of 104 rows (R234, R273): whatever does not fit starts the next SDS. -/
def sdsFill : List Girth → List (List Byte) → List (List (List Byte))
  | [], cur => if cur.isEmpty then [] else [cur]
  | g :: t, cur =>
    let rs := girthRows g
    if cur.length + rs.length ≤ 104 then sdsFill t (cur ++ rs) else cur :: sdsFill t rs

/-- The data rows of SDS 0-55 of a data set, 516 bytes each (R273, R284, R392). -/
def dsDataRows (d : DataSet) : List (List (List Byte)) :=
  let pad (s : List (List Byte)) : List (List Byte) := s.take 104 ++ List.replicate (104 - s.length) zeroRow
  match d.kind with
  | .data =>
    let l := (sdsFill d.girths []).map pad
    l.take 56 ++ List.replicate (56 - l.length) (List.replicate 104 zeroRow)
  | .fill => List.replicate 56 (List.replicate 104 zeroRow)
  | .marker =>
    let r := padTo 516 0 (d.block.take 512)
    List.replicate 8 (pad [r]) ++ List.replicate 48 (List.replicate 104 zeroRow)
  | .tail =>
    let img := (parts 512 (padTo 2048 0 (d.block.take 2048))).map (padTo 516 0)
    let recs := (parts 512 (d.block.drop 2048)).take 96 |>.map (padTo 516 0)
    pad (img ++ recs) :: List.replicate 7 (pad img) ++ List.replicate 48 (List.replicate 104 zeroRow)

/-- Parity down the columns: `n` further rows (R271, R272). -/
def columnParity (n : Nat) (rows : List (List Byte)) : List (List Byte) :=
  let cols := (List.range 516).map fun c => rsParity n (rows.map fun r => r.getD c 0)
  (List.range n).map fun i => cols.map fun p => p.getD i 0

/-- The 64 SDS of 120 rows of a data set with C3 and C2 parity (R271, R272). -/
def dsRows (d : DataSet) : List (List (List Byte)) :=
  let data := (dsDataRows d).map fun s => s ++ columnParity 16 s
  let c3 := (List.range 120).map fun r => columnParity 8 (data.map fun s => s.getD r [])
  data ++ (List.range 8).map fun i => c3.map fun p => p.getD i []

/-- KIND's code (R284). -/
def dsKindCode : DsKind → Nat
  | .data => 0
  | .fill => 1
  | .marker => 2
  | .tail => 3

/-! ### Wedges, leaders and trailers (R275-R280) -/

/-- Gray code (R277). -/
def gray (n : Nat) : Nat := n ^^^ (n / 2)

/-- The parity of a value's bits. -/
def parity (n : Nat) : Nat := (natBits 16 n).foldl (fun a b => (a + b.toNat) % 2) 0

/-- The track identity of a channel on a wrap (R277). -/
def trackIdent (wrap ch : Nat) : Nat :=
  let hi := gray (bandOfWrap wrap) * 64 + gray (slotOfWrap wrap)
  hi * 256 + gray ch * 4 + parity hi * 2 + parity (gray ch)

/-- A burst window (R276): "11110000" repeated or constant 0. -/
def burstBits (on : Bool) : List Bool := (List.range 80).map fun i => on && i % 8 < 4

/-- A preamble of `n` bits, "1100" repeated (R276). -/
def preamble (n : Nat) : List Bool := (List.range n).map fun i => i % 4 < 2

/-- The sync mark (R276). -/
def syncBits : List Bool := natBits 32 0xF0C65A93

/-- A wedge of 496 bits (R276). -/
def wedgeBits (wrap ch : Nat) : List Bool :=
  let id := natBits 16 (trackIdent wrap ch)
  preamble 256 ++ syncBits ++ id ++ id ++ id ++ burstBits (wrap % 2 == 0) ++ burstBits (wrap % 2 == 1)

/-- The identity in three copies: bitwise majority, then the checks of bits 1 and 0 (R277). -/
def readIdent (bits : List Bool) : Option Nat :=
  if bits.length ≠ 48 then none
  else
    let m := (List.range 16).map fun i =>
      decide (2 ≤ (bits.getD i false).toNat + (bits.getD (16 + i) false).toNat + (bits.getD (32 + i) false).toNat)
    let v := bitsVal m
    if v / 2 % 2 = parity (v / 256) && v % 2 = parity (v / 4 % 64) then some v else none

/-- A data set's leader facts (R278). -/
structure LeadFacts where
  dsn : Nat
  kind : Nat
  sad : Nat
  ratio : Nat
  short : Bool
  flush : Bool
  slot : Nat
  wrap : Nat
  epoch : Nat
  ptc : Nat
  session : Nat
  firstSeq : Nat
  girths : Nat
  nextSeq : List Nat
deriving DecidableEq, Repr, Inhabited

/-- Appends the CRC-32 (R278). -/
def withCrc32 (l : List Byte) : List Byte := l ++ beBytes 4 (crc32 l).toNat

/-- The leader's 81 bytes (R278). -/
def leaderBytes (f : LeadFacts) : List Byte :=
  withCrc32 (beBytes 4 f.dsn ++ beBytes 1 (16 * f.kind + 2 * f.sad) ++
    beBytes 1 (32 * f.ratio + 16 * f.short.toNat + 8 * f.flush.toNat) ++ beBytes 2 f.slot ++ beBytes 1 f.wrap ++
    beBytes 4 f.epoch ++ beBytes 8 f.ptc ++ beBytes 8 f.session ++ beBytes 5 f.firstSeq ++ beBytes 2 f.girths ++
    (List.range 8).flatMap (fun n => beBytes 5 (f.nextSeq.getD n 0)) ++ [0])

/-- A leader copy read back: its fields when the CRC-32 matches (R280). -/
def parseLeader (l : List Byte) : Option LeadFacts :=
  let b (i : Nat) := (l.getD i 0).toNat
  if l.length ≠ 81 || (crc32 (l.take 77)).toNat ≠ beField l 77 4 then none
  else some { dsn := beField l 0 4, kind := b 4 / 16, sad := b 4 / 2 % 8, ratio := b 5 / 32, short := b 5 / 16 % 2 = 1,
              flush := b 5 / 8 % 2 = 1, slot := beField l 6 2, wrap := b 8, epoch := beField l 9 4, ptc := beField l 13 8,
              session := beField l 21 8, firstSeq := beField l 29 5, girths := beField l 34 2,
              nextSeq := (List.range 8).map fun n => beField l (36 + 5 * n) 5 }

/-- The trailer's 33 bytes (R279). -/
def trailerBytes (f : LeadFacts) (q rewr : Nat) : List Byte :=
  withCrc32 (beBytes 4 f.dsn ++ beBytes 1 (16 * f.kind + 2 * f.sad) ++ beBytes 1 (16 * q) ++ beBytes 2 rewr ++
    beBytes 4 f.epoch ++ beBytes 8 f.ptc ++ beBytes 8 f.session ++ [0])

/-- What a trailer copy gives: DSN, KIND, saddle, Q, REWR, EPOCH, PTC and SESSION when its CRC-32 matches. -/
def parseTrailer (l : List Byte) : Option (LeadFacts × Nat × Nat) :=
  let b (i : Nat) := (l.getD i 0).toNat
  if l.length ≠ 33 || (crc32 (l.take 29)).toNat ≠ beField l 29 4 then none
  else some ({ dsn := beField l 0 4, kind := b 4 / 16, sad := b 4 / 2 % 8, ratio := 0, short := false, flush := false, slot := 0,
               wrap := 0, epoch := beField l 8 4, ptc := beField l 12 8, session := beField l 20 8, firstSeq := 0, girths := 0,
               nextSeq := [] }, b 5 / 16, beField l 6 2)

/-- Bytes of a leader or trailer as channel bits (R268, R275). -/
def leadBits (l : List Byte) : List Bool := resyncBits ++ modulate true (scramble leadSeed (l.flatMap byteBits))

/-- G(c) of a data set's ratio code is missed (R278 SHORT). -/
def isShort (ratio girths : Nat) : Bool := girths < girthsPerDs ratio

/-- The leader facts of a data set placed on tape (R278). -/
def leadOf (w : WDs) (session : W64) : LeadFacts :=
  { dsn := w.dsn, kind := dsKindCode w.ds.kind, sad := w.ds.sad.val, ratio := w.ds.ratio,
    short := isShort w.ds.ratio w.nGirths, flush := w.ds.flush, slot := w.slot, wrap := w.wrap, epoch := w.epoch,
    ptc := w.ds.ptc.toNat, session := session.toNat, firstSeq := w.firstSeq, girths := w.nGirths, nextSeq := w.nextSeq }

/-- The row that a channel writes at a fixed slot of a data set: header, payload, reserved bytes (R264, R265). -/
def slotRow (rows : List (List (List Byte))) (w : WDs) (ch r : Nat) : List Byte :=
  let s := sdsOnChan ch r
  rowHeader w.dsn s 0 r w.ds.sad w.wrap ch r ++ ((rows.getD s []).getD r zeroRow)

/-- A pad row of a rewrite slot (R281). -/
def padRow (w : WDs) (ch slotpos : Nat) : List Byte :=
  rowHeader w.dsn 0 2 0x7F w.ds.sad w.wrap ch slotpos ++ zeroRow

/-- The rewrite copy of a row of data set `o`, written on a channel of the area of a data set on some wrap (R281). -/
def copyRow (o : WDs) (c : Copy) (wrap : Nat) : List Byte :=
  rowHeader o.dsn c.sds 1 c.row o.ds.sad wrap c.ch.val c.slotpos ++
    (((dsRows o.ds).getD c.sds []).getD c.row zeroRow)

/-- The frame of one channel (R275): nothing is written on a channel that is out. `old` gives the data sets
whose rows the area copies. -/
def channelFrame (w : WDs) (session : W64) (old : Nat → Option WDs) (ch : ChNo) : List Bool :=
  if w.outCh.contains ch then []
  else
    let rows := dsRows w.ds
    let q := w.q.getD 0
    let at_ (a b : Nat) : List Bool := (rangeFrom a b).flatMap fun r => rowSlotBits (slotRow rows w ch.val r) r ch.val
    let area := (rangeFrom 120 (120 + q)).flatMap fun p =>
      match w.area.find? (fun c => c.ch == ch && c.slotpos == p) with
      | some c =>
        match (if c.dsn = w.dsn then some w else old c.dsn) with
        | some o => rowSlotBits (copyRow o c w.wrap) p ch.val
        | none => rowSlotBits (padRow w ch.val p) p ch.val
      | none => rowSlotBits (padRow w ch.val p) p ch.val
    let wedge := wedgeBits w.wrap ch.val
    let lead := leadOf w session
    wedge ++ leadBits (leaderBytes lead) ++ at_ 0 40 ++ wedge ++ at_ 40 80 ++ wedge ++ at_ 80 120 ++ area ++
      leadBits (trailerBytes lead q w.area.length) ++ preamble 16 ++ preamble 88

/-! ### The plait block (R285) -/

/-- A slot's code (R285). -/
def slotCode : SlotEl → Nat
  | .owner n => n.val
  | .free => 0x80
  | .fill => 0x81

/-- CLASS in the plait block (R285). -/
def classCode (s : State) (n : SadNo) : Nat :=
  if s.sad[n].st == .closed then 3
  else match classOf s n with
    | .rate => 0
    | .share => 1
    | .idle => 2

/-- Whether sealing is on for a saddle. -/
def sealedOn (s : State) (n : SadNo) : Bool := pbool s .sealOn n.val

/-- One saddle's 8 bytes of the plait block (R285). -/
def plaitSaddle (s : State) (n : SadNo) : List Byte :=
  beBytes 1 (classCode s n) ++ beBytes 1 (pnat s .codePolicy n.val) ++ beBytes 1 (pnat s .codeRatio n.val) ++
    beBytes 1 (64 * pnat s .codeFormat n.val + 8 * (pnat s .codeLanes n.val - 1) + (sealedOn s n).toNat) ++
    beBytes 2 (pnat s .sadRate n.val) ++ beBytes 1 (pnat s .sadWeight n.val) ++ [0]

/-- The planned speed in 0.01 m/s: v = 1.25 + 0.05 k (R82, R285). -/
def vPlan (p : Plait) : Nat := 125 + 5 * p.vIdx

/-- The plait block (R285). -/
def plaitBlock (s : State) (p : Plait) : List Byte :=
  let len := if p.flush then 0 else p.slots.length
  let mode := if p.flush then 2 else p.manual.toNat
  let slots := (List.range 256).flatMap fun i => beBytes 1 (if i < len then slotCode (p.slots.getD i .fill) else 0xFF)
  withCrc32 (beBytes 4 p.epoch ++ beBytes 2 len ++ beBytes 1 mode ++ [0] ++ beBytes 2 (vPlan p) ++ List.replicate 6 0 ++
    slots ++ allSads.flatMap (plaitSaddle s) ++ List.replicate 172 0)

/-! ### Locating (R290, R291) -/

/-- The DSN of slot j of plait cycle c (R290). -/
def dsnOfSlot (m len c j : Nat) : Nat := m + 1 + c * len + j

/-- The slots of a saddle in a plait. -/
def ownSlots (p : Plait) (n : SadNo) : List Nat :=
  (p.slots.zipIdx.filter fun (e, _) => e == .owner n).map (·.2)

/-- The DSN and position of a girth after an anchor (R291): DSN, SDS, row. -/
def locateArith (m : Nat) (p : Plait) (n : SadNo) (ratio uA gA g : Nat) : Option (Nat × Nat × Nat) :=
  let js := ownSlots p n
  let gpd := girthsPerDs ratio
  let nc := gpd / 56
  if js.isEmpty || g < gA then none
  else
    let u := uA + (g - gA) / gpd
    let e := (g - gA) % gpd
    some (dsnOfSlot m p.slots.length (u / js.length) (js.getD (u % js.length) 0), e / nc, e % nc * rowsOf ratio)

end Sys2Proof.Machine
end

