-- ==== Sys2Proof/Machine/Plait.lean ====
section
/-! DEFINITION. Classes, admission and the plait (R82-R89), and the modes that saddles hold (R36). -/

namespace Sys2Proof.Machine

open Sys2Proof

/-- The rate a saddle asks for: its `qos.rate` while it is an open RATE saddle (R82). -/
def askedRate (s : State) (n : SadNo) : Nat :=
  if classOf s n == .rate && s.sad[n].st != .closed then pnat s .sadRate n.val else 0

/-- G(c) as admission counts it: G(0) for a FIT saddle (R82). -/
def admGirths (s : State) (n : SadNo) : Nat :=
  if policyOf s n == .fit then girthsPerDs 0 else girthsPerDs (pnat s .codeRatio n.val)

/-- Numerator of 256 × need / (h × D(v)) with v in 0.01 m/s: the bytes of a data set, scaled (R82, R83). -/
def needNum (rate slots : Nat) : Nat := slots * rate * 5 * 2981888 * 10000

/-- Denominator of the same figure. -/
def needDen (girths pct v : Nat) : Nat := girths * 4096 * pct * 586 * v

/-- kᵢ(v): the slots that a saddle needs at speed step 1.25 + 0.05 k m/s (R83). -/
def needSlots (s : State) (n : SadNo) (k : Nat) : Nat :=
  let d := needDen (admGirths s n) (pnat s .plaitHeadroom) (125 + 5 * k)
  (needNum (askedRate s n) 256 + d - 1) / d

/-- The capacity of a saddle's binding in MB/s (R83). -/
def bindCapacity (s : State) (n : SadNo) : Nat :=
  match bindOf s n with
  | .sp _ => 200
  | .vf => 4014
  | _ => 0

/-- The saddles that ask for a rate, in ascending number. -/
def rateSads (s : State) : List SadNo := allSads.filter fun n => 0 < askedRate s n

/-- Conditions 1 and 2 of R83. -/
def ratesFit (s : State) : Bool :=
  (rateSads s).all (fun n => decide (askedRate s n ≤ bindCapacity s n)) &&
    100 * sumL ((rateSads s).map (askedRate s)) ≤ pnat s .plaitCoder * 4014

/-- The FREE slots to reserve: condition 3 of R83. -/
def reservedFree (s : State) : Nat :=
  if allSads.any fun n => s.sad[n].st != .closed && classOf s n != .rate then pnat s .plaitFreeSlots else 0

/-- The lowest speed step at which the slots suffice: condition 4 of R83. -/
def plannedStep (s : State) : Option Nat :=
  (List.range 76).find? fun k => sumL ((rateSads s).map fun n => needSlots s n k) + reservedFree s ≤ 256

/-- One slot of the AUTO layout: every weight is added to its credit, the highest credit takes the slot, the
first participant on a tie, and 256 leaves the winner's credit (R86). -/
def layoutStep (ps : List (SlotEl × Nat × Int)) : SlotEl × List (SlotEl × Nat × Int) :=
  let grown := ps.map fun (e, w, c) => (e, w, c + (w : Int))
  let win := grown.foldl (fun (b : Option (SlotEl × Int)) (e, _, c) =>
    match b with
    | none => some (e, c)
    | some (_, m) => if m < c then some (e, c) else b) none
  let e := (win.map (·.1)).getD .free
  (e, grown.map fun (f, w, c) => (f, w, if f = e then c - 256 else c))

/-- The AUTO layout of `n` slots (R86). -/
def layoutSlots : Nat → List (SlotEl × Nat × Int) → List SlotEl
  | 0, _ => []
  | n + 1, ps => let (e, qs) := layoutStep ps; e :: layoutSlots n qs

/-- Slots owned per saddle. -/
def ownedCounts (slots : List SlotEl) : Vector Nat 8 :=
  Vector.ofFn fun n => (slots.filter (· == .owner n)).length

/-- The plait that admission under AUTO gives (R83, R86). -/
def autoPlait (s : State) : Option Plait :=
  if ratesFit s then
    (plannedStep s).map fun k =>
      let ks := (rateSads s).map fun n => (SlotEl.owner n, needSlots s n k, (0 : Int))
      let used := sumL (ks.map fun (_, w, _) => w)
      let slots := layoutSlots 256 (ks ++ if used < 256 then [(SlotEl.free, 256 - used, 0)] else [])
      { epoch := 0, manual := false, slots := slots, k := ownedCounts slots, vIdx := k }
  else none

/-- A list element under MANUAL: one that names no saddle with an admitted rate is FREE (R84). -/
def manualEl (s : State) : SlotEl → SlotEl
  | .owner n => if 0 < askedRate s n then .owner n else .free
  | e => e

/-- A saddle's slots of P suffice at a speed: k/P × h × D(v) ≥ need (R84). -/
def manualSuffices (s : State) (n : SadNo) (k p v : Nat) : Bool :=
  decide (needNum (askedRate s n) p ≤ k * needDen (admGirths s n) (pnat s .plaitHeadroom) v)

/-- The plait that admission of a list under MANUAL gives (R84). The planned speed is the lowest step at which
every RATE saddle's slots suffice (log 13). -/
def manualPlait (s : State) (list : List SlotEl) : Option Plait :=
  let slots := list.map (manualEl s)
  let ks := ownedCounts slots
  let ok (v : Nat) : Bool := (rateSads s).all fun n => manualSuffices s n ks[n] slots.length v
  if ratesFit s && ok 500 then
    some { epoch := 0, manual := true, slots := slots, k := ks,
           vIdx := ((List.range 76).find? fun k => ok (125 + 5 * k)).getD 75 }
  else none

/-- The plait that admission starts from: the one pending, else the one in force (corner case of file 03). -/
def lastPlait (s : State) : Plait := ((s.med.next.getLast?).map (·.1)).getD s.med.plait

/-- The plait that the mode in force gives after a change of the RATE set (R83, R84). -/
def admitPlait (s : State) : Option Plait :=
  if pnat s .plaitMode == 1 then manualPlait s (lastPlait s).slots else autoPlait s

/-- The number of the epoch that an admission completing now starts (R87). While another plait is pending, both take effect in
one epoch, unless a data-set boundary falls within the two ticks that this one still needs: then it starts the epoch after, whose
number nothing tells at the completion (DESIGN CHOICE, log 128). -/
def nextEpoch (s : State) : Nat := s.med.plait.epoch + 1

/-- Puts an admitted plait in force: the admitted rates stand from now on, and a changed plait waits for its
epoch (R85, R87). The answer is the new epoch's number when the plait changed. -/
def takePlait (s : State) (p : Plait) (doneAt : W64) : State × Option Nat :=
  let s := mapSad s fun n x => { x with admitted := askedRate s n }
  let old := lastPlait s
  if old.slots = p.slots && old.manual = p.manual && old.vIdx = p.vIdx then (s, none)
  else
    let p := { p with epoch := nextEpoch s }
    ({ s with med := { s.med with next := s.med.next ++ [(p, doneAt)] } }, some p.epoch)

/-- Counts a DENIED.QOS reply of a saddle (R94). -/
def countDeny (s : State) (n : SadNo) : State :=
  modSad s n fun x => { x with cnt := { x.cnt with deny := inc x.cnt.deny } }

/-- `plait.v_plan` in hundredths of m/s. -/
def planSpeed (s : State) : Nat := vPlan s.med.plait

/-! ### Modes that saddles hold -/

/-- The lowest of PARK, STAGE and STREAM in which the mode table permits a verb, for the verbs that some lower
mode forbids (R36, R39). -/
def verbNeeds (v : Verb) : Mode :=
  match v with
  | .write _ | .read _ | .mark _ | .sync => .stream
  | .locate .. | .space .. => .stage
  | _ => .park

/-- The mode a saddle holds (R36). -/
def heldMode (s : State) (n : SadNo) : Mode :=
  let x := s.sad[n]
  let cmds := maxL ((x.q.entries.filter fun e => e.ended.isNone).map fun e => Mode.rank (verbNeeds e.verb))
  let sp := match bindOf s n with
    | .sp _ => true
    | _ => false
  if cmds = 2 || !x.unsync.isEmpty || (classOf s n == .rate && sp && 0 < x.admitted) then .stream
  else if cmds = 1 then .stage
  else .park

/-- The saddles that hold a mode at or above a rank, other than the asking channel. -/
def holders (s : State) (rank : Nat) (ch : Chan) : List SadNo :=
  allSads.filter fun n => rank ≤ Mode.rank (heldMode s n) && ch != .sad n

/-- Whether another saddle holds STREAM (R174). -/
def streamHeld (s : State) (ch : Chan) : List SadNo := holders s 2 ch

/-- Whether a saddle writes or may write: it is open, follows no other saddle and is bound. -/
def writes (s : State) (n : SadNo) : Bool := s.sad[n].st != .closed && (followOf s n).isNone

end Sys2Proof.Machine
end

