-- ==== Sys2Proof/Machine/Pool.lean ====
section
/-! DEFINITION. The caddy pool (file 07): counts, floors and caps, allocation and release, references, return
checks and the leak audit. -/

namespace Sys2Proof.Machine

open Sys2Proof

/-- The owner MEDIA (R215). -/
abbrev ownMedia : Fin 12 := 8

/-- The owner READAHEAD. -/
abbrev ownRa : Fin 12 := 9

/-- The owner CONSOLE. -/
abbrev ownConsole : Fin 12 := 10

/-- The owner SYSTEM. -/
abbrev ownSystem : Fin 12 := 11

/-- A saddle as owner (R215). -/
def ownSad (n : SadNo) : Fin 12 := ⟨n.val, by omega⟩

/-- The twelve owners. -/
def owners : List (Fin 12) := List.finRange 12

/-- An owner's floor (R215). -/
def floorOf (s : State) (o : Fin 12) : Nat :=
  if o.val < 8 then pnat s .poolFloor o.val
  else if o = ownMedia then pnat s .mediaFloor
  else if o = ownConsole then 16
  else if o = ownSystem then 256
  else 0

/-- An owner's cap (R215); MEDIA has none. -/
def capOf (s : State) (o : Fin 12) : Option Nat :=
  if o.val < 8 then some (pnat s .poolCap o.val)
  else if o = ownRa then some (pnat s .raMax)
  else if o = ownConsole then some 16
  else if o = ownSystem then some 256
  else none

/-- Caddies an owner holds (R216). -/
def heldBy (s : State) (o : Fin 12) : Nat := (s.pool.caddies.filter fun c => c.owner == some o).length

/-- Caddies held only by references (R216, R224). -/
def heldRefs (s : State) : Nat := (s.pool.caddies.filter fun c => c.owner.isNone).length

/-- The shared pool's free count (R216). -/
def sharedFree (s : State) : Int :=
  (s.pool.total : Int) - (sumL (owners.map fun o => max (heldBy s o) (floorOf s o)) : Nat) - (heldRefs s : Nat)

/-- Whether an owner may allocate (R216). -/
def mayAlloc (s : State) (o : Fin 12) : Bool :=
  let c := heldBy s o
  if o = ownRa then decide (sharedFree s > (pnat s .raKeepFree : Int)) && c < pnat s .raMax
  else c < floorOf s o || (((capOf s o).map fun k => decide (c < k)).getD true && decide (sharedFree s > 0))

/-- A saddle's pool is full (R223). -/
def poolFull (s : State) (n : SadNo) : Bool :=
  let c := heldBy s (ownSad n)
  pnat s .poolCap n.val ≤ c || (floorOf s (ownSad n) ≤ c && decide (sharedFree s ≤ 0))

/-- The lowest index that no descriptor in rising order holds, from `i` on (log 7). -/
def lowestGap : List Caddy → Nat → Nat
  | [], i => i
  | c :: t, i => if c.idx = i then lowestGap t (i + 1) else i

/-- Puts a descriptor in its place. -/
def caddyInsert (c : Caddy) : List Caddy → List Caddy
  | [] => [c]
  | d :: t => if c.idx < d.idx then c :: d :: t else d :: caddyInsert c t

/-- Takes one operation of the tick's budget, or of the next tick's when that is used up (R220). -/
def useOp (s : State) : State :=
  if s.pool.ops = 0 then { s with pool := { s.pool with debt := s.pool.debt + 1 } }
  else { s with pool := { s.pool with ops := s.pool.ops - 1 } }

/-- Allocates a caddy for an owner: its index and the pool after, with a reference count of 1 (R216, R224). -/
def allocate (s : State) (o : Fin 12) : Option (Nat × State) :=
  if mayAlloc s o then
    let i := lowestGap s.pool.caddies 0
    if i < s.pool.total then
      some (i, { s with pool := { s.pool with
        caddies := caddyInsert { idx := i, owner := some o, holders := [.owner o], ptc := s.clk.ptc } s.pool.caddies } })
    else none
  else none

/-- The code of a holder in a POOL_BADRET record (R226). -/
def Holder.code : Holder → Nat
  | .owner o => o.val
  | .reader n => 0x10 + n.val
  | .media => 0x20
  | .reclaim => 0x30

/-- The first return check that fails, 0 when all four hold (R226). -/
def returnCheck (s : State) (r : Release) : Nat :=
  if s.pool.total * 65536 ≤ r.addr then 1
  else if r.addr % 65536 ≠ 0 then 2
  else
    match s.pool.caddies.find? (·.idx == r.addr / 65536) with
    | none => 3
    | some c => if c.holders.isEmpty then 3 else if c.holders.contains r.holder then 0 else 4

/-- Gives one reference back: the caddy is freed when none is left; when its owner leaves, references alone
hold it (R224). -/
def dropRef (h : Holder) (c : Caddy) : Option Caddy :=
  let hs := c.holders.erase h
  if hs.isEmpty then none
  else some { c with holders := hs, owner := match h, c.owner with
    | .owner o, some p => if o = p then none else some p
    | _, w => w }

/-- A release, checked (R226): an accepted one gives its reference back, a refused one is counted and logged. -/
def releaseOne (s : State) (r : Release) : State :=
  match returnCheck s r with
  | 0 => { s with pool := { s.pool with
      caddies := s.pool.caddies.filterMap fun c => if c.idx = r.addr / 65536 then dropRef r.holder c else some c } }
  | k =>
    let s := { s with pool := { s.pool with badret := inc s.pool.badret } }
    logE s .error srcChip 0x0301 [("addr", 8, r.addr), ("engine", 1, r.holder.code), ("check", 1, k)]

/-- Asks for the release of a caddy. -/
def askRelease (s : State) (i : Nat) (h : Holder) : State :=
  { s with pool := { s.pool with releases := s.pool.releases ++ [{ addr := i * 65536, holder := h }] } }

/-- Whether a reference can be taken now: fewer than 255 are held (R225) and the tick has an operation left (R220). -/
def refReady (s : State) (i : Nat) : Bool :=
  0 < s.pool.ops && s.pool.caddies.all fun c => c.idx != i || decide (c.holders.length < 255)

/-- Takes a reference to a caddy (R224), at most 255 on one caddy (R225); it is one operation of the budget (R220). -/
def takeRef (s : State) (i : Nat) (h : Holder) : State :=
  let s := useOp s
  { s with pool := { s.pool with caddies := s.pool.caddies.map fun c =>
      if c.idx = i && c.holders.length < 255 then { c with holders := c.holders ++ [h] } else c } }

/-- The oldest READAHEAD caddy that only its owner holds (R221). -/
def reclaimable (s : State) : Option Caddy :=
  (s.pool.caddies.filter fun c => c.owner == some ownRa && c.holders.length = 1).foldl
    (fun b c => match b with
      | none => some c
      | some d => if c.ptc < d.ptc then some c else some d) none

/-- An owner's allocation takes a READAHEAD caddy: the shared pool is empty, the owner is at or above its floor and below its
cap, and two operations are left (R221). -/
def mayReclaim (s : State) (o : Fin 12) : Bool :=
  o ≠ ownRa && decide (sharedFree s ≤ 0) && floorOf s o ≤ heldBy s o && ((capOf s o).map fun k => decide (heldBy s o < k)).getD true &&
    2 ≤ s.pool.ops && (reclaimable s).isSome

/-- Whether an allocation of an owner can be served (R216, R221). -/
def canAlloc (s : State) (o : Fin 12) : Bool := mayAlloc s o || mayReclaim s o

/-- An allocation of steps 2 to 4 of R220, which takes a READAHEAD caddy when it finds the shared pool empty
(R221): the caddy and the operations used. -/
def allocateReclaim (s : State) (o : Fin 12) : Option (Nat × State × Nat) :=
  match allocate s o with
  | some (i, t) => some (i, t, 1)
  | none =>
    if mayReclaim s o then
      match reclaimable s with
      | some c =>
        let t := releaseOne s { addr := c.idx * 65536, holder := .owner ownRa }
        (allocate t o).map fun (i, u) => (i, u, 2)
      | none => none
    else none

/-- Bytes of a saddle's lead (file 16), and room for one more word. -/
def leadBytes (s : State) (n : SadNo) : Nat :=
  match bindOf s n with
  | .sp p => if s.sad[n].st == .closed then 0 else s.port[p].lead.length + 4
  | _ => 0

/-- Blocks of a saddle's caddies in use or claimed: coded ones of its first caddy, girths that wait for the
coder, the bytes of the block under fill and of its transfers, and for each mark its own and the block that it ends (R214). -/
def blocksWanted (s : State) (n : SadNo) (full : Nat) : Nat :=
  let x := s.sad[n]
  let coming := x.q.entries.filter fun e => e.phase == .executing && e.ended.isNone
  let bytes := sumL (coming.map fun e => match e.verb with
    | .write a => a.len
    | _ => 0)
  let marks := (coming.filter fun e => match e.verb with
    | .mark _ | .time .. => true
    | _ => false).length
  let coded := (x.caddies.head?.map (·.2)).getD 0
  let landed := sumL (coming.map (·.data.length))
  coded + x.acked.length + (x.blk.bytes.length + max bytes (landed + leadBytes s n) + full - 1) / full + 2 * marks

/-- Caddies a saddle still asks for (R222). -/
def caddiesShort (s : State) (n : SadNo) (full : Nat) : Nat :=
  (blocksWanted s n full + 15) / 16 - s.sad[n].caddies.length

/-- Room for a saddle's transfers, in blocks: its caddies hold what has landed and `extra` bytes more (R222). -/
def roomFor (s : State) (n : SadNo) (full extra : Nat) : Bool :=
  let x := s.sad[n]
  let landed := sumL (x.q.entries.map fun e => if e.ended.isNone then e.data.length else 0)
  let coded := (x.caddies.head?.map (·.2)).getD 0
  coded + x.acked.length + (x.blk.bytes.length + landed + (leadBytes s n - 4) + extra + full - 1) / full ≤ 16 * x.caddies.length

/-- Room for a mark: its girth, after what it ends and what has landed (R222). -/
def roomForMark (s : State) (n : SadNo) (full : Nat) : Bool := roomFor s n full (full + if s.sad[n].blk.bytes.isEmpty then 0 else full)

/-- Lets the caddies go that a saddle's dropped data leaves unused, from the newest on (R98). -/
def trimCaddies (s : State) (n : SadNo) (full : Nat) : State :=
  let keep := (blocksWanted s n full + 15) / 16
  let gone := s.sad[n].caddies.drop keep
  let s := modSad s n fun x => { x with caddies := x.caddies.take keep }
  gone.foldl (fun s (i, _) => askRelease s i (.owner (ownSad n))) s

/-- One block of a saddle has been coded; its caddy is released once all 16 are (file 07). -/
def blockCoded (s : State) (n : SadNo) : State :=
  match s.sad[n].caddies with
  | [] => s
  | (i, k) :: t =>
    if k + 1 < 16 then modSad s n fun x => { x with caddies := (i, k + 1) :: t }
    else askRelease (modSad s n fun x => { x with caddies := t }) i (.owner (ownSad n))

/-- Serves releases, oldest first, within the budget (R220 step 1). -/
def serveReleases : Nat → State → State
  | 0, s => s
  | k + 1, s =>
    match s.pool.releases with
    | [] => s
    | r :: t => serveReleases k (useOp (releaseOne { s with pool := { s.pool with releases := t } } r))

/-- The saddle whose open data set still lacks MEDIA caddies. -/
def mediaShort (s : State) : Option SadNo :=
  allSads.find? fun n => (s.sad[n].openDs.map fun d => decide (d.cads.length < 64)).getD false

/-- Serves allocations for MEDIA, a data set's 64 caddies (R214, R220 step 2). -/
def serveMedia : Nat → State → State
  | 0, s => s
  | k + 1, s =>
    match mediaShort s with
    | none => s
    | some n =>
      match allocateReclaim s ownMedia with
      | none => s
      | some (i, t, u) =>
        serveMedia k { modSad t n (fun x => { x with openDs := x.openDs.map fun d => { d with cads := d.cads ++ [i] } })
          with pool := { t.pool with ops := t.pool.ops - u } }

/-- Serves the saddles' allocations: RATE before SHARE before IDLE, divided within each class (R220 step 4). -/
def serveSaddles (full : SadNo → Nat) : Nat → State → State
  | 0, s => s
  | k + 1, s =>
    if s.pool.ops = 0 then s
    else
      match pickEngine s engPool (allSads.filter fun n => 0 < caddiesShort s n (full n) && canAlloc s (ownSad n)) with
      | none => s
      | some (n, t) =>
        match allocateReclaim t (ownSad n) with
        | none => s
        | some (i, u, c) =>
          serveSaddles full k { modSad u n (fun x => { x with caddies := x.caddies ++ [(i, 0)] })
            with pool := { u.pool with ops := u.pool.ops - c } }

/-- Serves the requests of SYSTEM, CONSOLE and READAHEAD in the list (R220 steps 3 and 5). -/
def serveList (o : Fin 12) : List (Fin 12) → State → State
  | [], s => s
  | q :: t, s =>
    if q = o && 0 < s.pool.ops then
      match allocateReclaim s o with
      | some (_, u, c) =>
        serveList o t { u with pool := { u.pool with ops := u.pool.ops - c, allocs := u.pool.allocs.erase o } }
      | none => s
    else serveList o t s

/-- The pool manager's tick (R220). -/
def poolTick (full : SadNo → Nat) (s : State) : State :=
  let b := budget s 8192 - s.pool.debt
  let s := { s with pool := { s.pool with ops := b, debt := 0 } }
  let s := serveReleases b s
  let s := serveMedia s.pool.ops s
  let s := serveList ownSystem s.pool.allocs s
  let s := serveList ownConsole s.pool.allocs s
  let s := serveSaddles full s.pool.ops s
  serveList ownRa s.pool.allocs s

/-- Live counts of the boundary (AUD_LIVE). -/
def poolLive (s : State) : State :=
  { s with pool := { s.pool with live := Vector.ofFn fun o => heldBy s o } }

/-- FLOW for saddles that were refused or waited and find their pool no longer full (R223), and for a window, a floor or the
shared pool that has passed from full to not full (R79). The window counts as full while the acknowledged bytes not on tape have
reached it (DESIGN CHOICE, log 127). -/
def flowLatches (s : State) : State :=
  allSads.foldl (fun s n =>
    let x := s.sad[n]
    let full := poolFull s n
    let s := if x.flowPool && !full then latch (modSad s n fun x => { x with flowPool := false }) n 2 else s
    let win := window s n ≤ unsyncBytes x
    let flr := decide (floorOf s (ownSad n) ≤ heldBy s (ownSad n))
    let sh := decide (sharedFree s ≤ 0)
    let s := if (x.winFull && !win) || (x.floorFull && !flr) || (x.sharedFull && !sh) then latch s n 2 else s
    modSad s n fun x => { x with winFull := win, floorFull := flr, sharedFull := sh }) s

/-- The age in ticks of an owner's oldest caddy (R229). -/
def oldestAge (s : State) (o : Fin 12) : Nat :=
  maxL ((s.pool.caddies.filter fun c => c.owner == some o).map fun c => now s - c.ptc.toNat)

/-- The source of an audit record about an owner (R229). -/
def auditSrc (o : Fin 12) : Nat := if o.val < 8 then o.val else srcChip

/-- One owner's result of a walk (R229). -/
def auditOwner (tally : List (Fin 12 × Nat)) (s : State) (o : Fin 12) : State :=
  let live := heldBy s o
  let t := (look o tally).getD live
  let age := oldestAge s o
  let s := { s with pool := { s.pool with aud := s.pool.aud.set o.val (t, sat 32 age) o.isLt } }
  let s := if t ≠ live then
      logE { s with pool := { s.pool with leak := true } } .error (auditSrc o) 0x0302
        [("owner", 1, o.val), ("tally", 4, t), ("live", 4, live)]
    else s
  if o.val ≤ 8 then
    if age < pnat s .auditAge then { s with pool := { s.pool with aged := s.pool.aged.filter (· ≠ o) } }
    else if pnat s .auditAge < age then
      if s.pool.aged.contains o then s
      else logE { s with pool := { s.pool with aged := s.pool.aged ++ [o] } } .warn (auditSrc o) 0x0303
        [("owner", 1, o.val), ("age", 4, sat 32 age)]
    else s
  else s

/-- POOL_AUDIT_WALK_END (R228, R229): the walk's tallies, as the descriptors gave them; an owner not listed
tallied its live count. In SERVICE the next walk starts at once. -/
def poolAuditEnd (tally : List (Fin 12 × Nat)) (s : State) : State :=
  let s := owners.foldl (auditOwner tally) s
  { s with pool := { s.pool with audRun := s.pool.audCont, audDone := true, audHeld := heldRefs s } }

/-- POOL_AUDIT_WALK_END. -/
def execPoolAuditWalkEnd (tally : List (Fin 12 × Nat)) (s : State) : Host.Outcome State Fault Refusal :=
  actIf s s.pool.audRun (poolAuditEnd tally)

/-- DESCRIPTOR_PARITY_ERROR: HALT with cause DRAM (R227). -/
def execDescriptorParityError (s : State) : Host.Outcome State Fault Refusal :=
  act s fun t => haltRequest t .dram

end Sys2Proof.Machine
end

