-- ==== Sys2Proof/Machine/Stream.lean ====
section
/-! DEFINITION. A saddle's stream (files 05, 06 and 08): the block under fill, girths and their coding, data sets
under assembly, acknowledgement, monitors, and the discarding of acknowledged data. -/

namespace Sys2Proof.Machine

open Sys2Proof

/-- A saddle's full block F (R232). -/
def blockOf (s : State) (n : SadNo) : Nat := fullBlock (fmtOf s n) (pnat s .codeLanes n.val)

/-- The saddle's ratio code. -/
def ratioOf (s : State) (n : SadNo) : Nat := pnat s .codeRatio n.val

/-- Adds acknowledged bytes of a girth to those not on tape (R146). -/
def addUnsync (g k : Nat) (l : List (Nat × Nat)) : List (Nat × Nat) :=
  match l.reverse with
  | (h, b) :: t => if h = g then (t.reverse ++ [(h, b + k)]) else l ++ [(g, k)]
  | [] => [(g, k)]

/-- The saddle caddy that holds the next block to close (R214). -/
def nextCaddy (x : Saddle) : Nat :=
  let at_ := (x.caddies.head?.map (·.2)).getD 0 + x.acked.length
  ((x.caddies.getD (at_ / 16) (0, 0))).1

/-! ### Monitors (R101, R102) -/

/-- Caddies a monitor references. -/
def monCaddies (x : Saddle) : List Nat := (x.monRefs.map (·.2)).dedup

/-- Drops a monitor's oldest caddy and counts its girths as skipped (R102). -/
def dropOldestRef (s : State) (m : SadNo) : State :=
  match s.sad[m].monRefs with
  | [] => s
  | (_, c) :: _ =>
    let gone := s.sad[m].monRefs.filter fun r => r.2 = c
    askRelease (modSad s m fun x => { x with
      monRefs := x.monRefs.filter (fun r => r.2 ≠ c), lag := x.lag + gone.length
      monData := x.monData.filter fun g => (gone.all fun r => r.1 ≠ g.seq) }) c (.reader m)

/-- Drops a monitor's oldest caddies until its references are within `follow.lag_max` (R102). -/
def dropToLag (m : SadNo) : Nat → State → State
  | 0, s => s
  | k + 1, s => if pnat s .sadLagMax m.val < (monCaddies s.sad[m]).length then dropToLag m k (dropOldestRef s m) else s

/-- The same, for all that it holds. -/
def dropLagging (s : State) (m : SadNo) : State := dropToLag m (monCaddies s.sad[m]).length s

/-- A committed girth of a followed saddle reaches its monitors: each references its caddy (R101, R102). -/
def tellMonitors (s : State) (n : SadNo) (g c : Nat) : State :=
  allSads.foldl (fun s m =>
    if followOf s m == some n then
      let s := if (monCaddies s.sad[m]).contains c then s else takeRef s c (.reader m)
      let new := s.sad[n].acked.filter (·.seq = g)
      dropLagging (modSad s m fun x => { x with monRefs := x.monRefs ++ [(g, c)], monData := x.monData ++ new }) m
    else s) s

/-! ### The block under fill (R211, R249) -/

/-- Ends the block under fill as a girth (R211, R232); a last frame that the bytes do not fill is filled with
free bytes (log 14). -/
def closeBlk (s : State) (n : SadNo) : State :=
  let x := s.sad[n]
  let len := x.blk.bytes.length
  if len = 0 then s
  else
    let f := fmtOf s n
    let lanes := pnat s .codeLanes n.val
    let fb := frameBytes f lanes
    let short := (fb - len % fb) % fb
    let pad := (List.range short).map fun i => Config.framePad (s.free + i)
    let g : Girth := { sad := n, seq := x.next, ratio := ratioOf s n, fmt := f, lanes := lanes, recEnd := x.blk.recEnd,
                       recOff := x.blk.recOff, content := x.blk.bytes ++ pad, caddy := nextCaddy x, ack := x.blk.ack }
    let s := { s with free := s.free + short }
    let s := modSad s n fun x => { x with acked := x.acked ++ [g], next := x.next + 1, blk := {} }
    tellMonitors s n g.seq g.caddy

/-- Appends bytes to the stream; a block that is full closes (R211). `rec` says that the last byte ends a
record (R249). -/
def feed (n : SadNo) : Nat → List Byte → Bool → State → State
  | 0, _, _, s => s
  | k + 1, bs, rec, s =>
    let f := blockOf s n
    let b := s.sad[n].blk
    let part := bs.take (f - b.bytes.length)
    let rest := bs.drop (f - b.bytes.length)
    let recOff := if b.recEnd && b.recOff = 0 then b.bytes.length else b.recOff
    let s := modSad s n fun x => { x with
      blk := { bytes := b.bytes ++ part, recOff := recOff, recEnd := rest.isEmpty && rec, caddy := nextCaddy x,
               grown := s.clk.ptc, ack := if b.bytes.isEmpty then s.med.ackSeq else b.ack },
      unsync := addUnsync x.next part.length x.unsync }
    let s := if f ≤ s.sad[n].blk.bytes.length then closeBlk s n else s
    if rest.isEmpty then s else feed n k rest rec s

/-- Appends a MARK or TIME girth: the block under fill closes first (R211, R250). -/
def pushGirth (s : State) (n : SadNo) (kind : GKind) (content : List Byte) : State :=
  let s := closeBlk s n
  let x := s.sad[n]
  let g : Girth := { sad := n, seq := x.next, kind := kind, ratio := ratioOf s n, fmt := fmtOf s n,
                     lanes := pnat s .codeLanes n.val, content := content, caddy := nextCaddy x, ack := s.med.ackSeq }
  let s := modSad s n fun x => { x with acked := x.acked ++ [g], next := x.next + 1, unsync := x.unsync ++ [(g.seq, 4096)] }
  tellMonitors s n g.seq g.caddy

/-! ### Data sets under assembly (R82, R234, R273) -/

/-- Rows in use in a data set. -/
def rowsUsed (d : DataSet) : Nat := sumL (d.girths.map (·.rows))

/-- Data rows of a data set: 56 SDS of 104. -/
def dsRowSpace : Nat := 5824

/-- Whether a girth of some rows finds room: it never leaves its SDS (R233). -/
def dsFits (d : DataSet) (rows : Nat) : Bool :=
  let u := rowsUsed d
  let left := 104 - u % 104
  u + (if left < rows then left else 0) + rows ≤ dsRowSpace

/-- Places a girth; a FILL girth takes the rows left in an SDS that it does not fit (R234). -/
def dsPlace (d : DataSet) (g : Girth) (ptc : W64) : DataSet :=
  let left := 104 - rowsUsed d % 104
  let fill := if left < g.rows then [fillGirth g.sad g.seq left] else []
  { d with girths := d.girths ++ fill ++ [g], grown := ptc }

/-- FILL girths of at most 8 rows over some rows. -/
def fillRows (sad : SadNo) (seq : Nat) : Nat → Nat → List Girth
  | 0, _ => []
  | k + 1, rows =>
    if rows = 0 then [] else fillGirth sad seq (min 8 rows) :: fillRows sad seq k (rows - min 8 rows)

/-- Closes a data set: FILL girths take every row left, SDS by SDS (R88, R90; log 15). -/
def dsClose (d : DataSet) (nextSeq : Nat) : DataSet :=
  let u := rowsUsed d
  let first := (104 - u % 104) % 104
  let sds := (dsRowSpace - u - first) / 104
  { d with girths := d.girths ++ fillRows d.sad nextSeq 14 first ++
      (List.range sds).flatMap fun _ => fillRows d.sad nextSeq 14 104 }

/-- The girths of a data set that take a number (R240). -/
def ownGirths (d : DataSet) : List Girth := d.girths.filter (·.kind != .fill)

/-- The number that the next girth of a saddle gets once it is placed: the FILL girths' SEQ (R240). -/
def fillSeq (x : Saddle) : Nat := (x.acked.head?.map (·.seq)).getD x.next

/-- Moves a saddle's open data set to its closed ones (R88, R90). -/
def closeOpen (s : State) (n : SadNo) : State :=
  match s.sad[n].openDs with
  | some d =>
    if (ownGirths d).isEmpty then s
    else modSad s n fun x => { x with openDs := none, closed := x.closed ++ [dsClose d (fillSeq x)] }
  | none => s

/-- Places a coded girth in the saddle's open data set; the data set closes when no girth of the saddle's nominal
size finds room (R273). -/
def placeGirth (s : State) (n : SadNo) (g : Girth) : State :=
  match s.sad[n].openDs with
  | some d =>
    let d' := dsPlace d g s.clk.ptc
    if dsFits d' (rowsOf d'.ratio) then modSad s n fun x => { x with openDs := some d' }
    else modSad s n fun x => { x with openDs := none, closed := x.closed ++ [dsClose d' (fillSeq x)] }
  | none => s

/-- The media engine takes a saddle's girths: not in HOLD (R151), but a flush epoch takes every acknowledged girth (R64). -/
def takes (s : State) (n : SadNo) : Bool := s.sad[n].st == .opened || (s.med.flush && s.sad[n].st == .hold)

/-- Opens a data set for every saddle whose girths wait for coding (R273, R278: the PTC at which assembly began). -/
def openWanted (s : State) : State :=
  if s.pw.mode == .stream then
    mapSad s fun n x =>
      if !x.acked.isEmpty && x.openDs.isNone && takes s n then
        { x with openDs := some { sad := n, ratio := ratioOf s n, ptc := s.clk.ptc, grown := s.clk.ptc } }
      else x
  else s

/-! ### Coding and sealing (R238, R253) -/

/-- The key pair a sealed saddle codes with. -/
def sealKey (s : State) (n : SadNo) : Option (List Byte) :=
  s.keys.slots.toList.getD (pnat s .sealSlot n.val) none

/-- Girths wait for sealing while the saddle's key slot is empty (R150). -/
def sealStuck (s : State) (n : SadNo) : Bool :=
  sealedOn s n && (sealKey s n).isNone && !s.sad[n].acked.isEmpty

/-- Whether the coder can take a block of a saddle: the chip streams, the saddle is not in HOLD, a data set with its
caddies is open, and a key is loaded when the saddle is sealed (R151, R214, R150). -/
def codable (s : State) (n : SadNo) : Bool :=
  let x := s.sad[n]
  s.pw.mode == .stream && takes s n && !x.acked.isEmpty && !sealStuck s n &&
    (x.openDs.map fun d => decide (64 ≤ d.cads.length)).getD false

/-- The READ of a saddle whose girths the coder and the sealing engine still have to pass. -/
def decEntry (s : State) (n : SadNo) : Option Entry :=
  match s.sad[n].q.entries.find? fun e => e.ended.isNone && e.placed with
  | some e => if (e.pieces.drop e.dec).any (fun p => p.work || p.opens) then some e else none
  | none => none

/-- The next girth that a saddle's READ has the coder decode or the sealing engine open (R19, R349). -/
def decNext (s : State) (n : SadNo) : Option Piece := (decEntry s n).bind fun e => (e.pieces.drop e.dec).find? fun p => p.work || p.opens

/-- Passes a READ's girths up to and with the next one that takes an engine's work. -/
def decodeOne (s : State) (n : SadNo) : State :=
  match decEntry s n with
  | some e => modEntry s (.sad n) e.tag fun e => { e with
      dec := e.dec + ((e.pieces.drop e.dec).takeWhile fun p => !(p.work || p.opens)).length + 1 }
  | none => s

/-- Codes one block of a saddle (R238, R248, R253). A girth that does not fit the open data set closes it and waits
for the next (R234). -/
def codeOne (s : State) (n : SadNo) : State :=
  match s.sad[n].acked, s.sad[n].openDs with
  | g :: rest, some d =>
    let c := codeGirth (policyOf s n) g
    if dsFits d c.rows then
      let c := match sealedOn s n, sealKey s n with
        | true, some k => sealGirth k c
        | _, _ => c
      let lossy := c.loss.any (0 < ·)
      let fp := policyOf s n == .fit && g.kind == .data && c.ratio = 0
      let s := modSad s n fun x => { x with
        acked := rest, maxK := max x.maxK (maxL c.loss),
        cnt := { x.cnt with lossy := if lossy then x.cnt.lossy + 1 else x.cnt.lossy,
                            fitpass := if fp then inc x.cnt.fitpass else x.cnt.fitpass } }
      blockCoded (placeGirth s n c) n
    else closeOpen s n
  | _, _ => s

/-- Whether the coder can take a block that a saddle writes, sealing included. -/
def encReady (s : State) (seals : Nat) (n : SadNo) : Bool := codable s n && (0 < seals || !sealedOn s n)

/-- Whether the coder can take a girth that a saddle reads, unsealing included. -/
def decReady (s : State) (seals : Nat) (n : SadNo) : Bool := ((decNext s n).map fun p => !p.opens || 0 < seals).getD false

/-- Codes and decodes within a budget that both share; sealed girths also draw on the sealing engine's (R19, R21, R91). A saddle that
writes and reads has its writing served first (DESIGN CHOICE, log 129). -/
def codeBlocks : Nat → Nat → State → State
  | 0, _, s => s
  | k + 1, seals, s =>
    match pickEngine s engCoder (allSads.filter fun n => encReady s seals n || decReady s seals n) with
    | none => s
    | some (n, t) =>
      if encReady s seals n then codeBlocks k (if sealedOn s n then seals - 1 else seals) (codeOne t n)
      else codeBlocks k (if ((decNext s n).map (·.opens)).getD false then seals - 1 else seals) (decodeOne t n)

/-- Closes what has not grown for `close_ticks`: the block under fill and the open data set (R90, R211). -/
def closeRule (s : State) (n : SadNo) : State :=
  let x := s.sad[n]
  let old (t : W64) : Bool := decide (t.toNat + pnat s .sadCloseTicks n.val ≤ now s)
  let s := if !x.blk.bytes.isEmpty && old x.blk.grown then closeBlk s n else s
  match s.sad[n].openDs with
  | some d => if old d.grown then closeOpen s n else s
  | none => s

/-! ### Acknowledgement (R146) -/

/-- The oldest uncompleted command of a channel (R142). -/
def oldest (s : State) (ch : Chan) : Option Entry := (queueOf s ch).entries.find? (·.ended.isNone)

/-- Bytes that a command counts against the window (R146). -/
def ackBytes (v : Verb) : Nat :=
  match v with
  | .write a => a.len
  | _ => 4096

/-- A WRITE with every byte in the saddle's caddies, or a MARK or stream TIME that waits for the window (R145, R203). -/
def landed (e : Entry) : Bool :=
  e.phase == .executing && e.begun &&
    (match e.verb with
     | .write a => e.data.length == a.len
     | .mark _ | .time .. => true
     | _ => false)

/-- Whether a command of a followed saddle that needs a range-lock entry holds none (R159). -/
def unlocked (s : State) (n : SadNo) (e : Entry) : Bool :=
  followed s n && (match e.verb with
    | .write _ | .mark _ => true
    | _ => false) && !s.med.locks.any fun l => l.1 == n && l.2.1 == e.tag

/-- Releases a command's range-lock entry (R159). -/
def unlock (s : State) (n : SadNo) (tag : Nat) : State :=
  { s with med := { s.med with locks := s.med.locks.filter fun l => !(l.1 == n && l.2.1 == tag) } }

/-- `ew=1` when the saddle is past early warning (R388). -/
def ewField (s : State) (n : SadNo) : List Fld := if s.sad[n].ew then [fld "ew" "1"] else []

/-- A session-log record of a PTC waits in RAM for the next write of cartridge memory (R391). -/
def heldLogAt (s : State) (ptc : W64) (type sad : Nat) (value : Nat) : State :=
  { s with cart := { s.cart with
      heldLogs := s.cart.heldLogs ++ [beBytes 1 type ++ beBytes 1 sad ++ beBytes 8 ptc.toNat ++ beBytes 8 s.clk.session.toNat ++
        beBytes 8 value] } }

/-- A session-log record of the running tick. -/
def heldLog (s : State) (type sad : Nat) (value : Nat) : State := heldLogAt s s.clk.ptc type sad value

/-- The event record of a TIME (R203, R494). Its pair is the one that TIME records everywhere (R30). -/
def timeEvent (s : State) (src : Nat) (ptc : W64) (t : Int) (text : String) : State :=
  stage s { ptc := ptc, session := s.clk.session, sev := .info, src := src, code := 0x0207, body := [("t", 8, twos 64 t)],
            text := some text }

/-- Commits the oldest command of a saddle: its bytes enter the stream and it completes (R145, R146, R250). A TIME of the stream
executes in the tick in which it starts, and that tick's PTC stands in its girth, its reply and its records (R30; log 124). -/
def commitEntry (s : State) (n : SadNo) (e : Entry) : State :=
  let s := unlock { s with med := { s.med with ackSeq := s.med.ackSeq + 1 } } n e.tag
  let s := modEntry s (.sad n) e.tag fun e => { e with data := [], segs := [] }
  match e.verb with
  | .write a =>
    let first := s.sad[n].next
    let s := feed n (e.data.length + 1) e.data a.recEnd s
    let last := if s.sad[n].blk.bytes.isEmpty then s.sad[n].next - 1 else s.sad[n].next
    complete s (.sad n) e.tag { status := .ok, fields := [fnum "girth" first, fnum "end" last] ++ ewField s n }
  | .mark note =>
    let s := pushGirth s n .mark (markContent note)
    complete s (.sad n) e.tag { status := .ok, fields := fnum "girth" (s.sad[n].next - 1) :: ewField s n }
  | .time t text =>
    let v := t.getD 0
    let x := text.getD ""
    let s := pushGirth s n .time (timeContent v e.startPtc.toNat s.clk.session x)
    let s := timeEvent (heldLogAt s e.startPtc 3 n.val (twos 64 v)) n.val e.startPtc v x
    complete s (.sad n) e.tag { status := .ok, fields :=
      [fnum "ptc" e.startPtc.toNat, fld "sid" (sidStr s.clk.session), fld "where" "TAPE", fnum "girth" (s.sad[n].next - 1)] }
  | _ => s

/-- What forbids every acknowledgement of a saddle: another mode, HOLD, a reset, an error about to be raised, the
effects of PWR_FAIL_N (R63, R96, R149, R151). -/
def ackBarred (s : State) (n : SadNo) : Bool :=
  let x := s.sad[n]
  s.pw.mode != .stream || x.st != .opened || x.reset.isSome || !x.defPend.isEmpty || pfInForce s

/-- The saddle's caddies hold what a command brings into the stream (R222): a WRITE's bytes have landed there, a mark needs its own
block. -/
def ackRoom (s : State) (n : SadNo) (e : Entry) : Bool :=
  match e.verb with
  | .write _ => roomFor s n (blockOf s n) 0
  | _ => roomForMark s n (blockOf s n)

/-- ACKNOWLEDGE (R146, R222, R388): the saddle's oldest uncompleted WRITE, MARK or TIME. -/
def acknowledgeOne (n : SadNo) (s : State) : State :=
  match oldest s (.sad n) with
  | none => s
  | some e =>
    if !landed e || ackBarred s n || unlocked s n e then s
    else if s.med.eom then unlock (endWithout s (.sad n) e.tag { status := .eom }) n e.tag
    else if window s n < unsyncBytes s.sad[n] + ackBytes e.verb then s
    else if !ackRoom s n e then s
    else commitEntry s n e

/-! ### Discarding (R154, R163, R182) -/

/-- Cuts a data set at a girth number: what is left of it, placed again. -/
def cutDs (g : Nat) (d : DataSet) : DataSet :=
  ((ownGirths d).filter fun x => x.seq < g).foldl (fun d x => dsPlace d x d.grown) { d with girths := [] }

/-- Gives a data set's MEDIA caddies back. -/
def freeMedia (s : State) (d : DataSet) : State := d.cads.foldl (fun s i => askRelease s i (.owner ownMedia)) s

/-- The media engine uses a data set no longer: it gives its references back (R224). -/
def endUse (s : State) (d : DataSet) : State := if d.used then d.cads.foldl (fun s i => askRelease s i .media) s else s

/-- A data set is done with: the media engine's references and its MEDIA caddies go back. -/
def letGo (s : State) (d : DataSet) : State := freeMedia (endUse s d) d

/-- Drops a saddle's girths from `g` on that have not been sent to tape: from the block under fill, the girths that
wait for the coder, and the data sets not yet written. A data set that keeps girths is open again. -/
def dropFrom (s : State) (n : SadNo) (g : Nat) : State :=
  let x := s.sad[n]
  let dss := x.closed ++ x.openDs.toList
  let keep (d : DataSet) : Bool := (ownGirths d).any fun y => y.seq < g
  let cut (d : DataSet) : Bool := (ownGirths d).any fun y => g ≤ y.seq
  let whole := dss.filter fun d => keep d && !cut d
  let part := (dss.filter fun d => keep d && cut d).map (cutDs g)
  let isOpen (d : DataSet) : Bool := x.openDs == some d
  let idle := if part.isEmpty then [] else x.openDs.toList.filter fun d => !keep d && !cut d
  let s := ((dss.filter fun d => !keep d && cut d) ++ idle).foldl freeMedia s
  let s := modSad s n fun x => { x with
    blk := if g ≤ x.next then {} else x.blk
    acked := x.acked.filter (fun y => y.seq < g)
    closed := whole.filter fun d => !isOpen d
    openDs := match part.getLast? with
      | some d => some d
      | none => (dss.filter fun d => isOpen d && !cut d).head? }
  trimCaddies s n (blockOf s n)

/-- Girths of a saddle that are on the lanes or await verification. -/
def inFlight (s : State) (n : SadNo) (g : Nat) : Bool :=
  (s.med.written ++ s.med.again.toList).any fun w => w.ds.kind == .data && w.ds.sad == n &&
    (ownGirths w.ds).any (·.seq == g)

/-- Forgets the written data sets' claim on girths from `g` on: they are no longer acknowledged (R154, R163). -/
def forgetWritten (s : State) (n : SadNo) (g : Nat) : State :=
  let f (w : WDs) : WDs := if w.ds.kind == .data && w.ds.sad == n && (ownGirths w.ds).any (fun y => g ≤ y.seq) then
    { w with dropped := true } else w
  { s with med := { s.med with written := s.med.written.map f, again := s.med.again.map f } }

/-- Discards every acknowledged girth from `g` on that is not on tape; the answer is how many (R154, R163). -/
def discardFrom (s : State) (n : SadNo) (g : Nat) : State × Nat :=
  let k := (s.sad[n].unsync.filter fun u => g ≤ u.1).length
  let s := forgetWritten (dropFrom s n g) n g
  (modSad s n fun x => { x with unsync := x.unsync.filter fun u => u.1 < g }, k)

end Sys2Proof.Machine
end

