-- ==== Sys2Proof/Machine/Queue.lean ====
section
/-! DEFINITION. Queues (file 05): admission of a tagged line, the start of a command, deferred errors and HOLD,
and what a command waits for. -/

namespace Sys2Proof.Machine

open Sys2Proof

/-- A channel as an event source (R493). -/
def srcOf : Chan → Nat
  | .adm => srcAdm
  | .sad n => n.val

/-- Tags of a channel (R110, R139). -/
def tagCount : Chan → Nat
  | .adm => 8
  | .sad _ => 32

/-- The girth that HOLD names (R150, R152). -/
def holdFields (s : State) (n : SadNo) : List Fld := [fnum "girth" s.sad[n].g]

/-- Queue admission (R140, R141, R151): the line's tag is taken, or why it is not. A refused line changes the
refusal counters (R94) and what FLOW waits for (R79, R223). -/
def admitLine (s : State) (ch : Chan) (tag : Nat) (v : Verb) (tr : Transport) : State × Option (Status × List Fld) :=
  let q := queueOf s ch
  let enter (s : State) : State := modQ s ch fun l => l ++ [{ tag := tag, verb := v, tr := tr, seq := s.fil.seq }]
  if tagCount ch ≤ q.entries.length then
    match ch with
    | .adm => ({ s with pcie := { s.pcie with flowAdm := true } }, some (.busyQueue, []))
    | .sad n => (modSad s n fun x => { x with flowQueue := true, cnt := { x.cnt with refQ := sat 16 (x.cnt.refQ + 1) } },
        some (.busyQueue, []))
  else if q.entries.any (·.tag == tag) then (s, some (.badline, [fld "why" "tag", fld "inuse" (hexStr 2 tag)]))
  else
    match ch with
    | .adm => (enter s, none)
    | .sad n =>
      let data := match v with
        | .write _ | .read _ | .mark _ => true
        | _ => false
      if data && poolFull s n then
        (modSad s n fun x => { x with flowPool := true, cnt := { x.cnt with refP := sat 16 (x.cnt.refP + 1) } },
         some (.busyPool, []))
      else if s.sad[n].st == .hold && !holdOk v then
        if s.sad[n].owesDeferred then
          (modSad s n fun x => { x with owesDeferred := false },
           some (.deferred, holdFields s n ++ [fld "cause" s.sad[n].cause.name]))
        else (s, some (.hold, holdFields s n))
      else (enter s, none)

/-! ### The mode table (R39) -/

/-- The columns of the mode table in which a verb is accepted: PARK, STAGE, STREAM, SERVICE, HALT (R39). -/
def modeRow (v : Verb) : List Mode :=
  match v with
  | .hello _ | .infoDev | .infoFw | .infoLink | .infoDram | .infoPorts | .status _ | .get _ | .set _ | .abort .. | .qreset _
  | .events .. | .logText _ | .logSave | .configs | .mode _ | .confirm .. => [.park, .stage, .stream, .service, .halt]
  | .sreset _ | .clear _ | .discard .. => [.park, .stage, .stream, .halt]
  | .commit _ => [.park, .stage, .stream, .service]
  | .rollback _ => [.park]
  | .load => [.park, .service]
  | .unload | .cmRead _ | .cmRepair => [.park, .stage, .service]
  | .saddleOpen _ | .saddleClose _ | .saddleSet .. | .plaitShow .. | .plaitPut .. | .plaitApply | .plaitAuto | .time .. =>
    [.park, .stage, .stream]
  | .keyPart .. | .keyLoad _ | .keyZero _ | .keyList | .keyKek .. => [.park, .stage, .stream, .service]
  | .seal .. => [.park, .stage]
  | .chanList | .chanOut _ | .chanIn _ => [.park, .stage, .service]
  | .locate .. | .space .. => [.stage, .stream, .service]
  | .write _ | .read _ | .mark _ | .sync => [.stream]
  | .cal .. | .testDram _ | .testFlash _ | .testLoop _ | .testPattern _ | .updateBegin .. | .updateData .. | .updateDma ..
  | .updateEnd | .updateCancel | .activate _ | .arm _ => [.service]

/-- Whether a mode permits a verb of a channel (R39): in SERVICE every queued command of a saddle is denied. -/
def modePermits (m : Mode) (ch : Chan) (v : Verb) : Bool :=
  (modeRow v).contains m && !(m == .service && ch != .adm)

/-- DENIED under R39. -/
def deniedMode (m : Mode) : Outc := failWhy .denied "mode" [fld "mode" (Mode.name m)]

/-! ### Start of a command (R143) -/

/-- Which commands may overlap (R143): WRITE and MARK, or READ. -/
def runKind (v : Verb) : Nat :=
  match v with
  | .write _ | .mark _ => 1
  | .read _ => 2
  | _ => 0

/-- The command whose turn it is (R143): every earlier command has completed, or it continues a run of WRITE and
MARK, or of READ, whose earlier commands execute. -/
def nextStart : List Entry → Option Entry
  | [] => none
  | e :: t =>
    if e.ended.isSome then nextStart t
    else if e.phase == .queued then some e
    else
      match runKind e.verb, t.find? (fun f => f.ended.isNone && f.phase == .queued) with
      | 0, _ => none
      | k, some f =>
        if (t.takeWhile (·.tag != f.tag)).all (fun g => g.ended.isSome || runKind g.verb = k) && runKind f.verb = k then some f
        else none
      | _, none => none

/-- The saddle's earlier uncommitted WRITE bytes and MARKs (R159). -/
def earlier (s : State) (n : SadNo) (e : Entry) : Nat × Nat :=
  let l := (s.sad[n].q.entries.takeWhile (·.tag != e.tag)).filter fun f => f.ended.isNone && f.phase == .executing
  (sumL (l.map fun f => match f.verb with
      | .write a => a.len
      | _ => 0),
   (l.filter fun f => match f.verb with
      | .mark _ => true
      | _ => false).length)

/-- The range-lock span of a command (R159). -/
def lockSpan (s : State) (n : SadNo) (e : Entry) : Nat × Nat :=
  let (b, m) := earlier s n e
  let f := blockOf s n
  let g0 := s.sad[n].next
  (g0, g0 + (b + ackBytes e.verb + f - 1) / f + m + 1)

/-- A command takes a range-lock entry (R159). -/
def addLock (s : State) (n : SadNo) (e : Entry) : State :=
  let (a, b) := lockSpan s n e
  { s with med := { s.med with locks := s.med.locks ++ [(n, e.tag, a, b)] } }

/-- The range locks at a boundary (R159): those of a saddle that nothing follows any more go, and the executing WRITEs and MARKs of
one that a monitor has begun to follow take theirs while the table has room. -/
def settleLocks (s : State) : State :=
  let s := { s with med := { s.med with locks := s.med.locks.filter fun l => followed s l.1 } }
  allSads.foldl (fun s n =>
    (s.sad[n].q.entries.filter fun e => e.phase == .executing && e.ended.isNone && unlocked s n e).foldl
      (fun s e => if 64 ≤ s.med.locks.length then s else addLock s n e) s) s

/-- The first entry of a scatter table that breaks R444: an address and length out of limits, the entry at which
the lengths pass WRITE's `len=`, or the last one when they fall short (log 16). -/
def tableBad (exact : Bool) (len : Nat) : List (Nat × Nat) → Nat → Nat → Option Nat
  | [], i, sum => if sum < len then some (i - 1) else none
  | (a, l) :: t, i, sum =>
    if 2 ^ 64 ≤ a || l = 0 || 67108864 < l || (exact && len < sum + l) then some i else tableBad exact len t (i + 1) (sum + l)

/-- Whether a verb is positional (R162). -/
def positional (v : Verb) : Bool :=
  match v with
  | .space .. => true
  | .read a => a.girth.isNone
  | _ => false

/-- The saddle a command acts on. -/
def actsOn (ch : Chan) (v : Verb) : Option SadNo :=
  match ch with
  | .sad n => some n
  | .adm => verbSad v

/-- Marks what a command waits for. -/
def setWhy (s : State) (ch : Chan) (tag : Nat) (w : WaitWhy) : State := modEntry s ch tag fun e => { e with why := w }

/-- What decides a command at its turn without effect (R39, R101, R152, R162, R212, R385, R388). -/
def turnRefusal (s : State) (ch : Chan) (v : Verb) : Option Outc :=
  let stream := match v with
    | .write _ | .mark _ | .time .. | .sync => true
    | _ => false
  let intoStream := match v with
    | .time .. => s.pw.mode == .stream
    | _ => stream
  match ch with
  | .sad n =>
    let x := s.sad[n]
    if x.st == .hold && !holdOk v then some { status := .hold, fields := holdFields s n }
    else if !modePermits s.pw.mode ch v then some (deniedMode s.pw.mode)
    else if stream && s.cart.readonly && s.cart.loaded then some (failWhy .denied "readonly")
    else if (match v with
      | .write _ | .mark _ | .sync => (followOf s n).isSome
      | _ => false) then some (failWhy .denied "scope")
    else if intoStream && s.med.eom && v != .sync then some { status := .eom }
    else if positional v && x.posLost then some (failWhy .denied "mode" [fld "pos" "lost"])
    else none
  | .adm =>
    if !modePermits s.pw.mode ch v then some (deniedMode s.pw.mode)
    else match verbSad v with
      | some n => if positional v && s.sad[n].posLost then some (failWhy .denied "mode" [fld "pos" "lost"]) else none
      | none => none

/-- Begins a command: it executes from this tick on. -/
def beginEntry (s : State) (ch : Chan) (tag : Nat) (f : Entry → Entry) : State :=
  modEntry s ch tag fun e => f { e with phase := .executing, startPtc := s.clk.ptc, why := .none }

/-- COMMAND_START (R39, R41, R143, R159, R444): the channel's next command starts, ends without effect, or waits. While a transition runs, a
command that its source or its target mode does not permit waits, with WAITWHY mode (R93), and meets R39 under the mode that follows
(DESIGN CHOICE, log 126).
`table` is the scatter table that its `sgt=` names. -/
def startCmd (ch : Chan) (table : Option (List (Nat × Nat))) (s : State) : State :=
  match nextStart (queueOf s ch).entries with
  | none => s
  | some e =>
    let resetting := match ch with
      | .sad n => s.sad[n].reset.isSome
      | .adm => false
    if resetting then s
    else if s.pw.mode == .halt && !modePermits .halt ch e.verb then setWhy s ch e.tag .halt
    else if (s.pw.trans.map fun t => !(modePermits t.source ch e.verb && modePermits t.target ch e.verb)).getD false then
      setWhy s ch e.tag .mode
    else
      match turnRefusal s ch e.verb with
      | some o => endWithout s ch e.tag o
      | none =>
        let lists : Option (XferList × Bool × Nat) := match e.verb with
          | .write a => some (a.src, true, a.len)
          | .read a => some (a.dst, false, a.len)
          | _ => none
        let segs : Option (Except Nat (List (Nat × Nat))) := match lists, table with
          | some (.sg l, _, _), _ => some (.ok l)
          | some (.sgt .., exact, len), some t =>
            match tableBad exact len t 0 0 with
            | some i => some (.error i)
            | none => some (.ok t)
          | some (.sgt .., _, _), none => none
          | _, _ => some (.ok [])
        match segs with
        | none => setWhy s ch e.tag .engine
        | some (.error i) =>
          endWithout s ch e.tag (failWhy .badarg "range" [fld "key" "sgt", fnum "entry" i])
        | some (.ok l) =>
          match ch, runKind e.verb with
          | .sad n, 1 =>
            if followed s n then
              if 64 ≤ s.med.locks.length then setWhy s ch e.tag .lock
              else beginEntry (addLock s n e) ch e.tag fun e => { e with segs := l }
            else beginEntry s ch e.tag fun e => { e with segs := l }
          | _, _ => beginEntry s ch e.tag fun e => { e with segs := l }

/-- COMMAND_START. -/
def execCommandStart (ch : Chan) (table : Option (List (Nat × Nat))) (s : State) : Host.Outcome State Fault Refusal :=
  act s (startCmd ch table)

/-! ### Deferred errors (R150, R151, R153) -/

/-- The lowest girth of a saddle that is not on tape (R150). -/
def lowestUnsync (x : Saddle) : Nat := ((x.unsync.map (·.1)).min?).getD x.next

/-- Ends a saddle's executing transfers without effect: their data is discarded and their range locks released
(R151, R161, R162). -/
def dropTransfers (s : State) (n : SadNo) (p : Entry → Bool) : State :=
  let gone := (s.sad[n].q.entries.filter p).map (·.tag)
  let s := { s with med := { s.med with locks := s.med.locks.filter fun l => !(l.1 == n && gone.contains l.2.1) } }
  let s := modQ s (.sad n) fun l => l.map fun e => if p e then { e with data := [], segs := [] } else e
  trimCaddies s n (blockOf s n)

/-- Puts a saddle in HOLD (R151); a motion of the command that ends stops, and the position is lost (R162). -/
def enterHold (s : State) (n : SadNo) (c : DefCause) : State :=
  let g := lowestUnsync s.sad[n]
  let s := modSad s n fun x => { x with st := .hold, cause := c, g := g }
  let s := logE s .error n.val 0x0202 [("cause", 1, c.code), ("girth", 5, g)]
  let s := match oldest s (.sad n) with
    | none => modSad s n fun x => { x with owesDeferred := true }
    | some e =>
      let s := endWithout s (.sad n) e.tag { status := .deferred, fields := [fnum "girth" g, fld "cause" c.name] }
      if s.cart.motion == some (.seek (.sad n) (some e.tag)) then
        modSad { s with cart := { s.cart with motion := none } } n fun x => { x with posLost := true }
      else s
  let s := modQ s (.sad n) fun l => l.map fun e =>
    if e.ended.isNone && !holdOk e.verb then { e with ended := some { status := .hold, fields := [fnum "girth" g] } } else e
  dropTransfers s n fun e => e.ended.isSome && e.phase != .committed

/-- Raises one deferred error (R150, R151); in HOLD it changes nothing and is logged (R153). -/
def raiseOne (n : SadNo) (s : State) (c : DefCause) : State :=
  match s.sad[n].st with
  | .hold => logE s .warn n.val 0x0203 [("cause", 1, c.code)]
  | .opened => enterHold s n c
  | .closed => s

/-- Raises the deferred errors found in the tick that closes (R150, R151, R153). -/
def raiseDeferred (s : State) (n : SadNo) : State :=
  s.sad[n].defPend.foldl (raiseOne n) (modSad s n fun x => { x with defPend := [] })

/-- CLEAR's effect (R154): HOLD ends and the girths from `g` on are discarded; how many, and the next girth. -/
def clearHold (s : State) (n : SadNo) : State × Nat × Nat :=
  if s.sad[n].st == .hold then
    let g := s.sad[n].g
    let (s, k) := discardFrom s n g
    let s := modSad s n fun x => { x with st := .opened, cause := .none, g := 0, next := g, owesDeferred := false, dropped := none }
    (s, k, g)
  else (modSad s n fun x => { x with dropped := none }, 0, s.sad[n].next)

/-! ### Waiting (R20, R93, R168) -/

/-- Bytes of the saddle's stream that the window must still take ahead of a command. -/
def aheadBytes (s : State) (n : SadNo) (e : Entry) : Nat :=
  sumL ((s.sad[n].q.entries.takeWhile (·.tag != e.tag)).map fun f =>
    if f.ended.isNone && f.phase == .executing && runKind f.verb = 1 then ackBytes f.verb else 0)

/-- Whether the girths a SYNC waits for are on tape (R148): `girth0` is the first that it need not wait for. -/
def syncDone (s : State) (n : SadNo) (e : Entry) : Bool := s.sad[n].unsync.all fun u => e.girth0 ≤ u.1

/-- Withholds the SYNCs that wait (R149), or lets them go on (R66). -/
def freezeSyncs (s : State) (on : Bool) : State :=
  mapSad s fun n x => { x with q := { entries := x.q.entries.map fun e =>
    { e with frozen := on && e.verb == .sync && e.phase == .executing && e.begun && e.ended.isNone && !syncDone s n e } } }

/-- What an uncompleted command waits for at a boundary (R93). -/
def waitOf (s : State) (ch : Chan) (e : Entry) : WaitWhy :=
  if s.pw.mode == .halt && !modePermits .halt ch e.verb then .halt
  else if e.phase == .queued then e.why
  else if ch != .adm && s.pw.mode != .stream && verbNeeds e.verb == .stream then .mode
  else
    match ch, e.verb with
    | .sad n, .write a =>
      if unlocked s n e then .lock
      else if landed e then
        if pfInForce s then .power
        else if window s n < unsyncBytes s.sad[n] + aheadBytes s n e + a.len then .window
        else .none
      else if !roomFor s n (blockOf s n) 1 then .pool
      else match bindOf s n with
        | .sp p => if s.port[p].lead.isEmpty then .source else .none
        | _ => e.why
    | .sad n, .mark _ =>
      if unlocked s n e then .lock
      else if pfInForce s then .power
      else if !roomForMark s n (blockOf s n) then .pool
      else if window s n < unsyncBytes s.sad[n] + aheadBytes s n e + 4096 then .window
      else .none
    | .sad n, .sync =>
      if e.frozen then .power
      else if syncDone s n e then .none
      else if s.med.stopped || s.med.eom then .tape
      else .slot
    | .sad n, .time .. =>
      if !landed e then e.why
      else if s.pw.mode != .stream then .mode
      else if pfInForce s then .power
      else if !roomForMark s n (blockOf s n) then .pool
      else if window s n < unsyncBytes s.sad[n] + 4096 then .window
      else .none
    | _, _ => e.why

/-- Counts a tick of waiting on one command (R20, R93). -/
def countWait (s : State) (ch : Chan) (e : Entry) : Entry :=
  if e.ended.isSome then e
  else
    let w := waitOf s ch e
    { e with why := w, wait := if w == .none then e.wait else e.wait + 1 }

/-- Counts the tick's delays on every channel, and the saddles' present reason (R93, R94). -/
def countWaits (s : State) : State :=
  let t := { s with adm := { entries := s.adm.entries.map (countWait s .adm) } }
  mapSad t fun n x =>
    let es := x.q.entries.map (countWait s (.sad n))
    let delayed := es.any fun e => e.ended.isNone && e.why != .none
    { x with
      q := { entries := es }
      why := ((es.find? fun e => e.ended.isNone && e.why != .none).map (·.why)).getD .none
      flowPool := x.flowPool || es.any (fun e => e.ended.isNone && e.why == .pool)
      cnt := { x.cnt with wait := if delayed then x.cnt.wait + 1 else x.cnt.wait } }

end Sys2Proof.Machine
end

