-- ==== Sys2Proof/Machine/Flash.lean ====
section
/-! DEFINITION. The flash die, its log regions and ROM services, the descriptor queue, and configuration records
(R393-R411 of file 14). -/

namespace Sys2Proof.Machine

open Sys2Proof

/-! ### Log regions (R402-R404) -/

/-- The log regions that R403 compacts. -/
inductive LogRegion where
  | boot | journal | select
deriving DecidableEq, Repr

/-- CHECK of an entry (R402). -/
def entryCheck (e : LogEntry) : Nat :=
  ((beBytes 1 e.type ++ beBytes 2 e.arg ++ beBytes 4 e.value).foldl (fun (a : Byte) b => a ^^^ b) 0x5A).toNat

/-- An entry's 8 bytes as two words: TYPE, ARG and CHECK at +0, VALUE at +4 (R402). -/
def entryWords (e : LogEntry) : Nat × Nat := (e.type * 2 ^ 24 + e.arg * 256 + entryCheck e, e.value)

/-- A log pair of a region. -/
def logOf (f : Flash) : LogRegion → LogPair
  | .boot => f.boot
  | .journal => f.journal
  | .select => f.select

/-- Replaces a log pair. -/
def setLog (f : Flash) (r : LogRegion) (p : LogPair) : Flash :=
  match r with
  | .boot => { f with boot := p }
  | .journal => { f with journal := p }
  | .select => { f with select := p }

/-- A slot's number in ARG (R404). -/
def slotNo : Slot → Nat
  | .a => 0
  | .b => 1

/-- Sectors whose latest BEGIN has no later END (R405). -/
def unfinished (l : List LogEntry) : List Nat :=
  l.foldl (fun acc e => if e.type = 0x01 then acc.filter (· ≠ e.value) ++ [e.value]
    else if e.type = 0x02 then acc.filter (· ≠ e.value) else acc) []

/-- The position of the newest entry that a test accepts. -/
def lastAt (l : List LogEntry) (p : LogEntry → Bool) : Option Nat :=
  ((l.zipIdx.filter fun (e, _) => p e).getLast?).map (·.2)

/-- Entries still needed when a region is compacted (R403): unfinished erases; the boot entries from the newest
SELECT on with each target's newest CONFIRM, INVALID and VALID; the newest CFGSEL and those naming kept records. -/
def neededEntries (f : Flash) (r : LogRegion) : List LogEntry :=
  let l := (logOf f r).entries
  match r with
  | .journal => (unfinished l).map fun s => { type := 0x01, arg := 0, value := s }
  | .boot =>
    let from_ := (lastAt l (·.type = 0x10)).getD 0
    let marks := (l.zipIdx.filter fun (e, i) => i < from_ &&
      (e.type = 0x13 || e.type = 0x16 || e.type = 0x17) &&
      (lastAt l fun x => x.type = e.type && x.arg = e.arg) == some i).map (·.1)
    marks ++ l.drop from_
  | .select =>
    l.zipIdx.filterMap fun (e, i) =>
      if i + 1 = l.length || f.cfgs.any (fun c => c.version = e.value) then some e else none

/-- The spare sector of a region (R401, R403). -/
def spareSector (f : Flash) (r : LogRegion) : Nat :=
  (match r with
    | .boot => 0x40
    | .journal => 0x42
    | .select => 0x48) + if (logOf f r).second then 0 else 1

/-- Compacts a region into its spare, whose erase counts, and appends an entry there (R403). -/
def compactLog (s : State) (r : LogRegion) (e : LogEntry) : State :=
  let p := logOf s.fl r
  let q : LogPair := { entries := neededEntries s.fl r ++ [e], seq := p.seq + 1, second := !p.second }
  { s with fl := { setLog s.fl r q with erases := inc s.fl.erases } }

/-- Appends an entry to the journal. Its sector is full at 509 entries: the last two places take the entries for the erase of the
spare (R402, R403; log 142). -/
def appendJournal (s : State) (e : LogEntry) : State :=
  let p := s.fl.journal
  if p.entries.length < 509 then { s with fl := { s.fl with journal := { p with entries := p.entries ++ [e] } } }
  else compactLog s .journal e

/-- The journal entries that bracket an erase that ends within a step (R404). -/
def journaled (s : State) (sector : Nat) : State :=
  appendJournal (appendJournal s { type := 0x01, arg := 0, value := sector }) { type := 0x02, arg := 0, value := sector }

/-- Appends an entry; a full sector is first compacted into its spare, whose erase is journaled (R402, R403). -/
def appendLog (s : State) (r : LogRegion) (e : LogEntry) : State :=
  match r with
  | .journal => appendJournal s e
  | _ =>
    let p := logOf s.fl r
    if p.entries.length < 511 then { s with fl := setLog s.fl r { p with entries := p.entries ++ [e] } }
    else compactLog (journaled s (spareSector s.fl r)) r e

/-! ### Erases (R394, R395, R397) -/

/-- Starts a journaled erase of a sector, or queues it behind the one that runs (R397). -/
def startErase (s : State) (sector : Nat) : State :=
  if s.fl.erasing.isSome then { s with fl := { s.fl with todo := s.fl.todo ++ [sector] } }
  else
    let s := appendLog s .journal { type := 0x01, arg := 0, value := sector }
    { s with fl := { s.fl with erasing := some sector, suspended := false, eraseRan := none, readWaits := false } }

/-- Time in ns that an erase runs after it resumes before it is suspended again (R395). -/
abbrev eraseRun : Nat := 1500000

/-- A read may suspend the erase that runs (R395): it has not been suspended yet, or has run long enough since it resumed. -/
def maySuspend (s : State) : Bool := (s.fl.eraseRan.map fun t => decide (eraseRun ≤ t)).getD true

/-- The erase at a boundary (R395): it resumes once the read has ended, unless a power-fail record suspended it (R406); a read that
waits suspends it once it has run long enough. -/
def eraseTick (s : State) : State :=
  if s.fl.erasing.isNone then s
  else if s.fl.suspended then
    if pfInForce s then s else { s with fl := { s.fl with suspended := false, eraseRan := some 0 } }
  else
    let s := { s with fl := { s.fl with eraseRan := s.fl.eraseRan.map (· + s.tk.periodNs) } }
    if s.fl.readWaits && maySuspend s then { s with fl := { s.fl with suspended := true, readWaits := false } } else s

/-- Whether a flash program or erase is in progress (PWR_STAT.FLASH_BUSY). -/
def flashBusy (s : State) : Bool := s.fl.erasing.isSome || s.fl.opRun.isSome

/-- A failed operation (R394). -/
def flashFail (s : State) (addr op : Nat) : State :=
  logE { s with fl := { s.fl with fails := inc s.fl.fails } } .error srcChip 0x0801 [("addr", 4, addr), ("op", 1, op)]

/-! ### Firmware slots in the boot record (R404, R412) -/

/-- The image of a slot. -/
def imageOf (s : State) : Slot → Image
  | .a => s.fl.a
  | .b => s.fl.b

/-- VERSION of an image region: 0 A, 1 B, 2 stage-1. -/
def imgVersion (i : Image) (k : Nat) : Nat := if i.factory then Config.factoryVersion k else i.version

/-- SCHEMA of an image region. -/
def imgSchema (i : Image) (k : Nat) : Nat := if i.factory then Config.factorySchema k else i.schema

/-- A target of the boot record is valid (R404). -/
def targetValid (s : State) (k : Nat) : Bool :=
  let l := s.fl.boot.entries
  match lastAt l (fun e => e.type = 0x16 && e.arg = k), lastAt l (fun e => e.type = 0x17 && e.arg = k) with
  | some i, some v => i < v
  | some _, none => false
  | none, _ => true

/-- A slot is confirmed: a CONFIRM for it follows its latest VALID (R404); a slot with no VALID needs a CONFIRM. -/
def slotConfirmed (s : State) (x : Slot) : Bool :=
  let l := s.fl.boot.entries
  let k := slotNo x
  match lastAt l (fun e => e.type = 0x13 && e.arg = k), lastAt l (fun e => e.type = 0x17 && e.arg = k) with
  | some c, some v => v < c
  | some _, none => true
  | none, _ => false

/-- Entries after the newest SELECT (R418). -/
def sinceSelect (s : State) : List LogEntry :=
  match lastAt s.fl.boot.entries (·.type = 0x10) with
  | some i => s.fl.boot.entries.drop (i + 1)
  | none => []

/-- The slot of the newest SELECT (R424); slot A when there is none (log 6). -/
def selectedSlot (s : State) : Slot :=
  match lastAt s.fl.boot.entries (·.type = 0x10) with
  | some i => if ((s.fl.boot.entries.getD i default).arg % 2) = 1 then .b else .a
  | none => .a

/-- The newest SELECT carries trial 1 (R418). -/
def selectTrial (s : State) : Bool :=
  match lastAt s.fl.boot.entries (·.type = 0x10) with
  | some i => (s.fl.boot.entries.getD i default).arg / 2 % 2 = 1
  | none => false

/-- The selected slot is on trial (R418). -/
def onTrial (s : State) : Bool :=
  selectTrial s && !(sinceSelect s).any fun e => e.type = 0x13 || e.type = 0x14

/-- The other slot. -/
def Slot.other : Slot → Slot
  | .a => .b
  | .b => .a

/-- The slot that runs, if a main image does. -/
def runningSlot (s : State) : Option Slot :=
  match s.fw.run with
  | 0 => some .a
  | 1 => some .b
  | _ => none

/-- The slot held for fallback during a trial (R415, R418). -/
def heldSlot (s : State) : Option Slot := if s.fw.trial then (runningSlot s).map Slot.other else none

/-! ### Bytes of the die (R401) -/

/-- First address of a target's region (R401). -/
def targetBase : Target → Nat
  | .a => 0x2000000
  | .b => 0x3000000
  | .stage1 => 0

/-- A target's code in the boot record. -/
def targetNo : Target → Nat
  | .a => 0
  | .b => 1
  | .stage1 => 2

/-- A byte of an image region. -/
def imageByte (i : Image) (k off : Nat) : Byte := if i.factory then Config.factoryByte k off else i.bytes.getD off 0xFF

/-- A byte of a log sector in force (R402). -/
def logByte (magic : Nat) (p : LogPair) (off : Nat) : Byte :=
  let sec := if p.second then 4096 else 0
  if off < sec || sec + 4096 ≤ off then 0xFF
  else
    let w := (off - sec) / 4
    let v := if w = 0 then magic else if w = 1 then p.seq
      else match p.entries[(w - 2) / 2]? with
        | some e => if w % 2 = 0 then (entryWords e).1 else (entryWords e).2
        | none => 0xFFFFFFFF
    (leBytes 4 v).getD ((off - sec) % 4) 0xFF

/-- A byte of a power-fail sector: the same layout with an entry list of its own (R402, R406). -/
def pfByte (l : List LogEntry) (off : Nat) : Byte :=
  if l.isEmpty then 0xFF else logByte 0x50464C47 { entries := l } off

/-- The 128-byte record of an event (R493). -/
def evtBytes (e : Evt) : List Byte :=
  let text := match e.text with
    | some t => beBytes 1 t.length ++ ascii t
    | none => []
  let body := e.body.flatMap (fun (_, w, v) => beBytes w v) ++ text
  let head := beBytes 4 e.seq ++ beBytes 8 e.ptc.toNat ++ beBytes 8 e.session.toNat ++ beBytes 1 (Sev.rank e.sev) ++
    beBytes 1 e.src ++ beBytes 2 e.code ++ beBytes 2 body.length ++ [0, 0]
  let b := padTo 96 0 body
  head ++ beBytes 4 (crc32 (head ++ b)).toNat ++ b

/-- The first 104 bytes of a configuration record that the spec fixes (R407). -/
def cfgHead (c : CfgRec) : List Byte :=
  beBytes 4 0x43464731 ++ beBytes 4 c.version ++ beBytes 4 c.parent ++ beBytes 4 c.fw ++ beBytes 4 c.schema ++
    beBytes 8 c.ptc.toNat ++ beBytes 8 c.session.toNat

/-- A byte of a configuration slot (R407): MAGIC to SESSION and NOTE as written; what rests on parameter IDs is
free (log 8). -/
def cfgRecByte (c : CfgRec) (off : Nat) : Byte :=
  if off < 36 then (cfgHead c).getD off 0
  else if 40 ≤ off && off < 104 then (padTo 64 0 (ascii c.note)).getD (off - 40) 0
  else if 104 ≤ off && off < 124 then 0
  else Config.cfgByte c.version off

/-- What the regions hold at an address before descriptors touch them (R401). -/
def typedByte (s : State) (a : Nat) : Byte :=
  if a < 0x40000 then imageByte s.fl.stage1 2 a
  else if a < 0x42000 then logByte 0x424F4F54 s.fl.boot (a - 0x40000)
  else if a < 0x44000 then logByte 0x4A524E4C s.fl.journal (a - 0x42000)
  else if a < 0x46000 then 0xFF
  else if a < 0x47000 then pfByte s.fl.pf1 (a - 0x46000)
  else if a < 0x48000 then pfByte s.fl.pf2 (a - 0x47000)
  else if a < 0x4A000 then logByte 0x4353454C s.fl.select (a - 0x48000)
  else if 0x100000 ≤ a && a < 0x190000 then
    match s.fl.cfgs.find? (fun c => c.place = (a - 0x100000) / 0x10000) with
    | some c => cfgRecByte c ((a - 0x100000) % 0x10000)
    | none => 0xFF
  else if 0x200000 ≤ a && a < 0xA00000 then
    match s.fl.ring.find? (fun e => e.seq % 65536 = (a - 0x200000) / 128) with
    | some e => (evtBytes e).getD ((a - 0x200000) % 128) 0
    | none =>
      match s.fl.ringBad.find? (fun q => q % 65536 = (a - 0x200000) / 128) with
      | some q => Config.tornByte q ((a - 0x200000) % 128)
      | none => 0xFF
  else if 0x2000000 ≤ a && a < 0x3000000 then imageByte s.fl.a 0 (a - 0x2000000)
  else if 0x3000000 ≤ a && a < 0x4000000 then imageByte s.fl.b 1 (a - 0x3000000)
  else 0xFF

/-- A byte of the die as a read gives it: programs turn bits from 1 to 0 only (R393). -/
def flashByte (s : State) (a : Nat) : Byte :=
  let mask := (s.fl.cells.get a) ^^^ 0xFF#8
  if s.fl.blank.contains (a / 4096) then mask else typedByte s a &&& mask

/-! ### The descriptor queue (R398, R399) -/

/-- The sectors that a descriptor touches: first and count. -/
def descSectors (d : Desc) : Nat × Nat :=
  if d.op = 3 || d.op = 4 then (d.faddr / 4096, d.len) else (d.faddr / 4096, (d.faddr % 4096 + d.len + 4095) / 4096)

/-- Whether a sector range meets another, given by addresses. -/
def meets (lo n : Nat) (a b : Nat) : Bool := lo * 4096 < b && a < (lo + n) * 4096

/-- PROTECT (R399): the small logs through the queue, the key store, the running slot and the slot held for fallback,
and the stage-1 region outside a STAGE1 session. -/
def descProtected (s : State) (d : Desc) : Bool :=
  let (lo, n) := descSectors d
  let slot (x : Option Slot) : Bool := match x with
    | some .a => meets lo n 0x2000000 0x3000000
    | some .b => meets lo n 0x3000000 0x4000000
    | none => false
  let stage1Open := (s.svc.upd.map fun u => u.target == .stage1).getD false
  meets lo n 0x40000 0x4A000 || slot (runningSlot s) || slot (heldSlot s) || (meets lo n 0 0x40000 && !stage1Open)

/-- ALIGN (R398): a reserved operation, an address or length out of its limits, or past the end of the die (log 141). -/
def descMisaligned (d : Desc) : Bool :=
  if 0x4000000 < d.faddr + (if d.op = 3 || d.op = 4 then 4096 * d.len else d.len) then true
  else if d.op = 1 || d.op = 2 then d.faddr % 4 ≠ 0 || d.daddr % 4 ≠ 0 || d.len % 4 ≠ 0 || d.len < 4 || 1048576 < d.len
  else if d.op = 3 || d.op = 4 then d.faddr % 4096 ≠ 0 || d.len < 1 || 256 < d.len
  else true

/-- Erases the typed content of a sector: a configuration record or event records in it no longer count. -/
def eraseSector (s : State) (k : Nat) : State :=
  let fl := s.fl
  { s with fl := { fl with
      cfgs := fl.cfgs.filter fun c => !(meets k 1 (0x100000 + 0x10000 * c.place) (0x110000 + 0x10000 * c.place))
      ring := fl.ring.filter fun e => k ≠ 0x200 + e.seq % 65536 / 32
      ringBad := fl.ringBad.filter fun q => k ≠ 0x200 + q % 65536 / 32
      blank := if fl.blank.contains k then fl.blank else fl.blank ++ [k]
      cells := { cells := fl.cells.cells.filter fun c => c.1 / 4096 ≠ k }
      erases := inc fl.erases } }

/-- Programs bytes: bits turn from 1 to 0; a configuration record touched fails its CRC from then on. -/
def programBytes (s : State) (a : Nat) (bs : List Byte) : State :=
  let fl := s.fl
  let cells := (bs.zipIdx).foldl (fun m (b, i) => Mem.set m (a + i) (m.get (a + i) ||| (b ^^^ 0xFF#8))) fl.cells
  let hit (c : CfgRec) : Bool := decide (a < 0x110000 + 0x10000 * c.place ∧ 0x100000 + 0x10000 * c.place < a + bs.length)
  { s with fl := { fl with cells := cells, cfgs := fl.cfgs.filter fun c => !hit c } }

/-- Bytes of the buffer DRAM (R213). -/
def dramSize (s : State) : Nat := if s.pw.gib16 then 0x400000000 else 0x200000000

/-- The blocks of a saddle's stream from the start of its first caddy on (R214): the coded ones of that caddy, the girths that wait for
the coder, and what has landed since. -/
def streamBlocks (s : State) (n : SadNo) : List (List Byte) :=
  let x := s.sad[n]
  let k := (x.caddies.head?.map (·.2)).getD 0
  let dss := (s.med.written.map (·.ds)).filter (fun d => d.sad == n && d.kind == .data) ++ x.closed ++ x.openDs.toList
  let own := dss.flatMap ownGirths
  let coded := (own.drop (own.length - k)).map (·.content)
  let open_ := x.q.entries.flatMap fun e => if e.ended.isNone then e.data else []
  List.replicate (k - coded.length) [] ++ coded ++ x.acked.map (·.content) ++ parts (blockOf s n) (x.blk.bytes ++ open_)

/-- A byte of a saddle's caddy: 16 input blocks at multiples of 4,096 B, in stream order (R214). -/
def saddleByte (s : State) (n : SadNo) (caddy off : Nat) : Option Byte :=
  match s.sad[n].caddies.findIdx? (·.1 = caddy) with
  | some j => ((streamBlocks s n).getD (16 * j + off / 4096) [])[off % 4096]?
  | none => none

/-- A byte of a MEDIA caddy: one SDS, 120 rows of 528 B (R214), header first; the rows of a data set that is on the lanes or on tape
carry the headers they were written with (R265). -/
def mediaByte (s : State) (caddy off : Nat) : Option Byte :=
  let w := (s.med.written ++ s.med.again.toList).find? fun w => w.ds.cads.contains caddy
  let d := (allSads.flatMap fun n => s.sad[n].closed ++ s.sad[n].openDs.toList).find? fun d => d.cads.contains caddy
  match (w.map (·.ds)).or d with
  | none => none
  | some d =>
    let k := d.cads.findIdx (· = caddy)
    let r := off / 528
    if 120 ≤ r then none
    else if off % 528 < 12 then w.bind fun w => (rowHeader w.dsn k 0 r w.ds.sad w.wrap (chanOfRow k r) r)[off % 528]?
    else (((dsRows d).getD k []).getD r [])[off % 528 - 12]?

/-- Where the event log lies in DRAM (R213). -/
def evtBase (s : State) : Nat := s.pool.total * 65536 + 0xA000000

/-- A byte of the buffer DRAM as a reader finds it (R213, R214, R496): what caddies hold, the event log's records of 128 B in a ring, and
beyond them what descriptors wrote (log 137). -/
def dramByte (s : State) (a : Nat) : Byte :=
  let base := s.dram.get a ^^^ dramBase s a
  if a < s.pool.total * 65536 then
    let i := a / 65536
    match (s.pool.caddies.find? (·.idx = i)).bind (·.owner) with
    | none => base
    | some o =>
      if h : o.val < 8 then (saddleByte s ⟨o.val, h⟩ i (a % 65536)).getD base
      else if o = ownMedia then (mediaByte s i (a % 65536)).getD base
      else base
  else if evtBase s ≤ a && a < evtBase s + 0x2000000 then
    let off := a - evtBase s
    match s.evt.ring.find? fun e => e.seq % 262144 = off / 128 with
    | some e => (evtBytes e).getD (off % 128) 0
    | none => base
  else base

/-- Bytes of the buffer DRAM as a reader finds them. -/
def dramView (s : State) (a len : Nat) : List Byte := (List.range len).map fun i => dramByte s (a + i)

/-- The result of running a descriptor: status, first failing address, and the state. `fails` is the first failing
flash address, and whether it timed out. -/
def runDesc (s : State) (d : Desc) (fails : Option (Nat × Bool)) : Nat × Nat × State :=
  if descMisaligned d then (2, d.faddr, s)
  else if descProtected s d then (1, d.faddr, s)
  else
    let op := if d.op = 3 then 0 else if d.op = 2 then 1 else 2
    match fails with
    | some (a, timeout) => if d.op = 1 then (3, a, s) else (if timeout then 4 else 3, a, flashFail s a op)
    | none =>
      match d.op with
      | 1 => (0, 0, dramWrite s d.daddr ((List.range d.len).map fun i => flashByte s (d.faddr + i)))
      | 2 =>
        let bs := dramView s d.daddr d.len
        let t := programBytes s d.faddr bs
        match bs.zipIdx.find? fun (b, i) => flashByte t (d.faddr + i) != b with
        | some (_, i) => let a := d.faddr + i / 4 * 4; (3, a, flashFail t a 2)
        | none => (0, 0, t)
      | 3 => (0, 0, (List.range d.len).foldl (fun s i => let k := d.faddr / 4096 + i; eraseSector (journaled s k) k) s)
      | _ =>
        match (List.range (4096 * d.len)).find? fun i => flashByte s (d.faddr + i) != 0xFF with
        | some i => (3, d.faddr + i / 4 * 4, s)
        | none => (0, 0, s)

/-- The first pending descriptor (R398: they run in order). -/
def firstPending (s : State) : Option Nat := s.fl.queue.findIdx? (·.status = 0xFF)

/-- Fills the queue with the update session's further descriptors (R398, R400). -/
def refillQueue (s : State) : State :=
  match s.svc.upd with
  | some u =>
    let kept := s.fl.queue.filter (·.status = 0xFF)
    let room := 16 - kept.length
    { s with fl := { s.fl with queue := kept ++ u.work.take room },
             svc := { s.svc with upd := some { u with work := u.work.drop room } } }
  | none => s

/-- The admin command that waits for flash work. -/
def flashCommand (s : State) : Option Entry :=
  s.adm.entries.find? fun e => e.ended.isNone && e.begun && (match e.verb with
    | .commit _ | .updateBegin .. | .updateData .. | .updateDma .. => true
    | _ => false)

/-- An update command ends once its descriptors are done, or fails with the first that did not (R206, R394). -/
def updateProgress (s : State) : State :=
  match flashCommand s with
  | some e =>
    match e.verb with
    | .updateData .. | .updateDma .. =>
      if s.fl.queue.any (fun d => d.status ≠ 0xFF && d.status ≠ 0) then
        let s := { s with svc := { s.svc with upd := none, updState := 2 }, fl := { s.fl with queue := [] } }
        complete s .adm e.tag (failWhy .fault "internal")
      else if (s.svc.upd.map fun u => u.work.isEmpty).getD true && s.fl.queue.all (·.status = 0) then
        complete s .adm e.tag { status := .ok, fields := [fnum "off" s.svc.nextOff] }
      else refillQueue s
    | _ => s
  | none => s

/-- FLASH_DESCRIPTOR (R398, R399): the controller executes descriptor `i`, the first that is pending, and writes back
its status. A DADDR range outside the buffer DRAM faults: the spec gives that address no existence. -/
def execFlashDescriptor (i : Fin 16) (fails : Option (Nat × Bool)) (s : State) : Host.Outcome State Fault Refusal :=
  match live s && s.fl.queueOpen && firstPending s == some i.val, s.fl.queue[i.val]? with
  | true, some d =>
    if (d.op = 1 || d.op = 2) && !descMisaligned d && dramSize s < d.daddr + d.len then .fault (.dramHole d.daddr)
    else
      act s fun s =>
        let (st, ea, s) := runDesc s d fails
        updateProgress { s with fl := { s.fl with queue := s.fl.queue.set i.val { d with status := st, erraddr := ea } } }
  | _, _ => fin s s

/-- FLASH_ACCESS (R396): an access from outside the boot ROM is refused with a bus error and logged. -/
def execFlashAccess (pcInRom : Bool) (addr : Nat) (s : State) : Host.Outcome State Fault Refusal :=
  actIf s (!pcInRom) fun t => logE t .error srcChip 0x0802 [("addr", 4, addr)]

/-- FLASH_READ_SUSPEND (R395): a read suspends the erase that runs, or waits until it has run long enough. -/
def execFlashReadSuspend (s : State) : Host.Outcome State Fault Refusal :=
  actIf s (s.fl.erasing.isSome && !s.fl.suspended) fun t =>
    if maySuspend t then { t with fl := { t.fl with suspended := true } } else { t with fl := { t.fl with readWaits := true } }

/-! ### Configuration versions (R407-R410) -/

/-- Values of the parameters that persist through COMMIT, as the version in force and the uncommitted SETs give them. -/
def commitBody (s : State) : List (Param × PVal) :=
  s.cfg.uncommitted.foldl (fun l (p, v) => put p v l) s.cfg.committed

/-- The highest valid version. -/
def topVersion (s : State) : Nat := maxL (s.fl.cfgs.map (·.version))

/-- The first free slot of the configuration region. -/
def freePlace (s : State) : Nat :=
  ((List.range 9).find? fun k => s.fl.cfgs.all fun c => c.place ≠ k).getD 8

/-- COMMIT's steps 2 to 6 (R408): the record, CFGSEL, the reply, and the erase of the next spare. -/
def finishCommit (s : State) (e : Entry) (note : String) : State :=
  let v := topVersion s + 1
  let run := (runningSlot s).getD .a
  let rec_ : CfgRec := {
    version := v, parent := s.cfg.version, fw := imgVersion (imageOf s run) (slotNo run),
    schema := imgSchema (imageOf s run) (slotNo run), ptc := s.clk.ptc, session := s.clk.session, note := note,
    body := commitBody s, place := freePlace s }
  let s := { s with fl := { s.fl with cfgs := s.fl.cfgs ++ [rec_] } }
  let s := appendLog s .select { type := 0x20, arg := 0, value := v }
  let s := { s with cfg := { s.cfg with committed := rec_.body, uncommitted := [], version := v, parent := rec_.parent } }
  let s := complete s .adm e.tag { status := .ok, fields := [fnum "cfg" v, fnum "parent" rec_.parent] }
  if 9 ≤ s.fl.cfgs.length then
    let low := (s.fl.cfgs.filter fun c => c.version ≠ v).foldl (fun b c => min b c.version) v
    match s.fl.cfgs.find? fun c => c.version = low with
    | some c =>
      let s := { s with fl := { s.fl with cfgs := s.fl.cfgs.filter fun d => d.version ≠ low } }
      (List.range 16).foldl (fun s i => startErase s (0x100 + 16 * c.place + i)) s
    | none => s
  else s

/-- A record that could not be programmed leaves the spare slot to be erased before the next COMMIT (R408; log 143). -/
def blankSpare (s : State) : State := (List.range 16).foldl (fun s i => startErase s (0x100 + 16 * freePlace s + i)) s

/-- COMMIT waits until no erase runs, then programs (R408). -/
def commitStart (s : State) : State :=
  if flashBusy s then s else { s with fl := { s.fl with opRun := some .program } }

/-- A sector of the power-fail log that has been erased holds no record (R406). -/
def sectorErased (s : State) (k : Nat) : State :=
  if k = 0x46 then { s with fl := { s.fl with pf1 := [], pfDirty := [false, s.fl.pfDirty.getD 1 false] } }
  else if k = 0x47 then { s with fl := { s.fl with pf2 := [], pfDirty := [s.fl.pfDirty.getD 0 false, false] } }
  else s

/-- FLASH_OP_COMPLETE (R394, R403, R408, R414): the erase or program that runs has ended or failed. -/
def flashOpComplete (op : FlashOpKind) (ok : Bool) (addr : Nat) (s : State) : State :=
  let code := match op with
    | .erase => 0
    | .program => 1
    | .verify => 2
  let s := if ok then s else flashFail s addr code
  let cmd := flashCommand s
  match op, s.fl.erasing with
  | .erase, some k =>
    let s := { s with fl := { s.fl with erasing := none, suspended := false, erases := inc s.fl.erases } }
    let s := if ok then sectorErased (appendLog s .journal { type := 0x02, arg := 0, value := k }) k else s
    let s := match s.fl.todo with
      | n :: t => startErase { s with fl := { s.fl with todo := t } } n
      | [] => s
    match cmd with
    | some e =>
      match e.verb with
      | .updateBegin t len =>
        if !ok then
          complete { s with svc := { s.svc with upd := none, updState := 2 }, fl := { s.fl with todo := [] } } .adm e.tag (failWhy .fault "internal")
        else if s.fl.erasing.isNone then
          complete s .adm e.tag { status := .ok, fields :=
            [fld "target" (match t with
              | .a => "A"
              | .b => "B"
              | .stage1 => "STAGE1"), fnum "len" len] }
        else s
      | .commit _ => commitStart s
      | _ => s
    | none => s
  | .erase, none => s
  | _, _ =>
    if s.fl.opRun.isNone then s
    else
      let s := { s with fl := { s.fl with opRun := none } }
      match cmd with
      | some e =>
        match e.verb with
        | .commit note => if ok then finishCommit s e note else complete (blankSpare s) .adm e.tag (failWhy .fault "internal")
        | _ => s
      | none => s

/-- FLASH_OP_COMPLETE. -/
def execFlashOpComplete (op : FlashOpKind) (ok : Bool) (addr : Nat) (s : State) : Host.Outcome State Fault Refusal :=
  actIf s (flashBusy s) (flashOpComplete op ok addr)

/-- The version in force (R409): the newest CFGSEL's. -/
def selVersion (s : State) : Nat := ((s.fl.select.entries.getLast?).map (·.value)).getD 0

/-- The newest valid record that the image's schema can load (R410). -/
def newestFor (s : State) (schema : Nat) (p : CfgRec → Bool) : Option CfgRec :=
  (s.fl.cfgs.filter fun c => c.schema ≤ schema && p c).foldl (fun b c => match b with
    | some d => if d.version < c.version then some c else b
    | none => some c) none

/-- Puts a record's values in force; parameters that it lacks take the defaults (R410). -/
def loadRecord (s : State) (c : Option CfgRec) : State :=
  { s with cfg := { s.cfg with
      committed := (c.map (·.body)).getD [], uncommitted := [], version := (c.map (·.version)).getD 0,
      parent := (c.map (·.parent)).getD 0 } }

/-- CONFIG_LOAD (R409, R410) for the image of a slot. -/
def configLoad (s : State) (x : Slot) : State :=
  let schema := imgSchema (imageOf s x) (slotNo x)
  let v := selVersion s
  match s.fl.cfgs.find? fun c => c.version = v with
  | some c =>
    if c.schema ≤ schema then loadRecord { s with fw := { s.fw with defaults := false } } (some c)
    else
      match newestFor s schema fun _ => true with
      | some d =>
        let s := appendLog s .select { type := 0x20, arg := 3, value := d.version }
        let s := logE s .warn srcChip 0x0805 [("from", 4, v), ("to", 4, d.version)]
        loadRecord { s with fw := { s.fw with defaults := false } } (some d)
      | none =>
        loadRecord (appendLog { s with fw := { s.fw with defaults := true } } .select { type := 0x20, arg := 3, value := 0 }) none
  | none =>
    if v = 0 && !s.fl.select.entries.isEmpty then loadRecord { s with fw := { s.fw with defaults := false } } none
    else
      match newestFor s schema fun _ => true with
      | some d =>
        let s := appendLog s .select { type := 0x20, arg := 3, value := d.version }
        let s := logE s .warn srcChip 0x0805 [("from", 4, v), ("to", 4, d.version)]
        loadRecord { s with fw := { s.fw with defaults := false } } (some d)
      | none =>
        let s := if s.fl.select.entries.isEmpty then s else { s with fw := { s.fw with defaults := true } }
        loadRecord (appendLog s .select { type := 0x20, arg := 3, value := 0 }) none

/-! ### Trial and confirmation (R418-R420) -/

/-- TRIAL_MARK (R419): the next MARK, and EXPIRED after the tenth. -/
def trialMark (s : State) : State :=
  let k := s.fw.marks + 1
  let s := appendLog s .boot { type := 0x12, arg := k, value := 0 }
  let s := { s with fw := { s.fw with marks := k } }
  if k < 10 then s
  else
    let slot := (runningSlot s).getD .a
    let s := appendLog s .boot { type := 0x14, arg := slotNo slot, value := 0 }
    logE { s with fw := { s.fw with expired := true } } .error srcChip 0x0807 [("slot", 1, slotNo slot)]

/-- TRIAL_MARK. -/
def execTrialMark (s : State) : Host.Outcome State Fault Refusal :=
  actIf s (s.fw.trial && !s.fw.expired && s.fw.marks < 10) trialMark

/-- The conditions under which a trial image confirms itself (R420). -/
def mayConfirm (s : State) : Bool :=
  s.fw.trial && !s.fw.expired && s.pw.devReady && !s.fw.defaults && pnat s .healthTicks ≤ s.fw.health

/-- FW_CONFIRM (R420). -/
def fwConfirm (s : State) : State :=
  let slot := (runningSlot s).getD .a
  let v := imgVersion (imageOf s slot) (slotNo slot)
  let s := appendLog s .boot { type := 0x13, arg := slotNo slot, value := v }
  let s := { s with fw := { s.fw with trial := false, confirmed := true } }
  logE s .info srcChip 0x0808 [("slot", 1, slotNo slot), ("fw", 4, v)]

/-- FW_CONFIRM. -/
def execFwConfirm (s : State) : Host.Outcome State Fault Refusal := actIf s (mayConfirm s) fwConfirm

end Sys2Proof.Machine
end

