-- ==== Sys2Proof/Machine/Loops.lean ====
section
/-! DEFINITION. The tick source (R7-R14), overruns (R23-R25), the adaptive voltage loop (R44-R52), the
control-cluster clock (R53-R54) and the temperature limits (R56). -/

namespace Sys2Proof.Machine

open Sys2Proof

/-! ### The tick source -/

/-- Periods lie within ±0.1 % of one another (R8). -/
def consistent (l : List Nat) : Bool := l.all fun a => l.all fun b => 1000 * a ≤ 1001 * b

/-- An FTICK period that may be locked to (R8, R12). -/
def inFtickRange (p : Nat) : Bool := 50000 ≤ p && p ≤ 200000

/-- A TICK_SLEW record: start or end, with the period in force (R14). -/
def logSlew (s : State) (st : Nat) : State := logE s .info srcChip 0x0101 [("st", 1, st), ("period_ns", 4, s.tk.periodNs)]

/-- A TICK_FLYWHEEL record: enter or leave (R14). -/
def logFlywheel (s : State) (st : Nat) : State := logE s .warn srcChip 0x0102 [("st", 1, st), ("period_ns", 4, s.tk.periodNs)]

/-- The newest edges of a run that fit a period and one another (R8). -/
def fitRun (p : Nat) : List Nat → List Nat
  | [] => [p]
  | l => ((List.range l.length).map fun k => p :: l.take (l.length - k)).find? consistent |>.getD [p]

/-- Slews toward a period and a phase (R11, R14); a tick that is already there stays. -/
def slewTo (s : State) (p : Nat) (phase : Int) : State :=
  if s.tk.periodNs = p && phase = 0 then { s with tk := { s.tk with target := some p } }
  else
    let t := { s with tk := { s.tk with target := some p, phase := phase, slewing := true } }
    if s.tk.slewing then t else logSlew t 0

/-- The part goes on from the crystal at the last locked period (R10), which takes effect at the boundary (R6): a slew under way
ends, with its record, and FLYWHEEL is set and logged, each with the period in force from then on (R14). -/
def ftickMissing (s : State) : State :=
  let p := s.tk.lastLocked.getD s.tk.periodNs
  let rec_ (st : Nat) : List (String × Nat × Nat) := [("st", 1, st), ("period_ns", 4, p)]
  let s := if s.tk.slewing then logE { s with tk := { s.tk with slewing := false } } .info srcChip 0x0101 (rec_ 1) else s
  logE { s with tk := { s.tk with locked := false, flywheel := true, run := [], periodPend := some p, target := none, phase := 0 } }
    .warn srcChip 0x0102 (rec_ 0)

/-- FTICK_EDGE (R8, R11, R12, R475): an accepted edge with the period since the edge before it, and how far the tick boundary lies
from its place behind the edge. With INTERNAL selected FTICK is ignored altogether (R475). A period out of range sets RANGE and is
not locked to; one that comes while FTICK is locked is a lock lost, and the tick goes on as R10 states (log 119). -/
def ftickEdge (p : Nat) (phase : Int) (s : State) : State :=
  if !s.tk.ftick then s
  else if !inFtickRange p then
    let s := { s with tk := { s.tk with range := true, run := [] } }
    if s.tk.locked then ftickMissing s else s
  else if s.tk.locked then
    let changed := s.tk.target != some p
    let s := { s with tk := { s.tk with lastLocked := some p } }
    if changed || phase ≠ 0 then slewTo s p phase else s
  else
    let run := (fitRun p s.tk.run).take 8
    if run.length < 8 then { s with tk := { s.tk with run := run } }
    else
      let fly := s.tk.flywheel
      let s := { s with tk := { s.tk with run := run, locked := true, flywheel := false, lastLocked := some p } }
      slewTo (if fly then logFlywheel s 1 else s) p phase

/-- FTICK_EDGE. -/
def execFtickEdge (periodNs : Nat) (phaseNs : Int) (s : State) : Host.Outcome State Fault Refusal :=
  act s (ftickEdge periodNs phaseNs)

/-- FTICK_MISSING. -/
def execFtickMissing (s : State) : Host.Outcome State Fault Refusal := actIf s (s.tk.ftick && s.tk.locked) ftickMissing

/-- Moves a value toward another by at most a step. -/
def approach (a b step : Int) : Int := if a < b then min b (a + step) else max b (a - step)

/-- A period in 10⁻⁶ ns, the unit in which a slew counts (R11). -/
def periodFine (s : State) : Nat := 1000000 * s.tk.periodNs + s.tk.frac

/-- The phase that a tick of a period works off (R11): at most a step, and no more than leaves the tick between 50.0 µs and 200.0 µs.
Where no tick may be shorter, or longer, the boundary goes the other way round to the edge's place (log 41). -/
def phaseStep (period ph step : Int) : Int :=
  if 0 < ph then
    if period ≤ 50000 then approach (ph - period) 0 (min step (200000 - period)) else approach ph 0 (min step (period - 50000))
  else if ph < 0 then
    if 200000 ≤ period then approach (ph + period) 0 (min step (period - 50000)) else approach ph 0 (min step (200000 - period))
  else 0

/-- The slew's step at a boundary (R11): first the period, by at most 0.5 % of it, then the phase; at the end a record (R14). A
period that a missing edge left pending takes effect first (R6, R10). -/
def slewStep (s : State) : State :=
  let s := match s.tk.periodPend with
    | some p => { s with tk := { s.tk with periodNs := p, frac := 0, periodPend := none } }
    | none => s
  match s.tk.slewing, s.tk.target with
  | true, some p =>
    let f := periodFine s
    let q := approach f (1000000 * (p : Int)) (f / 200 : Nat)
    let q := (max 50000000000 (min 200000000000 q)).toNat
    let there := decide (q = 1000000 * p)
    let ph := if there then phaseStep p s.tk.phase ((p * 5 / 1000 : Nat) : Int) else s.tk.phase
    let s := { s with tk := { s.tk with periodNs := q / 1000000, frac := q % 1000000, phase := ph } }
    if there && ph = 0 then logSlew { s with tk := { s.tk with slewing := false } } 1 else s
  | _, _ => s

/-- A new tick source (R9, R13, R14): a slew and a flywheel end; nothing is locked; ticks run at 100.0 µs from the crystal, or at the last locked
period while FTICK is selected and not locked. -/
def selectSource (s : State) (ftick : Bool) : State :=
  if s.tk.ftick = ftick then s
  else
    let t := { s with tk := { s.tk with
      ftick := ftick, run := [], locked := false, flywheel := false, target := none, phase := 0, slewing := false, frac := 0,
      periodPend := none, periodNs := if ftick then s.tk.lastLocked.getD 100000 else 100000 } }
    let t := if s.tk.slewing then logSlew t 1 else t
    if s.tk.flywheel then logFlywheel t 1 else t

/-- What a core restart leaves of the tick source (R9, R14, TICK_STAT's "Kept over"): the lock, the flywheel and the slew end with
their records, the count of consecutive overruns starts over, and unlocked ticks run at the last locked period while FTICK is selected.
TICK_PERIOD is kept otherwise. A restart in the middle of a slew ends at the last locked period too (log 120). -/
def restartTick (s : State) : State :=
  let p := if s.tk.ftick then s.tk.lastLocked.getD 100000 else s.tk.periodNs
  let t := { s with tk := { s.tk with
    run := [], locked := false, flywheel := false, range := false, slewing := false, target := none, phase := 0, ovrRun := 0
    periodPend := if p = s.tk.periodNs && s.tk.frac = 0 then none else some p } }
  let rec_ (st : Nat) : List (String × Nat × Nat) := [("st", 1, st), ("period_ns", 4, p)]
  let t := if s.tk.slewing then logE t .info srcChip 0x0101 (rec_ 1) else t
  if s.tk.flywheel then logE t .warn srcChip 0x0102 (rec_ 1) else t

/-- TICK_OVERRUN (R23, R25): counts an overrun of the tick that closes; the third in a row requests HALT. -/
def countOverrun (ovr : Bool) (s : State) : State :=
  if ovr then
    let run := s.tk.ovrRun + 1
    let s := { s with tk := { s.tk with ovr := inc s.tk.ovr, ovrRun := run } }
    let s := logE s .warn srcChip 0x0103 [("run", 1, min run 3)]
    if 3 ≤ run then haltRequest { s with tk := { s.tk with ovrRun := 0 } } .overrun else s
  else { s with tk := { s.tk with ovrRun := 0 } }

/-! ### Voltage and frequency -/

/-- Clamps a setpoint to the floor and ceiling (R45). -/
def avsClamp (s : State) (v : Int) : Nat := (max (pint s .avsFloor) (min (pint s .avsCeiling) v)).toNat

/-- Whether the voltage loop may write setpoints (R49, R50). -/
def avsLive (s : State) : Bool := s.pw.avs.enabled && !s.pw.avs.offBit && !s.pw.avs.frozen && pbool s .avsEnable

/-- Writes a setpoint over PMBus (R44). -/
def avsWrite (s : State) (v : Nat) : State :=
  if v = s.pw.avs.vset then s
  else { s with pw := { s.pw with avs := { s.pw.avs with vset := v, wrote := true } }, out := { s.out with pmbus := some v } }

/-- Raises the setpoint by steps of 5 mV (R46, R52). -/
def avsRaise (s : State) (steps : Nat) : State :=
  if avsLive s then avsWrite s (avsClamp s (s.pw.avs.vset + 5 * steps)) else s

/-- The control cluster's frequencies (R53). -/
def clkMhz (c : Nat) : Nat := 600 + 150 * min c 4

/-- The highest CLK code allowed now: 900 MHz under THERM_WARN, no raise under CEIL (R48, R56). -/
def clkCap (s : State) (c : Nat) : Nat :=
  let c := if s.pw.avs.ceil then min c s.pw.clk else c
  if s.pw.thermCap then min c 2 else min c 4

/-- The voltage short of its target at the ceiling, or at the last confirmed setpoint of a frozen loop: HALT VCORE comes at
600 MHz with a critical margin; otherwise the frequency falls one step at the next boundary (R48, R49, R54). -/
def avsShort (s : State) (m : Int) : State :=
  let s := { s with pw := { s.pw with avs := { s.pw.avs with ceil := true } } }
  let clk := s.pw.clk - s.pw.clkDown
  if m < 100 && clk = 0 then haltRequest s .vcore
  else
    let s := { s with pw := { s.pw with clkDown := min s.pw.clk (s.pw.clkDown + 1) } }
    logE s .warn srcChip 0x0109 [("mhz", 2, clkMhz (clk - 1))]

/-- One update of the voltage loop (R45, R47-R49): margin in hundredths of a percent, how many of the update's tries
failed, and READ_VOUT in mV. -/
def avsUpdate (m : Int) (failed mv : Nat) (s : State) : State :=
  let t : Int := 10 * pint s .avsMarginPct
  let short := m < t - 150
  let a := s.pw.avs
  -- readback (R47): after a mismatch the next update reads back too, so that two in a row can be seen (log 121)
  let s := if a.wrote && failed < 4 then
      let bad := decide (15 < ((mv : Int) - a.vset).natAbs)
      let run := if bad then a.misRun + 1 else 0
      let s := { s with pw := { s.pw with avs := { a with
        wrote := bad, misRun := run, confirmed := if bad then a.confirmed else a.vset, failRun := 0 } } }
      if run = 2 then logE s .warn srcChip 0x0108 [("set_mv", 2, a.vset), ("read_mv", 2, mv)] else s
    else s
  -- lost bus (R49)
  let s := if 4 ≤ failed then
      let run := s.pw.avs.failRun + 1
      let s := { s with pw := { s.pw with avs := { s.pw.avs with failRun := run } } }
      if run = 3 then
        logE { s with pw := { s.pw with avs := { s.pw.avs with frozen := true, offBit := true, vset := s.pw.avs.confirmed } } }
          .error srcChip 0x010A [("mv", 2, s.pw.avs.confirmed)]
      else s
    else { s with pw := { s.pw with avs := { s.pw.avs with failRun := 0 } } }
  let atCeil : Bool := decide (pnat s .avsCeiling ≤ s.pw.avs.vset) || s.pw.avs.frozen
  if short && atCeil then avsShort s m
  else
    let s := { s with pw := { s.pw with avs := { s.pw.avs with ceil := false } } }
    if 4 ≤ failed || !avsLive s then s
    else if short then avsWrite s (avsClamp s (s.pw.avs.vset + 5 * min 8 ((t - m + 149) / 150)))
    else if t + 150 < m then avsWrite s (avsClamp s ((s.pw.avs.vset : Int) - 5))
    else s

/-- The voltage loop's update is due: it runs, and 16 ticks have passed since the one before it (R44). -/
def avsDue (s : State) : Bool :=
  (s.pw.avs.enabled && !s.pw.avs.offBit || s.pw.avs.frozen) && decide (s.pw.avs.last.toNat + 16 ≤ now s)

/-- AVS_UPDATE (R44): every 16 ticks. -/
def execAvsUpdate (margin : Int) (failedTries readMv : Nat) (s : State) : Host.Outcome State Fault Refusal :=
  actIf s (avsDue s) fun s =>
    avsUpdate margin failedTries readMv { s with pw := { s.pw with avs := { s.pw.avs with last := s.clk.ptc } } }

/-- Whether the voltage can rise no further: the setpoint is at the ceiling, or the loop is frozen (R48, R49). -/
def avsAtTop (s : State) : Bool := s.pw.avs.frozen || decide (pnat s .avsCeiling ≤ s.pw.avs.vset)

/-- VCORE_HALT (R48): a critical margin in the tick that closes, with the voltage at its top and the clock at 600 MHz. -/
def avsCheck (m : Int) (s : State) : State :=
  let s := { s with pw := { s.pw with avs := { s.pw.avs with critical := decide (m < 100) } } }
  if m < 100 && s.pw.avs.enabled && avsAtTop s && s.pw.clk = 0 then haltRequest s .vcore else s

/-- AVS_MARGIN_CRITICAL (R46): a margin below 1.0 % raises the setpoint by 8 steps at the boundary. At the ceiling there is nothing
to raise, and the frequency waits for the update (R48); a frozen loop acts through frequency (R49). -/
def avsCritical (m : Int) (s : State) : State :=
  if m < 100 && s.pw.avs.enabled then
    if s.pw.avs.frozen then (if s.pw.clk = 0 then s else avsShort s m) else avsRaise s 8
  else s

/-- CLK_STEP (R48, R53, R54, R56): the clock's step at a boundary, from the busy shares of the last 64 ticks, the one that closes
among them; steps down that the voltage loop asked for come first. -/
def clkStep (busy : Nat) (ovr : Bool) (s : State) : State :=
  let h := (busy :: s.pw.busy).take 64
  let s := { s with pw := { s.pw with busy := h, clk := s.pw.clk - s.pw.clkDown, clkDown := 0 } }
  let atClk (c : Nat) : State := { s with pw := { s.pw with clk := clkCap s c } }
  if pnat s .clkPolicy == 1 then atClk (pnat s .clkFixedMhz)
  else if ovr then atClk 4
  else if 16 ≤ h.length && 16 * 70 < sumL (h.take 16) then atClk (s.pw.clk + 1)
  else if h.length = 64 && h.all (· < 35) then atClk (s.pw.clk - 1)
  else atClk s.pw.clk

/-- THERM_WARN (R54, R56, R492): the temperature read; 105 °C warns and caps the clock from the next boundary on, 115 °C is HALT
with cause THERMAL. -/
def thermWarn (tj : Int) (s : State) : State :=
  let s := { s with pw := { s.pw with tj := tj } }
  let s := if 105 ≤ tj then
      let t := { s with pw := { s.pw with thermCap := true } }
      if s.pw.thermCap then t else logE t .warn srcChip 0x010C [("tj", 1, twos 8 tj)]
    else s
  if 115 ≤ tj then haltRequest { s with pw := { s.pw with thermHold := true } } .thermal else s

/-- THERM_WARN. -/
def execThermWarn (tj : Int) (s : State) : Host.Outcome State Fault Refusal := act s (thermWarn tj)

/-- THERMAL_CAUSE_CLEARED (R42): below 100 °C a THERMAL cause has cleared, and the cap of R56 ends. -/
def thermalCleared (tj : Int) (s : State) : State :=
  let s := { s with pw := { s.pw with tj := tj } }
  if tj < 100 then { s with pw := { s.pw with thermHold := false, thermCap := false } } else s

/-- THERMAL_CAUSE_CLEARED. -/
def execThermalCauseCleared (tj : Int) (s : State) : Host.Outcome State Fault Refusal := act s (thermalCleared tj)

/-- XTAL_LOST (R487, R489): HALT with cause XTAL; ticks go on from the backup oscillator. -/
def execXtalLost (s : State) : Host.Outcome State Fault Refusal :=
  act s fun t => haltRequest { t with pw := { t.pw with xtalHold := true } } .xtal

/-- CRYSTAL_RETURN (R42): the XTAL cause has cleared. -/
def execCrystalReturn (s : State) : Host.Outcome State Fault Refusal :=
  act s fun t => { t with pw := { t.pw with xtalHold := false } }

/-- FIRMWARE_ASSERTION: HALT with cause FIRMWARE (R40). -/
def execFirmwareAssertion (s : State) : Host.Outcome State Fault Refusal := act s fun t => haltRequest t .firmware

end Sys2Proof.Machine
end

