-- ==== Sys2Proof/Machine/CartMem.lean ====
section
/-! DEFINITION. The layout of cartridge memory (R391): the directory copies, the epoch ring and the session-log
ring, and how the TF64 reads and writes them. -/

namespace Sys2Proof.Machine

open Sys2Proof

/-- A directory copy's fields (R391). -/
structure Dir where
  seq : Nat
  opened : Bool
  loads : Nat
  cfg : Nat
  eod : Nat
  openSession : Nat
  epochs : Nat
  logs : Nat
  nextSeq : List Nat
  lastDsn : List Nat
  wraps : List Nat
  metres : Nat
deriving DecidableEq, Repr, Inhabited

/-- A directory copy's 2,048 bytes (R391). -/
def dirBytes (d : Dir) : List Byte :=
  let body := beBytes 4 0x56444952 ++ beBytes 4 d.seq ++ [if d.opened then 1 else 0, 0, 0, 0] ++ beBytes 4 d.loads ++
    beBytes 4 d.cfg ++ beBytes 4 d.eod ++ beBytes 8 d.openSession ++ beBytes 4 d.epochs ++ beBytes 4 d.logs ++
    (List.range 8).flatMap (fun i => beBytes 5 (d.nextSeq.getD i 0) ++ beBytes 4 (d.lastDsn.getD i 0) ++ beBytes 7 0) ++
    (List.range 192).flatMap (fun i => beBytes 4 (d.wraps.getD i 0)) ++ beBytes 8 d.metres
  withCrc32 (padTo 2044 0 body)

/-- A directory copy read back; none when it is invalid (R391). -/
def parseDir (l : List Byte) : Option Dir :=
  let st := beField l 8 1
  if l.length ≠ 2048 || beField l 2044 4 ≠ (crc32 (l.take 2044)).toNat || beField l 0 4 ≠ 0x56444952 || 1 < st then none
  else some {
    seq := beField l 4 4, opened := st = 1, loads := beField l 12 4, cfg := beField l 16 4, eod := beField l 20 4,
    openSession := beField l 24 8, epochs := beField l 32 4, logs := beField l 36 4,
    nextSeq := (List.range 8).map fun i => beField l (40 + 16 * i) 5,
    lastDsn := (List.range 8).map fun i => beField l (45 + 16 * i) 4,
    wraps := (List.range 192).map fun i => beField l (168 + 4 * i) 4,
    metres := beField l 936 8 }

/-- Directory copies in cartridge memory: A at 0x0100, B at 0x0900. -/
def dirAt (second : Bool) : Nat := if second then 0x900 else 0x100

/-- The copy in force: the valid one with the higher SEQ, and which it is (R391). -/
def dirInForce (m : Mem) : Option (Dir × Bool) :=
  match parseDir (m.read 0x100 2048), parseDir (m.read 0x900 2048) with
  | some a, some b => some (if a.seq < b.seq then (b, true) else (a, false))
  | some a, none => some (a, false)
  | none, some b => some (b, true)
  | none, none => none

/-- The directory as the TF64 holds it now. -/
def dirNow (s : State) (opened : Bool) : Dir := {
  seq := s.cart.seqDir + 1, opened := opened, loads := s.cart.loads, cfg := s.cfg.version, eod := s.cart.eodDsn,
  openSession := if opened then s.cart.openSession.toNat else 0, epochs := s.cart.epochsN, logs := s.cart.logsN,
  nextSeq := s.med.nextSeq.toList, lastDsn := s.med.lastDsn.toList, wraps := s.med.wrapFirst, metres := s.cart.metres + s.cart.passed / 3000000000 }

/-- A ring record: SEQ, its 26 bytes, and the CRC-16 (R391). -/
def ringRecord (seq : Nat) (b : List Byte) : List Byte :=
  let r := beBytes 4 seq ++ padTo 26 0 b
  r ++ beBytes 2 (crc16 r).toNat

/-- A valid ring record: SEQ and its 26 bytes. -/
def parseRing (r : List Byte) : Option (Nat × List Byte) :=
  if r.length = 32 && beField r 30 2 = (crc16 (r.take 30)).toNat then some (beField r 0 4, slice r 4 26) else none

/-- Writes the records held in RAM to the two rings (R383, R391). -/
def writeHeld (s : State) : State :=
  let ep := s.cart.heldEpochs.foldl (fun (mn : Mem × Nat) r =>
    (mn.1.put (0x1100 + 32 * (mn.2 % 504)) (ringRecord mn.2 r), mn.2 + 1)) (s.cart.mem, s.cart.epochsN)
  let lg := s.cart.heldLogs.foldl (fun (mn : Mem × Nat) r =>
    (mn.1.put (0x5000 + 32 * (mn.2 % 384)) (ringRecord mn.2 r), mn.2 + 1)) (ep.1, s.cart.logsN)
  { s with cart := { s.cart with mem := lg.1, epochsN := ep.2, logsN := lg.2, heldEpochs := [], heldLogs := [] } }

/-- Writes a directory into the copy not in force, with SEQ one higher (R391). -/
def putDir (s : State) (d : Dir) : State :=
  let second := !s.cart.copyB
  { s with cart := { s.cart with
      mem := s.cart.mem.put (dirAt second) (dirBytes { d with seq := s.cart.seqDir + 1 })
      seqDir := s.cart.seqDir + 1, copyB := second, opened := d.opened } }

/-- Writes the directory as the TF64 holds it. -/
def writeDir (s : State) (opened : Bool) : State :=
  let s := writeHeld s
  putDir s (dirNow s opened)

/-- The directory that REPAIR writes (R179): the CLOSED one with the facts of the tail data set that ends the recording; where no
tail ends it, the facts in force, whose tail is overwritten or was never written (log 23). -/
def repairDir (s : State) : Dir :=
  match s.cart.tail.bind fun (b, d) => (parseDir b).map fun x => (x, d) with
  | some (x, d) => { dirNow s false with eod := d, nextSeq := x.nextSeq, lastDsn := x.lastDsn, wraps := x.wraps }
  | none => dirNow s s.cart.marked

/-- A cartridge-memory operation waits while an external field is present: the next try comes after `cm.backoff_ticks`
ticks and 0 to 3 more from the entropy source (R390). -/
def cmDefer (s : State) : State :=
  let (k, s) := draw s
  { s with cart := { s.cart with
      cmWait := some (s.cart.cmWait.getD s.clk.ptc), cmDue := now s + pnat s .cmBackoff + Config.entropy k % 4 } }

/-- An epoch record's 26 bytes (R391). -/
def epochRecord (s : State) (p : Plait) (dsn : Nat) : List Byte :=
  beBytes 4 p.epoch ++ beBytes 4 dsn ++ beBytes 2 (if p.flush then 0 else p.slots.length) ++
    beBytes 1 (if p.flush then 2 else if p.manual then 1 else 0) ++ [0] ++ beBytes 8 s.clk.session.toNat ++ beBytes 6 0

/-- The tail data set's bytes: the CLOSED directory image and the epoch records of the open recording (R392). -/
def tailBlock (s : State) : List Byte :=
  dirBytes (dirNow s false) ++ (s.cart.heldEpochs.zipIdx.flatMap fun (r, i) => ringRecord (s.cart.epochsN + i) r)

/-- Bytes of cartridge memory. -/
def cmBytes : Nat := 0x8000

end Sys2Proof.Machine
end

