-- ==== Sys2Proof/Machine/Media.lean ====
section
/-! DEFINITION. The media engine (files 03, 09 and 10): data sets on the lanes, plait slots, epochs, rewrite
areas, verification, channel failures and the write inhibit. -/

namespace Sys2Proof.Machine

open Sys2Proof

/-! ### Channels out (R319-R321) -/

/-- `chan.map_out`. -/
def mapOut (s : State) : List Nat := (plist s .chanMapOut).map Int.toNat

/-- Channels mapped out or failed; one listed twice counts once (R321). -/
def chansOut (s : State) : List Nat := (mapOut s ++ s.med.failed).dedup

/-- Channels that the next data set leaves out. -/
def outNow (s : State) : List ChNo := allChs.filter fun c => (chansOut s).contains c.val

/-- Changes the written data set of a DSN. -/
def modWritten (s : State) (dsn : Nat) (f : WDs → WDs) : State :=
  { s with med := { s.med with written := s.med.written.map fun w => if w.dsn = dsn then f w else w } }

/-- The written data set of a DSN. -/
def writtenAt (s : State) (dsn : Nat) : Option WDs := s.med.written.find? (·.dsn = dsn)

/-- Puts a data set back in front of its saddle's closed ones, to be written again (R282, R306). -/
def requeueOne (s : State) (w : WDs) : State :=
  if w.ds.kind == .data && !w.dropped then
    modSad (endUse s w.ds) w.ds.sad fun x => { x with closed := { w.ds with used := false } :: x.closed }
  else letGo s w.ds

/-- The data set whose frame is not finished: on the lanes, or abandoned. -/
def unfinishedDs (s : State) : Option WDs :=
  match s.med.again, s.med.lane with
  | some w, _ => some w
  | none, .frame d => writtenAt s d
  | none, .idle => none

/-- Gives up every data set whose rows are not all verified: its girths stay acknowledged and are written again
later (R41, R282). The slot, or the epoch, of a frame that was cut short is served again, so that DSN arithmetic
holds (R290). -/
def requeueAll (s : State) : State :=
  let cut := unfinishedDs s
  let l := s.med.written ++ s.med.again.toList
  let s := l.reverse.foldl requeueOne s
  { s with med := { s.med with
      written := [], again := none, lane := .idle, gates := Vector.replicate 4 false
      cursor := match cut with
        | some w => if w.slot = 0xFFFF then s.med.cursor else w.slot
        | none => s.med.cursor
      next := match cut with
        | some w => if w.ds.kind == .marker then (s.med.plait, s.clk.ptc) :: s.med.next else s.med.next
        | none => s.med.next } }

/-! ### Frames on the lanes (R275, R286, R296) -/

/-- Highest SEQ of a saddle's girths in a data set, plus 1, put into NEXT_SEQ (R278). -/
def nextSeqWith (s : State) (ds : DataSet) : Vector Nat 8 :=
  match (ownGirths ds).getLast?, ds.kind with
  | some g, .data => s.med.nextSeq.set ds.sad.val (max (s.med.nextSeq[ds.sad]) (g.seq + 1)) ds.sad.isLt
  | _, _ => s.med.nextSeq

/-- Gates that a frame raises: the groups with a channel it writes (R296). -/
def gatesFor (out : List ChNo) : Vector Bool 4 :=
  Vector.ofFn fun g => allChs.any fun c => c.val / 16 = g.val && !out.contains c

/-- Allocates MEDIA caddies for a data set, as many as the pool has up to a number (R214, R220; log 33). -/
def fillCads : Nat → State → List Nat → State × List Nat
  | 0, s, l => (s, l)
  | k + 1, s, l =>
    match allocateReclaim s ownMedia with
    | some (i, t, u) => fillCads k (if u = 1 then useOp t else useOp (useOp t)) (l ++ [i])
    | none => (s, l)

/-- The caddies of a data set that goes onto the lanes: a FILL, marker or tail data set gets its own, and the media engine takes a
reference to each while it uses the data set (R214, R224). -/
def takeCads (s : State) (ds : DataSet) : State × DataSet :=
  let (s, cads) := if ds.kind == .data then (s, ds.cads) else fillCads (64 - ds.cads.length) s ds.cads
  (if ds.used then s else cads.foldl (fun s i => takeRef s i .media) s, { ds with cads := cads, used := true })

/-- What a tail data set or one that overwrites it leaves of the recording's tail (R386, R392): a FILL data set stands after it. -/
def tailAfter (s : State) (ds : DataSet) : Option (List Byte × Nat) :=
  match ds.kind with
  | .tail => some (ds.block.take 2048, s.med.append)
  | .fill => s.cart.tail
  | _ => none

/-- Starts the frame of a data set at the append point (R275, R286, R296, R386). -/
def startFrame (s : State) (ds : DataSet) (slot : Nat) : State :=
  let (s, ds) := takeCads s ds
  let out := outNow s
  let next := nextSeqWith s ds
  let girths := if ds.kind == .data then ownGirths ds else []
  let w : WDs := {
    ds := ds, dsn := s.med.append, wrap := s.med.wrap, epoch := s.med.plait.epoch, slot := slot,
    firstSeq := (girths.head?.map (·.seq)).getD 0, nGirths := girths.length, nextSeq := next.toList, outCh := out
    pcs := s.med.ch.toList.map (·.wpl.pc) }
  let rec_ : IdxRec := {
    dsn := w.dsn, kind := ds.kind, sad := ds.sad, firstSeq := w.firstSeq, girths := w.nGirths, nextSeq := w.nextSeq,
    wrap := w.wrap, epoch := w.epoch, slot := slot, ratio := ds.ratio }
  { s with
    cart := { s.cart with tail := tailAfter s ds }
    med := { s.med with
      lane := .frame w.dsn
      written := s.med.written ++ [w]
      nextSeq := next
      lastDsn := if girths.isEmpty then s.med.lastDsn else s.med.lastDsn.set ds.sad.val w.dsn ds.sad.isLt
      index := s.med.index.filter (fun r => r.dsn < w.dsn) ++ [rec_]
      gates := gatesFor out
      mapShown := out.map (·.val)
      ch := Vector.ofFn fun c => if out.contains c then s.med.ch[c] else
        { s.med.ch[c] with rows := sat 32 (s.med.ch[c].rows + 120) }
      wroteSinceLoad := true } }

/-! ### Rewrite areas (R302-R305) -/

/-- Copies of an area on a channel. -/
def copiesOn (a : List Copy) (c : ChNo) : Nat := (a.filter (·.ch == c)).length

/-- The channel that a copy goes to: the eligible one with the fewest copies, the lowest number on a tie, never the
one that wrote the row (R305). -/
def copyChan (out : List ChNo) (area : List Copy) (cap : Nat) (wrote : Nat) : Option ChNo :=
  (allChs.filter fun c => !out.contains c && c.val ≠ wrote && copiesOn area c < cap).foldl (fun b c => match b with
    | none => some c
    | some d => if copiesOn area c < copiesOn area d then some c else some d) none

/-- Places copies of rows of a data set while `room` lasts: the area after, and the rows that found no place. -/
def placeCopies (out : List ChNo) (dsn : Nat) : Nat → List (Nat × Nat) → List Copy → List Copy × List (Nat × Nat)
  | _, [], area => (area, [])
  | 0, l, area => (area, l)
  | room + 1, (sd, r) :: t, area =>
    match copyChan out area 12 (chanOfRow sd r) with
    | some c =>
      placeCopies out dsn room t (area ++ [{ dsn := dsn, sds := sd, row := r, ch := c, slotpos := 120 + copiesOn area c }])
    | none =>
      let (a, left) := placeCopies out dsn room t area
      (a, (sd, r) :: left)

/-- Closes the rewrite area of the data set on the lanes (R303-R305): needed copies of `d - 1` and of `d`, then the
wanted ones (log 17); Q is fixed. -/
def closeArea (s : State) (d : Nat) : State :=
  match writtenAt s d with
  | none => s
  | some w =>
    if w.q.isSome then s
    else
      let e := 64 - w.outCh.length
      let prev := writtenAt s (d - 1)
      let p : List (Nat × Nat) × List (Nat × Nat) := if d = 0 then ([], []) else (prev.map fun p => (p.need, p.want)).getD ([], [])
      let budget_ := min (pnat s .rewriteBudget) 12 * e
      let (a1, _) := placeCopies w.outCh (d - 1) (12 * e) p.1 []
      let (a2, n2) := placeCopies w.outCh d (min budget_ (12 * e - a1.length)) w.need a1
      let (a3, _) := placeCopies w.outCh (d - 1) (12 * e - a2.length) p.2 a2
      let used := (a3.filter (·.dsn = d)).length
      let (a4, w4) := placeCopies w.outCh d (min (budget_ - used) (12 * e - a3.length)) w.want a3
      let q := if e = 0 then 0 else (a4.length + e - 1) / e
      let q := max q (maxL (allChs.map (copiesOn a4)))
      let s := modWritten s d fun w => { w with area := a4, q := some q, need := n2, want := w4 }
      let s := if d = 0 then s else modWritten s (d - 1) fun w => { w with nextArea := true, need := [], want := [] }
      { s with med := { s.med with qLast := q, rwr := s.med.rwr + a4.length } }

/-- REWRITE_AREA_CLOSE (R303). -/
def rewriteAreaClose (s : State) : State :=
  match s.med.lane with
  | .frame d => closeArea s d
  | .idle => s

/-- REWRITE_AREA_CLOSE. -/
def execRewriteAreaClose (s : State) : Host.Outcome State Fault Refusal := act s rewriteAreaClose

/-- The rms PES of the data set that has passed (register PES). -/
def pesDataSet (s : State) : State :=
  { s with srv := { s.srv with pesRms := Nat.sqrt (s.srv.pesSq / max 1 s.srv.pesSqN), pesSq := 0, pesSqN := 0 } }

/-- Ends the frame on the lanes: its trailer is written (R275). -/
def finishFrame (s : State) : State :=
  match s.med.lane with
  | .idle => s
  | .frame d =>
    let s := pesDataSet (closeArea s d)
    let q := ((writtenAt s d).bind (·.q)).getD 0
    let s := modWritten s d fun w => { w with trailer := true }
    { s with
        med := { s.med with
          lane := .idle, append := d + 1, x := s.med.x + frameLen q, qLast := q, qHist := (q :: s.med.qHist).take 64,
          gates := Vector.replicate 4 false } }

/-! ### Epochs and slots (R87-R89, R290, R291) -/

/-- Whether a pending plait takes effect at this data-set boundary: at least 2 ticks after its completion (R87). -/
def epochDue (s : State) : Bool := s.med.next.any fun (_, t) => t.toNat + 2 ≤ now s

/-- The plait to start: the latest one due, under the next epoch number; plaits not yet due wait for the one after. -/
def takeNext (s : State) : Option (Plait × List (Plait × W64)) :=
  let due := s.med.next.filter fun (_, t) => t.toNat + 2 ≤ now s
  let wait := s.med.next.filter fun (_, t) => !(t.toNat + 2 ≤ now s)
  due.getLast?.map fun (p, _) =>
    let n := s.med.plait.epoch + 1
    ({ p with epoch := n }, wait.map fun (q, t) => ({ q with epoch := n + 1 }, t))

/-- Whether LOCATE may compute a saddle's positions by arithmetic (R291). -/
def arithSad (s : State) (n : SadNo) : Bool := classOf s n == .rate && policyOf s n != .fit

/-- Starts an epoch with its plait-marker data set (R64, R87, R285). -/
def startEpoch (s : State) (p : Plait) : State :=
  let dsn := s.med.append
  let p := { p with marker := some dsn }
  let e : EpochRec := {
    plait := p, dsn := dsn, next := s.med.nextSeq.toList, ratios := allSads.map (ratioOf s), byArith := allSads.map (arithSad s),
    fits := allSads.map fun n => policyOf s n == .fit,
    anchors := if p.flush then [] else (allSads.filter (arithSad s)).map fun n => (n, 0, s.med.nextSeq[n]) }
  let s := { s with
    med := { s.med with plait := p, cursor := 0, epochs := s.med.epochs.filter (fun o => o.dsn < dsn) ++ [e] }
    cart := { s.cart with heldEpochs := s.cart.heldEpochs ++ [epochRecord s p dsn] } }
  startFrame s { kind := .marker, ptc := s.clk.ptc, flush := p.flush, block := plaitBlock s p } 0xFFFF

/-- The ordinal of a saddle's owned slot in the epoch (R291). -/
def slotOrdinal (p : Plait) (n : SadNo) (dsn : Nat) : Nat :=
  let off := dsn - (p.marker.getD 0 + 1)
  let own := ownSlots p n
  off / p.slots.length * own.length + (own.filter (· < off % p.slots.length)).length

/-- Adds an anchor of a saddle after an owned slot that was a miss or held a short data set (R291). -/
def addAnchor (s : State) (n : SadNo) (dsn : Nat) : State :=
  let u := slotOrdinal s.med.plait n dsn + 1
  let g := s.med.nextSeq[n]
  { s with med := { s.med with epochs := s.med.epochs.dropLast ++ (s.med.epochs.getLast?.map fun e =>
      { e with anchors := e.anchors ++ [(n, u, g)] }).toList } }

/-- A FILL data set (R284). -/
def fillDs (s : State) (n : SadNo) : DataSet := { kind := .fill, sad := n, ptc := s.clk.ptc }

/-- A slot that R88 and R89 cannot serve counts in PAD_DS under PAD at the slowest speed (R372). -/
def countPad (s : State) : State := if s.rein.pad then { s with rein := { s.rein with padDs := inc s.rein.padDs } } else s

/-- Whether a saddle's open data set must close at the boundary of an owned slot: a SYNC, reset or flush is pending on it (R88,
R148). -/
def forcedOpen (x : Saddle) : Bool := (x.openDs.map fun d => d.force && !(ownGirths d).isEmpty).getD false

/-- A saddle with a closed data set that the media engine may take: none in HOLD (R151; log 27). -/
def hasClosed (s : State) (n : SadNo) : Bool := s.sad[n].st != .hold && !s.sad[n].closed.isEmpty

/-- The saddles that an owned slot can serve (R88): with a closed data set, or an open one that must close. -/
def servable (s : State) (n : SadNo) : Bool := hasClosed s n || (s.sad[n].st != .hold && forcedOpen s.sad[n])

/-- Takes a saddle's oldest closed data set, closing its open one first when that is forced (R88). -/
def takeClosed (s : State) (n : SadNo) : Option (DataSet × State) :=
  let s := if s.sad[n].closed.isEmpty && forcedOpen s.sad[n] then closeOpen s n else s
  match s.sad[n].closed with
  | d :: t => some (d, modSad s n fun x => { x with closed := t, cnt := { x.cnt with slots := x.cnt.slots + 1 } })
  | [] => none

/-- The saddle that takes a FREE slot (R89): a SHARE saddle with a closed data set by weighted round robin, else the next IDLE one. -/
def freeTaker (s : State) : Option (SadNo × State) :=
  let sh := allSads.filter fun n => classOf s n == .share && hasClosed s n
  match swrr (sh.map fun n => (n, max 1 (pnat s .sadWeight n.val), s.sad[n].freeCredit)) with
  | some (m, cs) => some (m, cs.foldl (fun s (n, c) => modSad s n fun x => { x with freeCredit := c }) s)
  | none =>
    let idle := allSads.filter fun n => classOf s n == .idle && hasClosed s n
    let after := idle.filter fun n => s.med.idleLast < n.val
    (after ++ idle).head?.map fun n => (n, { s with med := { s.med with idleLast := n.val } })

/-- Writes FILL in a slot that an owner missed: the miss is counted and logged (R88, R94). -/
def missSlot (s : State) (n : SadNo) (slot : Nat) : State :=
  let s := modSad (countPad s) n fun x => { x with cnt := { x.cnt with miss := inc x.cnt.miss } }
  let s := logE s .warn n.val 0x0201
  let dsn := s.med.append
  addAnchor (startFrame s { fillDs s n with ratio := ratioOf s n } slot) n dsn

/-- Writes a saddle's data set in a slot. -/
def writeSlot (s : State) (n : SadNo) (d : DataSet) (slot : Nat) (owned : Bool) : State :=
  let dsn := s.med.append
  let t := startFrame s d slot
  if owned && isShort d.ratio (ownGirths d).length then addAnchor t n dsn else t

/-- Serves the next plait slot (R88, R89). With `only fill`, the slot takes the FILL data set of R282. -/
def serveSlot (s : State) (onlyFill : Bool) : State :=
  let p := s.med.plait
  let j := s.med.cursor
  let el := p.slots.getD j .free
  let s := { s with med := { s.med with cursor := (j + 1) % (max 1 p.slots.length) } }
  match el with
  | .owner n =>
    if onlyFill then missSlot s n j
    else if servable s n then
      match takeClosed s n with
      | some (d, s) => writeSlot s n d j true
      | none => missSlot s n j
    else missSlot s n j
  | .free =>
    if onlyFill then startFrame s (fillDs s 0) j
    else match freeTaker s with
      | some (n, s) =>
        match takeClosed s n with
        | some (d, s) => writeSlot s n d j false
        | none => startFrame (countPad s) (fillDs s 0) j
      | none => startFrame (countPad s) (fillDs s 0) j
  | .fill => startFrame s (fillDs s 0) j

/-! ### Flush epochs (R64, R388) -/

/-- Saddles with acknowledged girths still to be sent. -/
def flushLeft (s : State) : List SadNo := allSads.filter fun n =>
  let x := s.sad[n]
  !(x.closed.isEmpty && x.acked.isEmpty && x.blk.bytes.isEmpty && (x.openDs.map fun d => (ownGirths d).isEmpty).getD true)

/-- The place of a data set's oldest acknowledgement (R64). -/
def firstAck (d : DataSet) : Nat := ((ownGirths d).head?.map (·.ack)).getD 0

/-- The saddle whose data set leaves next in a flush: the one whose next data set holds the oldest acknowledgement (R64). -/
def flushPick (s : State) : Option SadNo :=
  let cand := (flushLeft s).filterMap fun n =>
    let x := s.sad[n]
    match x.closed.head?, x.openDs with
    | some d, _ => some (n, firstAck d)
    | none, some d => if x.acked.isEmpty && !(ownGirths d).isEmpty then some (n, firstAck d) else none
    | none, none => none
  (cand.foldl (fun (b : Option (SadNo × Nat)) c => match b with
    | none => some c
    | some d => if c.2 < d.2 then some c else some d) none).map (·.1)

/-- One data set of the flush epoch (R64): the marker, the acknowledged girths, the tail, the closing FILL. -/
def flushStep (s : State) : State :=
  match s.med.flushStep with
  | 0 =>
    let p : Plait := { epoch := s.med.plait.epoch + 1, flush := true, slots := s.med.plait.slots, vIdx := s.med.plait.vIdx }
    let s := startEpoch s p
    { s with med := { s.med with flushStep := 1 } }
  | 1 =>
    match flushPick s with
    | some n =>
      let s := if s.sad[n].closed.isEmpty then closeOpen s n else s
      match s.sad[n].closed with
      | d :: t => startFrame (modSad s n fun x => { x with closed := t }) { d with flush := true } 0xFFFF
      | [] => s
    | none =>
      if (flushLeft s).isEmpty then
        let s := { s with cart := { s.cart with eodDsn := s.med.append }, med := { s.med with flushStep := 2 } }
        startFrame s { kind := .tail, ptc := s.clk.ptc, flush := true, block := tailBlock s } 0xFFFF
      else s
  | 2 => startFrame { s with med := { s.med with flushStep := 3 } } { fillDs s 0 with flush := true } 0xFFFF
  | 3 => { s with med := { s.med with flushStep := 4, gates := Vector.replicate 4 false } }
  | _ => s

/-- Begins a flush epoch: the blocks under fill close (R64). -/
def beginFlush (s : State) (eom : Bool) : State :=
  if s.med.flush then s
  else
    let s := allSads.foldl closeBlk s
    let s := mapSad s fun _ x => { x with openDs := x.openDs.map fun d => { d with force := true } }
    { s with med := { s.med with flush := true, flushStep := 0, flushEom := eom, eomTold := false } }

/-! ### The data-set boundary (R87, R88, R282, R286) -/

/-- The measured speed lets writing run (R364): at least 1.25 m/s and within 1 % of the setpoint. -/
def speedOk (s : State) : Bool :=
  decide (1250 ≤ s.srv.speed) && decide (|(s.srv.speed : Rat) - 1000 * s.srv.setSpeed| ≤ 10 * s.srv.setSpeed)

/-- What lets the media engine write: STREAM with a cartridge that may be written, the tape running into the append
point at its speed, and no inhibit or stop. -/
def mayWrite (s : State) : Bool :=
  s.pw.mode == .stream && s.cart.loaded && !s.cart.readonly && s.med.positioned && speedOk s && !s.med.inh.inhibited && !s.med.stopped &&
    frameFits s.med.x && (s.med.flush || !(pfInForce s || s.med.eom))

/-- Writing stops after the FILL data set of R282: for failed channels every saddle with girths not on tape meets
CHANNELS (R321). -/
def stopWriting (s : State) : State :=
  let bad := 3 ≤ (chansOut s).length
  let s := { s with med := { s.med with stopAfter := false, positioned := false, stopped := s.med.stopped || bad } }
  if bad then allSads.foldl (fun s n => if s.sad[n].unsync.isEmpty then s else deferErr s n .channels) s else s

/-- The abandoned data set is written again with the same DSN and a new PTC (R315). -/
def writeAgain (s : State) (w : WDs) : State :=
  startFrame { s with med := { s.med with again := none } } { w.ds with ptc := s.clk.ptc } w.slot

/-- An abandoned data set that is not written again: its girths have been discarded (R154, R163), or its saddle is in HOLD and the
media engine takes none of them (R151). It goes back to its saddle, or its caddies to the pool, and its place is served again. -/
def giveUpAgain (s : State) : State :=
  match s.med.again with
  | some w =>
    if w.ds.kind == .data && (w.dropped || !takes s w.ds.sad) then
      requeueOne { s with med := { s.med with again := none, cursor := if w.slot = 0xFFFF then s.med.cursor else w.slot } } w
    else s
  | none => s

/-- DATA_SET_BOUNDARY (R88): the frame in progress ends and the next data set starts. -/
def dataSetBoundary (s : State) : State :=
  let s := giveUpAgain (finishFrame s)
  if s.med.stopAfter && !s.med.fillOwed then stopWriting s
  else if !mayWrite s then s
  else match s.med.again with
    | some w => writeAgain s w
    | none =>
      if s.med.flush then flushStep s
      else if s.med.stopAfter then serveSlot { s with med := { s.med with fillOwed := false } } true
      else match epochDue s, takeNext s with
        | true, some (p, rest) => startEpoch { s with med := { s.med with next := rest } } p
        | _, _ => if s.med.plait.marker.isNone then s else serveSlot s false

/-- DATA_SET_BOUNDARY. -/
def execDataSetBoundary (s : State) : Host.Outcome State Fault Refusal := act s dataSetBoundary

/-- PLAIT_EPOCH_START (R87): the plait that is due takes effect with its marker. -/
def execPlaitEpochStart (s : State) : Host.Outcome State Fault Refusal :=
  actIf s (epochDue s && !s.med.flush && !s.med.stopAfter && s.med.again.isNone && mayWrite s) dataSetBoundary

/-- The seed of a band and direction (R307). -/
def wplSeed (s : State) (b : Nat) (rev : Bool) (c : ChNo) : Nat × Nat :=
  let i := b
  let j := if rev then 1 else 0
  (((plist s .seedCur i j).getD c.val 128).toNat, ((plist s .seedPc i j).getD c.val 0).toNat)

/-- Loads the equaliser seed of a wrap and the ADC offset for every lane (R33, R324, R330). -/
def loadSeeds (s : State) : State :=
  let seed := plist s .eqSeedTaps (bandOfWrap s.rd.wrap) (if wrapRev s.rd.wrap then 1 else 0)
  let trim := plist s .adcTrim
  { s with rd := { s.rd with ch := Vector.ofFn fun c => { s.rd.ch[c] with
      agcSat := false, eqSat := false, adc := trim.getD c.val 0, taps := ((seed.drop (24 * c.val)).take 24).map fun v => ((v : Int) : Rat) } } }

/-- Keeps the loop's values of a wrap's band and direction for the session (R307). -/
def saveWpl (s : State) (w : Nat) : State :=
  let b := bandOfWrap w
  let rev := wrapRev w
  { s with med := { s.med with
      saved := s.med.saved.filter (fun (x, y, _) => !(x = b && y = rev)) ++
        allChs.map fun c => (b, rev, c, s.med.ch[c].wpl.cur, s.med.ch[c].wpl.pc)
      savedOfs := s.med.savedOfs.filter (fun (x, y, _) => !(x = b && y = rev)) ++ [(b, rev, s.med.ofs)] } }

/-- Loads the loop's set for a wrap: the session's last values, or the seed (R307); the loop settles (R310). -/
def loadWpl (s : State) (w : Nat) : State :=
  let b := bandOfWrap w
  let rev := wrapRev w
  let en := pbool s .wplEnable
  let val (c : ChNo) : Nat × Nat :=
    match s.med.saved.find? fun (x, y, z, _, _) => x = b && y = rev && z == c with
    | some (_, _, _, cu, pc) => if en then (cu, pc) else wplSeed s b rev c
    | none => wplSeed s b rev c
  let ofs := match s.med.savedOfs.find? fun (x, y, _) => x = b && y = rev with
    | some (_, _, o) => if en then o else pint s .seedOfs b (if rev then 1 else 0)
    | none => pint s .seedOfs b (if rev then 1 else 0)
  { s with med := { s.med with
      ofs := ofs, delta := [], settle := pnat s .wplSettle
      ch := Vector.ofFn fun c =>
        let (cu, pc) := val c
        { s.med.ch[c] with wpl := { cur := cu, pc := pc } } } }

/-- Keeps the loop's values for the session where the writer has used the set of the present wrap (R307). -/
def keepWpl (s : State) : State :=
  if s.med.savedOfs.any fun (b, rev, _) => b = bandOfWrap s.med.wrap && rev = wrapRev s.med.wrap then saveWpl s s.med.wrap else s

/-- The writer starts on a wrap: the loop loads its set, which the session has used from now on (R307, R310). -/
def wplStart (s : State) : State := saveWpl (loadWpl s s.med.wrap) s.med.wrap

/-- WRAP_END (R286, R287, R307): a data set no longer fits, and the tape turns to the next wrap. -/
def wrapEnd (s : State) : State :=
  let s := keepWpl (finishFrame s)
  let w := s.med.wrap + 1
  wplStart { s with med := { s.med with
    wrap := w, x := 0, wrapFirst := s.med.wrapFirst.take w ++ [s.med.append], satTold := [], inh := { s.med.inh with identRun := 0 } } }

/-- WRAP_END. -/
def execWrapEnd (s : State) : Host.Outcome State Fault Refusal :=
  actIf s (s.pw.mode == .stream && s.cart.loaded && s.med.positioned && s.med.wrap < 191 && !frameFits (match s.med.lane with
    | .frame d => s.med.x + frameLen (((writtenAt s d).bind (·.q)).getD 0)
    | .idle => s.med.x)) wrapEnd

/-- A data set waits while the tape is elsewhere (R386): a closed one, or the FILL of the slots that an admitted RATE saddle owns
(R88). -/
def appendWanted (s : State) : Bool :=
  s.pw.mode == .stream && s.cart.loaded && !s.cart.readonly && !s.med.positioned && !s.med.stopped && s.rein.bh == .none &&
    (s.med.flush || s.med.again.isSome || allSads.any fun n => servable s n || s.sad[n].admitted ≠ 0)

/-- APPEND_POSITIONING (R386): the tape runs into the append point once the DSN before it is confirmed; otherwise
writing stays stopped. -/
def execAppendPositioning (confirmed : Bool) (s : State) : Host.Outcome State Fault Refusal :=
  actIf s (appendWanted s) fun s =>
    if confirmed then
      wplStart (keepWpl { s with med := { s.med with positioned := true, appendFail := false }, rd := { s.rd with reading := false } })
    else { s with med := { s.med with appendFail := true } }

/-- CLOSE_TICKS_EXPIRY (R90, R211): what has not grown for `close_ticks` closes. -/
def execCloseTicksExpiry (n : SadNo) (s : State) : Host.Outcome State Fault Refusal := act s fun s => closeRule s n

/-! ### Write inhibit (R311-R318) -/

/-- A cause is present now (R311): 0 PES, 1 SHOCK, 2 SENSOR, 3 IDENT, 4 IDENT_LATCH. -/
def causeNow (s : State) (k : Nat) : Bool :=
  let i := s.med.inh
  match k with
  | 0 => i.pes
  | 1 => i.shockPin || i.shockBus
  | 2 => i.sensor && !pbool s .shockWaive
  | 3 => i.ident
  | _ => i.latch

/-- DATA_SET_ABANDON (R315): the data set on the lanes is abandoned; it will be written first, with the same DSN. -/
def abandon (s : State) : State :=
  match s.med.lane with
  | .idle => s
  | .frame d =>
    match writtenAt s d with
    | none => s
    | some w =>
      let left := s.med.written.filter (·.dsn ≠ d)
      let back := left.map fun p => if p.dsn + 1 = d && p.nextArea then
          let again := (w.area.filter fun c => c.dsn = p.dsn && !c.done).map fun c => (c.sds, c.row)
          { p with nextArea := false, need := p.need ++ again.filter (fun x => (p.rows.find? fun r => (r.sds, r.row) = x).any (!·.secured))
                   want := p.want ++ again.filter (fun x => (p.rows.find? fun r => (r.sds, r.row) = x).any (·.secured)) }
        else p
      { s with med := { s.med with
          written := back, again := some w, lane := .idle, gates := Vector.replicate 4 false, delta := []
          inh := { s.med.inh with abandons := inc s.med.inh.abandons } } }

/-- Logs a cause of an inhibit (R318). -/
def logCause (s : State) (k : Nat) : State := logE s .warn srcChip 0x0401 [("cause", 1, k)]

/-- The causes that hold now, with those that have not been absent for long enough (R311, R313). -/
def causesHeld (s : State) : List (Nat × Nat) :=
  ((List.range 5).filter (causeNow s)).foldl (fun h k => put k 0 h) s.med.inh.holds

/-- Brings the causes up to date and logs, in STREAM, those of a new inhibit and those that join one (R311, R318). -/
def guardCauses (s : State) : State :=
  let fresh := (causesHeld s).filter fun c => !s.med.inh.inhibited || (look c.1 s.med.inh.holds).isNone
  let t := { s with med := { s.med with inh := { s.med.inh with holds := causesHeld s } } }
  if s.pw.mode == .stream then fresh.foldl (fun s c => logCause s c.1) t else t

/-- Brings the causes and the inhibit up to date (R311, R318): a new inhibit is counted and abandons the data set on the lanes. -/
def guardScan (s : State) : State :=
  let stream := s.pw.mode == .stream
  let s := guardCauses s
  if stream && !s.med.inh.holds.isEmpty && !s.med.inh.inhibited then
    let s := allSads.foldl (fun s n => if s.sad[n].unsync.isEmpty then s else latch s n 1) s
    abandon { s with med := { s.med with
      gates := Vector.replicate 4 false
      inh := { s.med.inh with inhibited := true, cnt := inc s.med.inh.cnt } } }
  else s

/-- The inhibit at a boundary (R313, R318): ticks are counted, causes absent for `guard.clear_ticks` whole ticks clear. -/
def guardTick (s : State) : State :=
  let i := s.med.inh
  let aged := (i.holds.map fun (k, a) => (k, if causeNow s k then 0 else a + 1)).filter fun (_, a) => a ≤ pnat s .clearTicks
  { s with med := { s.med with inh := { i with
      ticks := if i.inhibited then inc i.ticks else i.ticks, holds := aged, ident := false } } }

/-- INHIBIT_CLEAR (R313, R315): no cause remains and writing resumes; the loop settles (R310). -/
def execInhibitClear (s : State) : Host.Outcome State Fault Refusal :=
  actIf s (s.med.inh.inhibited && s.med.inh.holds.isEmpty) fun s =>
    { s with med := { s.med with inh := { s.med.inh with inhibited := false }, settle := pnat s .wplSettle } }

/-- SHOCK_N_FALL (R311): SHOCK_N has been low for 0.5 µs. -/
def execShockNFall (s : State) : Host.Outcome State Fault Refusal :=
  act s fun s => guardScan { s with
    med := { s.med with inh := { s.med.inh with shockPin := true } }, sens := { s.sens with pinLow := true } }

/-- SHOCK_N_RISE (R313). -/
def execShockNRise (s : State) : Host.Outcome State Fault Refusal :=
  act s fun s => { s with
    med := { s.med with inh := { s.med.inh with shockPin := false } }, sens := { s.sens with pinLow := false, stuckTold := false } }

/-- Leaving STREAM ends the inhibit and the latch (R317). -/
def guardLeave (s : State) : State :=
  { s with med := { s.med with inh := { s.med.inh with
      latch := false, inhibited := false, holds := s.med.inh.holds.filter (·.1 ≠ 4) } } }

/-- GUARD_HOLD_TIMEOUT (R150, R386): writing has stayed inhibited for `queue.guard_hold_ticks` consecutive ticks while
a saddle holds girths not on tape. -/
def guardTimeout (s : State) : State :=
  allSads.foldl (fun s n =>
    if !s.sad[n].unsync.isEmpty && pnat s .guardHoldTicks ≤ s.sad[n].guardTicks then
      deferErr (modSad s n fun x => { x with guardTicks := 0 }) n .guard
    else s) s

/-- GUARD_HOLD_TIMEOUT. -/
def execGuardHoldTimeout (s : State) : Host.Outcome State Fault Refusal := act s guardTimeout

/-- Counts the ticks toward GUARD (R150, R386). -/
def guardCount (s : State) : State :=
  let on := s.pw.mode == .stream && (s.med.inh.inhibited || s.med.appendFail)
  mapSad s fun _ x => { x with guardTicks := if on && !x.unsync.isEmpty && x.st != .closed then x.guardTicks + 1 else 0 }

/-! ### Channel failures (R320, R321) -/

/-- Takes rows and copies on a failed channel out of a written data set (R320). Its own rows on the channel get no copies. Copies
placed on the channel move to other channels while the area is still to be written; a row of the data set whose copy finds no
channel needs one again. -/
def failIn (c : ChNo) (w : WDs) : WDs :=
  let mine (x : Nat × Nat) : Bool := chanOfRow x.1 x.2 == c.val
  let area := w.area.filter fun x => x.done || !(x.dsn = w.dsn && mine (x.sds, x.row))
  let keep := area.filter fun x => !(x.ch == c && !x.done)
  let move := area.filter fun x => x.ch == c && !x.done
  let placed := move.foldl (fun (a : List Copy × List (Nat × Nat)) x =>
    match if w.trailer then none else copyChan (c :: w.outCh) a.1 (w.q.getD 12) (chanOfRow x.sds x.row) with
    | some d => (a.1 ++ [{ x with ch := d, slotpos := 120 + copiesOn a.1 d }], a.2)
    | none => (a.1, if x.dsn = w.dsn then a.2 ++ [(x.sds, x.row)] else a.2)) (keep, [])
  { w with outCh := if w.outCh.contains c then w.outCh else w.outCh ++ [c], area := placed.1,
           need := (w.need ++ if w.nextArea then [] else placed.2).filter (!mine ·), want := w.want.filter (!mine ·) }

/-- Declares a channel failed from a data set on (R320, R321). -/
def chanFail (s : State) (c : ChNo) (dsn : Nat) : State :=
  if s.med.failed.contains c.val then s
  else
    let s := { s with med := { s.med with
      failed := s.med.failed ++ [c.val]
      written := s.med.written.map fun w => if dsn ≤ w.dsn then failIn c w else w } }
    let k := (chansOut s).length
    let s := logE s (if k < 2 then .warn else .error) srcChip 0x0403 [("ch", 1, c.val), ("count", 1, k)]
    if 3 ≤ k && !s.med.stopped && !s.med.stopAfter then
      if s.med.lane == .idle && s.med.written.isEmpty then stopWriting s
      else { s with med := { s.med with stopAfter := true, fillOwed := true } }
    else s

/-- Declares the failures that the tick found (R320): FAIL rows of one data set, CHS fields, lost groups. -/
def declareFails (s : State) : State :=
  let byRows := s.med.written.flatMap fun w => (w.failsOn.filter fun (_, k) => pnat s .chanFailRows ≤ k).map fun (c, _) => (c, w.dsn)
  let dNow := match s.med.lane with
    | .frame d => d
    | .idle => s.med.append
  let byChs := (allChs.filter fun c => 2 ≤ s.med.ch[c].chsRun).map fun c => (c, dNow)
  (byRows ++ byChs).foldl (fun s (c, d) => chanFail s c d) s

/-! ### Verification (R300, R301, R306) -/

/-- The written data set and what a verify reader's row is: a row of its slot or a copy in its area. The oldest data
set that waits for that row stands. -/
def verifyTarget (s : State) (c : ChNo) (slotpos : Nat) : Option WDs :=
  s.med.written.find? fun w => !w.outCh.contains c && (if slotpos < 120 then w.rows.all fun r => !(r.ch == c && r.row = slotpos)
    else w.area.any fun x => x.ch == c && x.slotpos = slotpos && !x.done)

/-- A row's class (R300) against the header written. -/
def rowClass (s : State) (want : RowHdr) (o : VerifyObs) : RCls :=
  match o.bytes.bind parseRowHeader with
  | none => .fail
  | some h =>
    if h.dsn ≠ want.dsn || h.sds ≠ want.sds || h.row ≠ want.row || h.rkind ≠ want.rkind || h.wrap ≠ want.wrap || h.chan ≠ want.chan then .fail
    else if 12 < o.iters then .fail
    else if pnat s .iterMax < o.iters || 10 * o.snrQ < 4 * pnat s .snrDb then .weak
    else .good

/-- Whether the loop of a channel counts rows now (R308, R310). -/
def wplLive (s : State) (c : ChNo) : Bool :=
  pbool s .wplEnable && !s.med.inh.inhibited && s.med.settle = 0 && !(chansOut s).contains c.val && s.med.again.isNone

/-- Counts a classified row on the channel that wrote it (R308, R320). -/
def countRow (s : State) (c : ChNo) (cls : RCls) (o : VerifyObs) : State :=
  let live := wplLive s c
  modWCh s c fun x => { x with
    failRows := if cls == .fail then sat 16 (x.failRows + 1) else x.failRows
    weakRows := if cls == .weak then sat 16 (x.weakRows + 1) else x.weakRows
    wpl := if live then { x.wpl with
        sumSnrQ := x.wpl.sumSnrQ + o.snrQ, sumIter := x.wpl.sumIter + (if cls == .fail then 13 else o.iters), n := x.wpl.n + 1 }
      else x.wpl }

/-- The need and want lists after a row's or copy's class (R302). -/
def queueCopy (w : WDs) (x : Nat × Nat) (cls : RCls) (firstGood : Bool) : WDs :=
  let need := w.need.filter (· ≠ x)
  let want := w.want.filter (· ≠ x)
  match cls with
  | .fail => { w with need := need ++ [x], want := want }
  | .weak => { w with need := need, want := if firstGood then want else want ++ [x] }
  | .good => { w with need := need, want := want }

/-- ROW_VERIFY of a row in its slot (R300, R302, R320). -/
def verifySlot (s : State) (w : WDs) (c : ChNo) (r : Nat) (o : VerifyObs) : State :=
  let sd := sdsOnChan c.val r
  let cls := rowClass s { dsn := w.dsn, sds := sd, rkind := 0, row := r, sad := w.ds.sad.val, wrap := w.wrap, chan := c.val, slotpos := r } o
  let bad := cls == .fail && !s.med.inh.inhibited
  let s := countRow s c cls o
  modWritten s w.dsn fun w =>
    let w := { w with rows := w.rows ++ [{ sds := sd, row := r, ch := c, cls := cls, secured := cls != .fail }], seen := w.seen + 1
                      failsOn := if bad then put c ((look c w.failsOn).getD 0 + 1) w.failsOn else w.failsOn }
    queueCopy w (sd, r) cls false

/-- ROW_VERIFY of a rewrite copy (R300-R302, R304): a copy in the area of `d` may go again to the area of `d + 1`. -/
def verifyCopy (s : State) (w : WDs) (x : Copy) (o : VerifyObs) : State :=
  let cls := rowClass s { dsn := x.dsn, sds := x.sds, rkind := 1, row := x.row, sad := 0, wrap := w.wrap, chan := x.ch.val, slotpos := x.slotpos } o
  let s := countRow s x.ch cls o
  let s := modWritten s w.dsn fun w => { w with area := w.area.map fun y => if y = x then { y with done := true } else y }
  modWritten s x.dsn fun v =>
    let good := (v.rows.find? fun r => r.sds = x.sds && r.row = x.row).any (·.cls == .good)
    let v := { v with rows := v.rows.map fun r => if r.sds = x.sds && r.row = x.row then
      { r with cls := if good then .good else cls, secured := r.secured || cls != .fail, copies := r.copies + 1 } else r }
    if v.nextArea then v else queueCopy v (x.sds, x.row) cls good

/-- ROW_VERIFY (R300). -/
def rowVerify (c : ChNo) (slotpos : Nat) (o : VerifyObs) (s : State) : State :=
  match verifyTarget s c slotpos with
  | none => s
  | some w =>
    if slotpos < 120 then verifySlot s w c slotpos o
    else match w.area.find? fun x => x.ch == c && x.slotpos = slotpos && !x.done with
      | some x => verifyCopy s w x o
      | none => s

/-- ROW_VERIFY, while the verify detector has budget in the tick (R19; log 129). -/
def execRowVerify (c : ChNo) (slotpos : Nat) (obs : VerifyObs) (s : State) : Host.Outcome State Fault Refusal :=
  actIf s (s.used.verify < budget s 256) fun s =>
    rowVerify c slotpos obs { s with used := { s.used with verify := s.used.verify + 1 } }

/-- Every copy written for a data set has been classified and no further one can come (R301). -/
def allClassified (s : State) (w : WDs) : Bool :=
  let next := writtenAt s (w.dsn + 1)
  let pend (a : List Copy) : Bool := a.any fun x => x.dsn = w.dsn && !x.done
  w.trailer && decide ((64 - w.outCh.length) * 120 ≤ (w.rows.filter fun r => !w.outCh.contains r.ch).length) && !pend w.area &&
    !((next.map fun v => pend v.area).getD false) && (w.nextArea || (w.need.isEmpty && w.want.isEmpty))

/-- A data set is made good (R301): in every SDS at most `write.accept_rows` rows are not secured. -/
def madeGood (s : State) (w : WDs) : Bool :=
  let bad := (w.rows.filter fun r => !r.secured && !w.outCh.contains r.ch).map (·.sds)
  bad.all fun k => bad.count k ≤ pnat s .acceptRows

/-- Settles one written data set (R301, R306): its girths are on tape, or its saddle meets VERIFY and its data sets go
back in front of the closed ones. -/
def settleOne (s : State) (w : WDs) : State :=
  if !allClassified s w then s
  else
    let s := { s with med := { s.med with written := s.med.written.filter (·.dsn ≠ w.dsn) } }
    if madeGood s w then
      let s := letGo s w.ds
      if w.ds.kind == .data && !w.dropped then
        let gs := (ownGirths w.ds).map (·.seq)
        modSad s w.ds.sad fun x => { x with unsync := x.unsync.filter fun u => !gs.contains u.1 }
      else s
    else if w.ds.kind == .data then
      if w.dropped then letGo s w.ds else deferErr (requeueOne s w) w.ds.sad .verify
    else logE (letGo s w.ds) .warn srcChip 0x0404 [("ds", 4, w.dsn)]

/-- Settles the written data sets, oldest first. -/
def settleWritten (s : State) : State := s.med.written.foldl settleOne s

/-! ### Wedges and the write-placement loop (R307-R310, R317) -/

/-- The offset of a written wedge in nm (R309): own window against the other, under the scale of CAL WRITE. -/
def wedgeDelta (s : State) (own other : Nat) : Option Int :=
  if own + other = 0 then none else some ((pint s .latScale) * ((own : Int) - other) / ((own + other : Nat) : Int))

/-- VERIFY_WEDGE (R309, R311, R317): the identity against the intended wrap's, and the two burst windows. -/
def verifyWedge (c : ChNo) (ident : List Bool) (a b : Nat) (s : State) : State :=
  let w := s.med.wrap
  let wrong := match readIdent ident with
    | some i => if i = trackIdent w c.val then none else some i
    | none => none
  match wrong with
  | some i =>
    let d := match s.med.lane with
      | .frame d => d
      | .idle => s.med.append
    let was := (look 3 s.med.inh.holds).isSome
    let run := if was then s.med.inh.identRun else s.med.inh.identRun + 1
    let s := if was then s else logE s .error srcChip 0x0402 [("ident", 2, i), ("ch", 1, c.val), ("ds", 4, d)]
    guardScan { s with med := { s.med with inh := { s.med.inh with
      ident := true, identRun := run, latch := s.med.inh.latch || decide (pnat s .identMax ≤ run) } } }
  | none =>
    let odd := slotOfWrap w % 2 = 1
    let (own, other) := if odd then (b, a) else (a, b)
    if s.med.inh.inhibited || (chansOut s).contains c.val then s
    else { s with med := { s.med with delta := s.med.delta ++ [(c, wedgeDelta s own other)] } }

/-- VERIFY_WEDGE. -/
def execVerifyWedge (c : ChNo) (identBits : List Bool) (burstA burstB : Nat) (s : State) : Host.Outcome State Fault Refusal :=
  actIf s (s.pw.mode == .stream) (verifyWedge c identBits burstA burstB)

/-- OFS's step (R309, R310) once every written channel's three wedges of a data set have been read. -/
def ofsStep (s : State) : State :=
  let live := allChs.filter fun c => !(chansOut s).contains c.val
  let ds := (s.med.delta.filter fun d => live.contains d.1).filterMap (·.2)
  if live.isEmpty || !(live.all fun c => 3 ≤ (s.med.delta.filter (·.1 == c)).length) then s
  else
    let m := median ds
    let used := ds.filter fun d => (d - m).natAbs ≤ 100
    let mean : Rat := if used.isEmpty then 0 else ((used.foldl (· + ·) 0 : Int) : Rat) / (used.length : Nat)
    let hi := used.foldl max m
    let lo := used.foldl min m
    let frozen := !pbool s .wplEnable || s.med.inh.inhibited || s.med.settle ≠ 0 || slotOfWrap s.med.wrap = 0
    let gain : Rat := (pnat s .wplLatGain : Nat) / 100
    let o := max (-45) (min 45 (s.med.ofs - gain * mean))
    { s with med := { s.med with delta := [], skew := (hi - lo).toNat, ofs := if frozen then s.med.ofs else o } }

/-- One step of a channel's loop (R308). -/
def wplStep (s : State) (c : ChNo) : State :=
  let w := s.med.ch[c].wpl
  if !wplLive s c || w.n < pnat s .wplRows || w.n = 0 then s
  else
    let m : Rat := (w.sumSnrQ : Nat) / (4 * w.n : Nat) - (w.sumIter : Nat) / (5 * w.n : Nat)
    let (varPc, up) := if w.mref + 1 / 20 ≤ m then (w.varPc, w.dirUp) else if m ≤ w.mref - 1 / 20 then (w.varPc, !w.dirUp) else (!w.varPc, w.dirUp)
    let lo : Int := if varPc then 0 else pint s .curMin
    let hi : Int := if varPc then pint s .pcMax else pint s .curMax
    let v : Int := (if varPc then w.pc else w.cur) + (if up then 1 else -1)
    let out := v < lo || hi < v
    let v := (max lo (min hi v)).toNat
    let w' : Wpl := { w with varPc := varPc, dirUp := if out then !up else up, sat := w.sat || out, mref := m, sumSnrQ := 0, sumIter := 0, n := 0
                             cur := if varPc then w.cur else v, pc := if varPc then v else w.pc }
    let s := modWCh s c fun x => { x with wpl := w' }
    if out && !s.med.satTold.contains c then
      logE { s with med := { s.med with satTold := s.med.satTold ++ [c] } } .info srcChip 0x0405 [("ch", 1, c.val), ("wrap", 1, s.med.wrap)]
    else s

/-- The write-placement loop at a boundary (R308-R310). -/
def wplTick (s : State) : State :=
  let s := ofsStep s
  let s := allChs.foldl wplStep s
  { s with med := { s.med with settle := s.med.settle - 1 } }

/-! ### Preamplifier control links (R297, R299) -/

/-- A group's TX frame (R297). -/
def pclTx (s : State) (g : GroupNo) : List Byte :=
  let chs := (List.range 16).flatMap fun i =>
    let c : ChNo := ⟨16 * g.val + i % 16, by omega⟩
    beBytes 2 (s.med.ch[c].wpl.cur + if (chansOut s).contains c.val then 0 else 256)
  let arm := s.med.arm.toList.getD g.val false
  let f := beBytes 2 0xA5C3 ++ beBytes 1 (now s) ++
    beBytes 1 ((if arm then 128 else 0) + (if s.rd.reading then 64 else 0) + 16 * g.val) ++ chs
  f ++ beBytes 2 (crc16 f).toNat

/-- An RX frame that counts (R297, R299): SYNC, the echoed FCNT and the CRC. -/
def pclRxOk (s : State) (f : List Byte) : Bool :=
  f.length = 11 && beField f 0 2 = 0x5A3C && beField f 2 1 = now s % 256 && beField f 9 2 = (crc16 (f.take 9)).toNat

/-- PCL_RX_FRAME (R299, R320). -/
def pclRx (g : GroupNo) (f : Option (List Byte)) (s : State) : State :=
  let chans := allChs.filter fun c => c.val / 16 = g.val
  match f.filter (pclRxOk s) with
  | some f =>
    let chs := beField f 4 4
    let s := chans.foldl (fun s c => modWCh s c fun x => { x with chsRun := if chs / 4 ^ (15 - c.val % 16) % 4 = 0 then 0 else x.chsRun + 1 }) s
    { s with med := { s.med with pclRun := s.med.pclRun.set g.val 0 g.isLt } }
  | none =>
    let run := s.med.pclRun[g] + 1
    let s := { s with med := { s.med with
      pclErr := s.med.pclErr.set g.val (sat 8 (s.med.pclErr[g] + 1)) g.isLt, pclRun := s.med.pclRun.set g.val run g.isLt } }
    if 3 ≤ run then
      let s := { s with med := { s.med with gates := s.med.gates.set g.val false g.isLt } }
      let s := if run = 3 then logE s .error srcChip 0x0406 [("group", 1, g.val)] else s
      chans.foldl (fun s c => modWCh s c fun x => { x with chsRun := 2 }) s
    else s

/-- PCL_RX_FRAME. -/
def execPclRxFrame (g : GroupNo) (frame : Option (List Byte)) (s : State) : Host.Outcome State Fault Refusal := act s (pclRx g frame)

/-- SHOCK_STUCK (R474): SHOCK_N has stayed low for 1.0 s; it is logged once for the episode. -/
def execShockStuck (s : State) : Host.Outcome State Fault Refusal :=
  actIf s (s.sens.pinLow && !s.sens.stuckTold) fun s =>
    logE { s with sens := { s.sens with stuckTold := true } } .warn srcChip 0x0907

end Sys2Proof.Machine
end

