-- ==== Sys2Proof/Machine/Row.lean ====
section
/-! DEFINITION. How a verb's own row runs (files 04 to 06): directly as a command that is taken in, queued and
started in the step, or as the step of a command that already executes. -/

namespace Sys2Proof.Machine

open Sys2Proof

/-- The part takes commands: start-up has ended, or the recovery state's console serves it (R59, R60). -/
def ready (s : State) : Bool := s.pw.devReady || s.pw.recovery

/-- Ranges that rest on more than one argument or on the saddle's window (R147, R193, R210). -/
def lineRanges (s : State) (ch : Chan) (v : Verb) : Chk Unit :=
  let total (l : List (Nat × Nat)) : Nat := sumL (l.map (·.2))
  match ch, v with
  | .sad n, .write a =>
    if window s n < a.len then .error (badArg "range" "len")
    else match a.src with
      | .sg l => if total l ≠ a.len then .error (badArg "range" "sg") else .ok ()
      | _ => .ok ()
  | .sad _, .read a =>
    match a.dst with
    | .sg l => if total l < a.len then .error (badArg "range" "sg") else .ok ()
    | _ => .ok ()
  | _, _ => .ok ()

/-- The arguments that a binding gives WRITE and READ (R193, R210): what a row brings that its saddle does not take, or lacks. -/
def bindArgs (s : State) (ch : Chan) (v : Verb) : Chk Unit :=
  match ch, v with
  | .sad n, .write a =>
    match bindOf s n, a.src with
    | .console, .words _ | .sp _, .none => .ok ()
    | .console, .none => .error (badArg "missing" "d")
    | .vf, .none | .none, .none => .error (badArg "missing" "sg")
    | .vf, .words _ | .none, .words _ | .sp _, .words _ => .error (badArg "key" "d")
    | .vf, _ | .none, _ => .ok ()
    | _, .sg _ => .error (badArg "key" "sg")
    | _, .sgt .. => .error (badArg "key" "sgt")
  | .sad n, .read a =>
    match bindOf s n, a.dst with
    | .vf, .sg _ | .vf, .sgt .. | .none, .sg _ | .none, .sgt .. => .ok ()
    | .vf, _ | .none, _ => .error (badArg "missing" "sg")
    | _, .sg _ => .error (badArg "key" "sg")
    | _, .sgt .. => .error (badArg "key" "sgt")
    | _, _ => .ok ()
  | _, _ => .ok ()

/-- What a row's arguments must pass before its command is taken in (R115 check 6, R147, R210). -/
def rowArgs (s : State) (ch : Chan) (v : Verb) : Chk Unit := do
  bindArgs s ch v
  lineRanges s ch v

/-- A command taken in by its own row (R140): it joins its queue, or its refusal is answered (R116). -/
def takeRow (s : State) (ch : Chan) (t : Nat) (v : Verb) : State :=
  let tr := homeOf s ch
  match rowArgs s ch v with
  | .error e => reply s (rejectReply tr ch (some t) none e)
  | .ok () =>
    let (u, r) := admitLine { s with fil := { s.fil with seq := s.fil.seq + 1 } } ch t v tr
    match r with
    | none => startCmd ch none u
    | some e => reply u (rejectReply tr ch (some t) none e)

/-- A queued verb's row (R140-R143): the verb's effect runs once, when its command executes. -/
def verbRow (ch : Chan) (tag : Option Nat) (v : Verb) (body : Nat → State → State) (s : State) :
    Host.Outcome State Fault Refusal :=
  actIf s (ready s) fun s =>
    match tag with
    | none => s
    | some t =>
      if tagCount ch ≤ t then s
      else
        let s := if (entryOf s ch t).isSome then s else takeRow s ch t v
        match entryOf s ch t with
        | some e =>
          if e.phase == .executing && e.verb == v && !e.begun && e.ended.isNone then
            body t (modEntry s ch t fun e => { e with begun := true })
          else s
        | none => s

/-- Completes with OK and fields. -/
def okWith (s : State) (ch : Chan) (t : Nat) (fs : List Fld) (more : List (List Fld) := []) : State :=
  complete s ch t { status := .ok, fields := fs, more := more }

/-- An immediate verb's row (R124): it waits for the boundary, where it executes. -/
def immRow (s : State) (ch : Chan) (v : Verb) (free : Bool := false) : State :=
  { s with fil := { s.fil with
      seq := s.fil.seq + 1, imm := s.fil.imm ++ [{ ch := ch, tr := homeOf s ch, verb := v, seq := s.fil.seq + 1, free := free }] } }

/-- A verb that is immediate or queued (R122): without a tag it waits for the boundary. -/
def eitherRow (ch : Chan) (tag : Option Nat) (v : Verb) (body : Nat → State → State) (s : State) :
    Host.Outcome State Fault Refusal :=
  match tag with
  | none => actIf s (ready s) fun s => immRow s ch v
  | some _ => verbRow ch tag v body s

/-- The channel's name in HELLO (file 06). -/
def Chan.name : Chan → String
  | .adm => "adm"
  | .sad n => "s" ++ toString n.val

/-- A session mode's name. -/
def SesMode.name : SesMode → String
  | .typed => "TYPED"
  | .generated => "GENERATED"

/-- HELLO's fields (file 06). -/
def helloFields (s : State) (chan : String) (ses : SesMode) : List Fld :=
  [fld "dev" "TF64", fld "chan" chan, fld "ses" (SesMode.name ses), fld "mode" (Mode.name s.pw.mode), fnum "tick" s.tk.periodNs,
   fnum "ptc" (now s), fld "sid" (sidStr s.clk.session)]

end Sys2Proof.Machine
end

