-- ==== Sys2Proof/Machine/Power.lean ====
section
/-! DEFINITION. Modes, domains and HALT (R31-R42), cartridge memory's OPEN mark at the entry into STREAM (R385), and
power failure (R62-R66, R406). -/

namespace Sys2Proof.Machine

open Sys2Proof

/-! ### Domains (R31) -/

/-- The domains of a mode (R31). -/
def domOf (s : State) (m : Mode) : Domains :=
  let tape := s.cart.threaded || s.cart.motion.isSome
  let motion : Dom := if tape then .on else .off
  match m with
  | .starting => { dram := s.pw.dom.dram, flash := .on }
  | .park => { dram := .on, flash := .on, motion := motion }
  | .stage => { dram := .on, flash := .on, motion := .on, codec := .idle, write := .idle, read := .idle }
  | .stream | .service => { dram := .on, flash := .on, motion := .on, codec := .on, write := .on, read := .on }
  | .halt => { dram := .on, flash := .on, motion := if s.cart.threaded then .on else .off }

/-- A domain that a change switches from off to on (R52). -/
def switchesOn (a b : Domains) : Bool :=
  let f (x y : Dom) : Bool := x == .off && y == .on
  f a.dram b.dram || f a.codec b.codec || f a.write b.write || f a.read b.read || f a.motion b.motion || f a.flash b.flash

/-- Puts the domains of the mode in force (R31): MOTION follows the cartridge. -/
def setDom (s : State) : State := { s with pw := { s.pw with dom := domOf s s.pw.mode } }

/-! ### Leaving and entering modes -/

/-- SYSTEM caddies given back. -/
def freeSystem (s : State) : State :=
  (s.pool.caddies.filter fun c => c.owner == some ownSystem).foldl (fun s c => askRelease s c.idx (.owner ownSystem)) s

/-- Leaving SERVICE: an ARM and its window end (R176), `guard.shock_waive` returns to 0 (R312), the descriptor queue
closes and what is pending in it is ABORTED (R398), the continuous audit ends (R228). -/
def leaveService (s : State) : State :=
  let s := freeSystem s
  let s := { s with
    svc := { s.svc with arm := none, confirm := none }
    fl := { s.fl with queueOpen := false, queue := s.fl.queue.map fun d => if d.status = 0xFF then { d with status := 5 } else d }
    pool := { s.pool with audCont := false }
    cfg := { s.cfg with never := s.cfg.never.filter fun v => v.1.id != .shockWaive } }
  guardScan s

/-- Entering SERVICE: keys are zeroed (R33), the descriptor queue opens (R398), the audit walks continuously (R228). -/
def enterService (s : State) : State :=
  { s with
    keys := { s.keys with slots := Vector.replicate 16 none, stage := Vector.replicate 16 [], kekStage := [] }
    fl := { s.fl with queueOpen := true, queue := [] }
    pool := { s.pool with audCont := true, audRun := true, allocs := s.pool.allocs ++ [ownSystem] } }

/-- The plait that a new epoch after a flush carries (R66). -/
def afterFlush (s : State) : State :=
  if s.med.next.isEmpty then
    { s with med := { s.med with next := [({ s.med.plait with flush := false, epoch := s.med.plait.epoch + 1 }, 0)] } }
  else { s with med := { s.med with next := s.med.next.map fun (p, t) => ({ p with epoch := s.med.plait.epoch + 1 }, t) } }

/-- Leaving STREAM: the media engine stops, what is not verified is written again later, the latch of R317 clears, the
tape leaves the append point. -/
def leaveStream (s : State) : State :=
  let s := guardLeave (requeueAll (keepWpl s))
  let s := if s.med.flush then afterFlush { s with med := { s.med with flush := false, flushStep := 0 } } else s
  { s with
    med := { s.med with positioned := false, stopAfter := false, fillOwed := false, appendFail := false, arm := Vector.replicate 4 false }
    rd := { s.rd with reading := false, wedge := false }
    rein := { s.rein with stopped := true, frozen := pfInForce s, pad := false, bh := .none, lowTicks := 0 }
    srv := { s.srv with stopCmd := false, wedgeMode := false } }

/-- Writes the directory OPEN before the first write after a load (R385, R391), or waits for the antenna (R390). -/
def openMark (s : State) : State :=
  if s.cart.marked || s.cart.readonly || !s.cart.loaded then s
  else if s.cart.present && !s.cart.field then
    let s := { s with cart := { s.cart with openSession := s.clk.session, marked := true } }
    writeDir (heldLog s 4 0xFF s.cart.eodDsn) true
  else cmDefer s

/-- Whether a flush can be written: a cartridge that may be written is in the drive. -/
def flushable (s : State) : Bool := s.cart.loaded && !s.cart.readonly && s.cart.marked

/-- Entering STREAM (R33, R64, R311, R385): the ADC offset and the equaliser seed are loaded; the rein is frozen while PWR_FAIL_N's
effects last (R63). -/
def enterStream (s : State) : State :=
  let s := loadSeeds (openMark s)
  let s := loadWpl s s.med.wrap
  let s := { s with
    med := { s.med with arm := Vector.replicate 4 true }
    srv := { s.srv with stopCmd := false }
    rein := { s.rein with stopped := false, integ := 0, stepAt := 0, frozen := pfInForce s } }
  let s := guardScan s
  if pfInForce s && flushable s then beginFlush s false else s

/-- The mode changes: ATTENTION of every saddle and of the admin channel latches (R79, R446). -/
def modeAttention (s : State) : State := allSads.foldl (fun s n => latch s n 1) (latchPf s 1)

/-- A mode change is logged as MODE (R494). -/
def logMode (s : State) (a b : Mode) : State :=
  logE s .info srcChip 0x0105 [("from", 1, Mode.code a), ("to", 1, Mode.code b)]

/-- Puts a mode in force (R31, R32). -/
def putMode (s : State) (m : Mode) : State :=
  let old := s.pw.mode
  let s := { s with pw := { s.pw with mode := m, target := m, dom := domOf s m } }
  let s := if old != m then modeAttention (logMode s old m) else s
  let s := if old == .halt && m != .halt then { s with srv := { s.srv with stopCmd := false } } else s
  let s := if old == .stream && m != .stream then leaveStream s else s
  let s := if old == .service && m != .service then leaveService s else s
  let s := if m == .stream && old != .stream then enterStream s else s
  if m == .service && old != .service then enterService s else s

/-- HALT's cause still holds (R42). -/
def causeHolds (s : State) : Bool :=
  match s.pw.cause with
  | .thermal => s.pw.thermHold
  | .xtal => s.pw.xtalHold
  | .vcore => s.pw.avs.critical && s.pw.avs.ceil && s.pw.clk = 0
  | .motion => 2 ≤ s.srv.mdlFaults || 3 ≤ s.srv.mdlRun
  | _ => false

/-- The latched status bits whose "Kept over" column names neither HALT nor a core restart: TICK_STAT.RANGE, PWR_STAT bits 2:1,
CON_STAT bits 2:1 and CODE_STAT.MAXK. -/
def dropLatched (s : State) : State :=
  let s := mapSad s fun _ x => { x with maxK := 0 }
  { s with
    tk := { s.tk with range := false }
    pw := { s.pw with pf := { s.pw.pf with flushDone := false, pfRecord := false } }
    fil := { s.fil with conBreak := false, conRestored := false } }

/-- HALT_ENTRY (R40): at the boundary, for the cause found in the tick that closes. A mode change under way ends;
its MODE completes as in HALT. During start-up HALT is entered too, and start-up ends in it; in the recovery state, whose MODE_STAT
reads SERVICE (R60), the cause waits until the state ends (DESIGN CHOICE, log 125). A further cause in HALT changes nothing. -/
def haltEntry (s : State) : State :=
  match s.pw.haltPend with
  | none => s
  | some c =>
    if s.pw.recovery then s
    else if s.pw.mode == .halt then { s with pw := { s.pw with haltPend := none } }
    else
      let s := match s.pw.trans with
        | some t => match t.tag with
          | some g => complete s t.ch g (deniedMode .halt)
          | none => s
        | none => s
      let s := { s with pw := { s.pw with haltPend := none, trans := none, cause := c }, srv := { s.srv with stopCmd := true } }
      let s := logE (putMode s .halt) .error srcChip 0x0104 [("cause", 1, HaltCause.code c)]
      dropLatched { s with srv := { s.srv with stopCmd := true } }

/-! ### MODE (R33-R38) -/

/-- The transitions of the table under R33. -/
def modeNamed (a b : Mode) : Bool :=
  match a, b with
  | .park, .stage | .stage, .stream | .stream, .stage | .stage, .park | .park, .service | .service, .park | .halt, .park => true
  | _, _ => false

/-- BUSY.MODE with `held=`. -/
def busyMode (l : List SadNo) : Outc := { status := .busyMode, fields := [fld "held" (heldStr l)] }

/-- What refuses a mode change from a mode, in the order of R34; none when it may begin. A PARK that names no transition still
meets R37 first (file 02, corner cases). -/
def modeRefused (s : State) (cur : Mode) (ch : Chan) (unconf : Bool) (m : Mode) : Option Outc :=
  if cur == .stream && m == .park && !(holders s 1 ch).isEmpty then some (busyMode (holders s 1 ch))
  else if !modeNamed cur m then some (deniedMode cur)
  else
    let sadCh := ch != .adm
    let lower := holders s (Mode.rank m + 1) ch
    match cur, m with
    | .halt, _ =>
      if sadCh then some (failWhy .denied "scope")
      else if unconf then some (failWhy .denied "confirm")
      else if causeHolds s then some (failWhy .denied "halt" [fld "halt" (HaltCause.name s.pw.cause)])
      else none
    | .park, .stage => if s.cart.loaded then none else some { status := .notape }
    | .park, _ =>
      if sadCh then some (failWhy .denied "scope")
      else
        let l := allSads.filter fun n => heldMode s n != .park || !s.sad[n].unsync.isEmpty
        if l.isEmpty then none else some (busyMode l)
    | .service, _ => if sadCh then some (failWhy .denied "scope") else none
    | .stream, _ | .stage, .park => if lower.isEmpty then none else some (busyMode lower)
    | _, _ => none

/-- Begins a transition at the boundary (R35, R52): the voltage rises before a domain switches on; leaving STREAM ends
writing as R282 asks. -/
def beginTrans (s : State) (r : ModeReq) : State :=
  let s := if switchesOn s.pw.dom (domOf s r.target) then avsRaise s 4 else s
  let s := if s.pw.mode == .stream && s.med.lane != .idle then
      { s with med := { s.med with stopAfter := true, fillOwed := true } } else s
  { s with pw := { s.pw with
      target := r.target
      trans := some { ch := r.ch, tag := r.tag, source := s.pw.mode, target := r.target, start := s.clk.ptc } } }

/-- The order of R38: the admin channel's change first, then the saddles' in ascending number. -/
def chanRank : Chan → Nat
  | .adm => 0
  | .sad n => n.val + 1

/-- Applies one MODE request at the boundary (R34, R38), against the mode left by the ones before it. One that may
begin while another transition runs waits for its end. -/
def applyMode (s : State) (r : ModeReq) : State :=
  let cur := s.pw.target
  let unconf := ((r.tag.bind (entryOf s r.ch)).map (·.unconf)).getD false
  let done (s : State) (o : Outc) : State := match r.tag with
    | some t => complete s r.ch t o
    | none => s
  if cur = r.target then
    if s.pw.trans.isSome then { s with pw := { s.pw with reqs := s.pw.reqs ++ [r] } }
    else done s { status := .ok, fields := [fld "mode" (Mode.name cur)] }
  else match modeRefused s cur r.ch unconf r.target with
    | some o => done s o
    | none =>
      if s.pw.trans.isSome then { s with pw := { s.pw with reqs := s.pw.reqs ++ [r] } } else beginTrans s r

/-- The end of a transition at the boundary (R6, R33, R35): its steps have ended, the mode is in force and MODE completes. -/
def endTrans (s : State) : State :=
  match s.pw.trans with
  | none => s
  | some t =>
    if !t.done then s
    else
      let s := { s with pw := { s.pw with trans := none, cause := if t.source == .halt then .none else s.pw.cause } }
      let s := putMode s t.target
      match t.tag with
      | some g => complete s t.ch g { status := .ok, fields := [fld "mode" (Mode.name t.target)] }
      | none => s

/-- The mode changes of the boundary (R16 step 3, R38): a transition whose steps have ended takes effect, then the MODE requests are
applied. -/
def applyModes (s : State) : State :=
  let s := endTrans s
  let l := s.pw.reqs
  let order := (List.range 9).flatMap fun k => l.filter fun r => chanRank r.ch = k
  let live (r : ModeReq) : Bool := match r.tag with
    | some t => ((entryOf s r.ch t).map fun e => e.ended.isNone).getD false
    | none => true
  (order.filter live).foldl applyMode { s with pw := { s.pw with reqs := [] } }

/-- MODE's effect (R35): the change is asked for and takes effect at the boundary. -/
def modeAsk (ch : Chan) (target : Mode) (t : Nat) (s : State) : State :=
  { s with pw := { s.pw with reqs := s.pw.reqs ++ [{ ch := ch, tag := some t, target := target }] } }

/-- MODE. -/
def execMode (ch : Chan) (tag : Option Nat) (target : Mode) (s : State) : Host.Outcome State Fault Refusal :=
  verbRow ch tag (.mode target) (modeAsk ch target) s

/-- MODE_COMPLETE (R33, R35): the electrical steps and the motion of the transition have ended; it takes effect at the boundary. -/
def modeComplete (s : State) : State :=
  { s with pw := { s.pw with trans := s.pw.trans.map fun t => { t with done := true } } }

/-- MODE_COMPLETE. -/
def execModeComplete (s : State) : Host.Outcome State Fault Refusal := act s modeComplete

/-! ### Power failure (R62-R66, R406) -/

/-- A saddle's acknowledged girths not on tape: how many, and the first (R65). -/
def unsyncCount (x : Saddle) : Nat × Nat := (x.unsync.length, ((x.unsync.map (·.1)).min?).getD 0)

/-- The 20 entries of a power-fail record (R404, R406). -/
def pfEntriesNow (s : State) : List LogEntry :=
  let half (type v : Nat) : List LogEntry :=
    [{ type := type, arg := 0, value := v % 2 ^ 32 }, { type := type, arg := 1, value := v / 2 ^ 32 }]
  half 0x30 (now s) ++ half 0x31 s.clk.session.toNat ++ allSads.flatMap fun n =>
    let (k, g) := unsyncCount s.sad[n]
    [{ type := 0x32, arg := 256 * n.val + g / 2 ^ 32, value := g % 2 ^ 32 }, { type := 0x33, arg := n.val, value := k }]

/-- POWER_FAIL's body (R494, R497): per saddle the first girth and the count, and the complete byte. -/
def pfBody (l : List (Nat × Nat × Nat)) (complete_ : Bool) : List (String × Nat × Nat) :=
  (List.range 8).flatMap (fun n => match l.find? (·.1 = n) with
    | some (_, g, k) => [("first" ++ toString n, 5, g), ("count" ++ toString n, 4, k)]
    | none => [("first" ++ toString n, 5, 0), ("count" ++ toString n, 4, 0)]) ++
    [("complete", 1, if complete_ then 1 else 0)]

/-- What a record's entries list (R499): the PTC and session when all four of their entries count, and each saddle whose
FIRST and COUNT entries both count. -/
def pfRead (l : List LogEntry) : W64 × W64 × List (Nat × Nat × Nat) :=
  let at_ (t a : Nat) : Option Nat := (l.find? fun e => e.type = t && e.arg = a).map (·.value)
  let two (t : Nat) : Option Nat := match at_ t 0, at_ t 1 with
    | some lo, some hi => some (hi * 2 ^ 32 + lo)
    | _, _ => none
  let (p, q) := match two 0x30, two 0x31 with
    | some p, some q => (p, q)
    | _, _ => (0, 0)
  let sads := (List.range 8).filterMap fun n =>
    match l.find? fun e => e.type = 0x32 && e.arg / 256 % 8 = n, at_ 0x33 n with
    | some f, some k => some (n, f.arg % 256 * 2 ^ 32 + f.value, k)
    | _, _ => none
  (BitVec.ofNat 64 p, BitVec.ofNat 64 q, sads)

/-- The record of a recognition begins (R406): an erase in progress is suspended, and an erased sector takes the 20
entries; with neither sector erased, POWER_FAIL is logged at once. -/
def pfRecordBegin (s : State) : State :=
  let s := if s.fl.erasing.isSome then { s with fl := { s.fl with suspended := true } } else s
  let d0 := s.fl.pfDirty.getD 0 false
  let d1 := s.fl.pfDirty.getD 1 false
  if d0 && d1 then
    logE { s with pw := { s.pw with pf := { s.pw.pf with hasRec := false } } } .error srcChip 0x0107 (pfBody [] false)
  else { s with
    fl := { s.fl with pfSecond := d0, pfPlan := pfEntriesNow s, pfDirty := if d0 then [true, true] else [true, d1] }
    pw := { s.pw with pf := { s.pw.pf with recPend := true, hasRec := true } } }

/-- The recognition acts at the boundary (R62-R65). -/
def pfApply (s : State) : State :=
  if s.pw.pf.waiting && !s.pw.pf.recognised then
    let s := { s with
      pw := { s.pw with pf := { s.pw.pf with waiting := false, recognised := true } }
      rein := { s.rein with frozen := true } }
    let s := pfRecordBegin (latchPf (freezeSyncs s true) 4)
    if s.pw.mode == .stream && flushable s then beginFlush s false else s
  else s

/-- PWR_FAIL_RECOGNISED (R62): PWR_FAIL_N has been low for 2 µs; its effects begin at the next boundary. While those of a
recognition before it last, they go on (R66). -/
def execPwrFailRecognised (s : State) : Host.Outcome State Fault Refusal :=
  act s fun s => { s with pw := { s.pw with pf := { s.pw.pf with waiting := !s.pw.pf.recognised, returned := false } } }

/-- The record is complete (R65, R406). -/
def pfRecordDone (s : State) : State :=
  if s.pw.pf.recPend then
    let s := latchPf { s with pw := { s.pw with pf := { s.pw.pf with recPend := false, pfRecord := true } } } 4
    if s.fl.pfSecond then { s with fl := { s.fl with pf2 := s.fl.pfPlan, pfPlan := [] } }
    else { s with fl := { s.fl with pf1 := s.fl.pfPlan, pfPlan := [] } }
  else s

/-- POWER_FAIL_RECORD_DONE. -/
def execPowerFailRecordDone (s : State) : Host.Outcome State Fault Refusal := act s pfRecordDone

/-- FLUSH_DONE (R64): the flush epoch is written, and the write gates are held low. -/
def flushDone (s : State) : State :=
  let s := { s with
    med := { s.med with flush := false, flushStep := 0, gates := Vector.replicate 4 false, lane := .idle }
    pw := { s.pw with pf := { s.pw.pf with flushDone := true } } }
  afterFlush (latchPf s 4)

/-- FLUSH_DONE. -/
def execFlushDone (s : State) : Host.Outcome State Fault Refusal := actIf s (s.med.flush && 4 ≤ s.med.flushStep) flushDone

/-- Every effect of recognition ends (R66, R406): the record of this recognition, when a sector took it, is logged as POWER_FAIL and copied to flash at once, then its
sector is erased. -/
def pfEnd (s : State) : State :=
  if s.pw.pf.recognised && s.pw.pf.returned && !s.med.flush then
    let s := freezeSyncs (pfRecordDone s) false
    let s := { s with
      pw := { s.pw with pf := { s.pw.pf with recognised := false, returned := false } }
      rein := { s.rein with frozen := false }
      fl := { s.fl with suspended := false } }
    let rec_ := if s.fl.pfSecond then s.fl.pf2 else s.fl.pf1
    if !s.pw.pf.hasRec || rec_.isEmpty then s
    else
      let (_, _, l) := pfRead rec_
      let s := logE s .error srcChip 0x0107 (pfBody l true)
      { s with fl := { s.fl with pfErase := s.fl.pfErase ++ [if s.fl.pfSecond then 0x47 else 0x46] } }
  else s

/-- PWR_FAIL_RETURN (R66): PWR_FAIL_N has been high for 2 µs; the effects end at the first boundary at which no flush
epoch is being written. -/
def execPwrFailReturn (s : State) : Host.Outcome State Fault Refusal :=
  actIf s (s.pw.pf.recognised || s.pw.pf.waiting) fun s =>
    { s with pw := { s.pw with pf := { s.pw.pf with returned := true } } }

end Sys2Proof.Machine
end

