-- ==== Sys2Proof/Machine/Boot.lean ====
section
/-! DEFINITION. Power-on reset, start-up and the boot decision (R26, R58-R60, R405, R409, R410, R421-R424, R482, R499), and
core restarts (R32, R43). -/

namespace Sys2Proof.Machine

open Sys2Proof

/-! ### The boot decision (R424) -/

/-- FLASH_REERASE (R405): every sector whose latest BEGIN has no END is erased again, journaled; the sectors. -/
def reErase (s : State) : State × List Nat :=
  let l := unfinished s.fl.journal.entries
  let s := { s with fl := { s.fl with erasing := none, suspended := false, opRun := none, todo := [] } }
  (l.foldl (fun s k =>
    let s := sectorErased (journaled s k) k
    { s with fl := { s.fl with erases := inc s.fl.erases, reerase := inc s.fl.reerase, reerased := true } }) s, l)

/-- The verification of an image at a start (R413, R424): the boot record calls it valid, and its header, signature and
digest pass. -/
def slotPasses (s : State) (x : Slot) (o : BootObs) : Bool :=
  targetValid s (slotNo x) && (match x with
    | .a => o.slotAOk
    | .b => o.slotBOk)

/-- Entries of a type since the newest SELECT. -/
def sinceCount (s : State) (type : Nat) : Nat := ((sinceSelect s).filter (·.type = type)).length

/-- Fallback (R421): FALLBACK with the reason, then SELECT of the other slot with its configuration; none when that slot
cannot start. -/
def fallBack (s : State) (x : Slot) (reason : Nat) (o : BootObs) : State × Option Slot :=
  let y := Slot.other x
  let ok := slotConfirmed s y && slotPasses s y o
  let v := imgVersion (imageOf s y) (slotNo y)
  let s := appendLog s .boot { type := 0x15, arg := reason + 256 * slotNo x, value := if ok then v else 0 }
  let s := { s with fw := { s.fw with fellback := true, reason := reason } }
  if ok then
    let s := appendLog s .boot { type := 0x10, arg := slotNo y, value := v }
    match newestFor s u64Max fun c => c.fw = v with
    | some c => (appendLog s .select { type := 0x20, arg := 2, value := c.version }, some y)
    | none => (s, some y)
  else (s, none)

/-- Steps 4 to 6 of R424: the slot that starts, if one does. -/
def chooseSlot (s : State) (o : BootObs) : State × Option Slot :=
  let x := selectedSlot s
  let verified (s : State) (x : Slot) (fell : Bool) : State × Option Slot :=
    if slotPasses s x o then (s, some x) else if fell then (s, none) else fallBack s x 2 o
  if selectTrial s && sinceCount s 0x13 = 0 then
    if 3 ≤ sinceCount s 0x11 then fallBack s x 0 o
    else if sinceCount s 0x14 ≠ 0 then fallBack s x 1 o
    else
      let s := appendLog s .boot { type := 0x11, arg := sinceCount s 0x11 + 1, value := s.clk.session.toNat % 2 ^ 32 }
      verified s x false
  else verified s x false

/-- The firmware state that a start leaves (FW_STAT). -/
def bootFw (s : State) (x : Option Slot) : State :=
  match x with
  | some x =>
    let trial := selectTrial s && sinceCount s 0x13 = 0
    { s with fw := { s.fw with
      run := slotNo x, trial := trial, boots := if trial then sinceCount s 0x11 else 0, health := 0
      marks := if trial then sinceCount s 0x12 else 0, expired := decide (sinceCount s 0x14 ≠ 0), confirmed := slotConfirmed s x } }
  | none => { s with fw := { s.fw with run := 2, trial := false, boots := 0, marks := 0, health := 0 } }

/-- Start-up erases an unfinished COMMIT, and of more than 8 records the lowest versions not in force (R409). -/
def trimConfigs (s : State) : State :=
  let named := (s.fl.select.entries.filter (·.type = 0x20)).map (·.value)
  let top := maxL named
  let drop (s : State) (p : CfgRec → Bool) : State :=
    let gone := s.fl.cfgs.filter p
    let s := { s with fl := { s.fl with cfgs := s.fl.cfgs.filter fun c => !p c } }
    gone.foldl (fun s c => (List.range 16).foldl (fun s i => startErase s (0x100 + 16 * c.place + i)) s) s
  let s := drop s fun c => top < c.version && !named.contains c.version
  let over_ := s.fl.cfgs.length - 8
  let low := (ordSort (((s.fl.cfgs.map (·.version)).filter (· ≠ selVersion s)).map Int.ofNat)).take over_
  drop s fun c => low.contains (Int.ofNat c.version)

/-- The regulator answers VOUT_MODE, or the voltage loop stays off for the session (R50). -/
def avsStart (s : State) (ok : Bool) : State :=
  let was := s.pw.avs.offStart
  let on := ok && !was
  let s := { s with pw := { s.pw with avs := { enabled := on, offBit := !on, offStart := !on, last := s.clk.ptc } } }
  if on || was then s else logE s .warn srcChip 0x010B

/-- The KEK moves from the first copy that passes into the key store (R416); a unit whose copies were programmed and fail
logs KEK_LOST (log 18). -/
def kekStart (s : State) : State :=
  let k := s.fl.keyA.orElse fun _ => s.fl.keyB
  let s := { s with keys := { s.keys with kek := k } }
  if k.isNone && s.fl.locked then logE s .error srcChip 0x0806 else s

/-- The recovery state (R60): MODE_STAT reads SERVICE, the console is seated at ADMIN in typed mode. -/
def enterRecovery (s : State) : State :=
  let s := { s with
    pw := { s.pw with recovery := true, mode := .service, target := .service, dom := domOf s .starting }
    cfg := { s.cfg with session := put { id := .consoleSeat } (.n 0) s.cfg.session }
    fil := { s.fil with con := { s.fil.con with mode := .typed } } }
  let s := { s with pw := { s.pw with dom := { s.pw.dom with dram := .on } }, fl := { s.fl with queueOpen := true } }
  logE s .info srcChip 0x0106 [("fw", 4, imgVersion s.fl.stage1 2), ("cfg", 4, 0), ("run", 1, 2)]

/-- The boot decision and what start-up does before PARK (R424, R58 steps 2 to 7). -/
def bootDecide (s : State) (o : BootObs) : State :=
  let (s, redone) := reErase s
  if !targetValid s 2 || s.fl.noBoot || !o.stage1Ok then { s with pw := { s.pw with dead := true } }
  else
    let s := { s with
      pw := { s.pw with dom := { s.pw.dom with dram := .on, flash := .on } }
      pool := { s.pool with total := if s.pw.gib16 then 245760 else 114688 } }
    let s := kekStart { s with fw := { s.fw with fellback := false } }
    let (s, x) := chooseSlot s o
    let s := bootFw s x
    let s := redone.foldl (fun s k => logE s .warn srcChip 0x0803 [("sector", 2, k)]) s
    match x with
    | none => enterRecovery s
    | some x =>
      let s := trimConfigs (configLoad s x)
      let s := if s.fw.fellback then
          logE s .error srcChip 0x0809 [("reason", 1, s.fw.reason), ("fw", 4, imgVersion (imageOf s x) (slotNo x))] else s
      avsStart s o.voutOk

/-- The copies of a loaded configuration that other registers and pins follow (R9, R80, R138); the console's rate stands where a restore
set it for the session (R136). -/
def syncCfg (s : State) : State :=
  let s := selectSource s (pnat s .tickSource == 1)
  let s := mapSad s fun n x => { x with irq := { x.irq with ticks := pnat s .sadIrqTicks n.val, count := pnat s .sadIrqCount n.val } }
  { s with
    fil := { s.fil with baud := if s.fil.baudHeld then 115200 else [9600, 19200, 38400, 57600, 115200, 230400, 460800, 921600, 1000000, 1500000, 2000000, 3000000].getD (pnat s .consoleBaud) 115200 }
    pcie := { s.pcie with irq := { s.pcie.irq with ticks := pnat s .admIrqTicks, count := pnat s .admIrqCount } } }

/-! ### Power-on reset (R26, R70, R482) -/

/-- EVENT_LOG_LOAD (R499): the flash ring in SEQ order, and the power-fail record as POWER_FAIL before any record of the new
session; then the record's sector is erased. -/
def loadEvents (s : State) : State :=
  let l := s.fl.ring
  let bad := s.fl.ringBad.length
  let next := match l.getLast? with
    | some e => (e.seq + 1) % 2 ^ 32
    | none => 0
  let s := { s with evt := { s.evt with
    ring := l, next := next, newest := (l.getLast?.map (·.seq)).getD 0, copied := next, flashed := next, loaded := true, crcbad := sat 8 bad } }
  let rec_ := if s.fl.pf1.isEmpty then s.fl.pf2 else s.fl.pf1
  if rec_.isEmpty then s
  else
    let (p, q, sads) := pfRead rec_
    let s := stage s { ptc := p, session := q, sev := .error, src := srcChip, code := 0x0107, body := pfBody sads (decide (20 ≤ rec_.length)) }
    { s with fl := { s.fl with pfErase := [if s.fl.pf1.isEmpty then 0x47 else 0x46] } }

/-- A record that is being programmed in the event log when the part goes into reset may stay half programmed (file 18, corner cases). -/
def tornRing (s : State) : Flash :=
  let fl := { s.fl with ringAt := none }
  match s.fl.ring.getLast? with
  | some e =>
    if s.fl.ringAt == some s.clk.ptc && Config.tornRecord s.free then { fl with ring := fl.ring.dropLast, ringBad := fl.ringBad ++ [e.seq] } else fl
  | none => fl

/-- What PORST_N leaves of the state (R43, R70): flash and the cartridge keep their contents; a power-fail record under way
keeps the entries programmed up to then (R65); commands not yet taken stay queued. -/
def resetState (s : State) (porst : Bool) : State :=
  let fl := tornRing s
  let n := Config.pfEntries s.free % 21
  let part := if s.pw.pf.recPend then fl.pfPlan.take n else []
  let fl := { fl with
    pf1 := if s.pw.pf.recPend && !fl.pfSecond then part else fl.pf1
    pf2 := if s.pw.pf.recPend && fl.pfSecond then part else fl.pf2
    pfPlan := [], pfErase := [], suspended := false, eraseRan := none, readWaits := false, opRun := none, queueOpen := false, queue := [], todo := [], erasing := none
    erases := 0, fails := 0, reerase := 0, reerased := false }
  { State.reset with
    pending := s.pending, fl := fl, free := s.free + 1
    clk := { porst := porst, uv := !porst }
    cart := { mem := s.cart.mem, present := s.cart.present, threaded := s.cart.threaded } }

/-- PORST_ASSERT (R26, R70, R448). -/
def execPorstAssert (s : State) : Host.Outcome State Fault Refusal := .next (resetState s true)

/-- SUPPLY_UNDERVOLTAGE (R482): the part resets itself as under PORST_N. -/
def execSupplyUndervoltage (s : State) : Host.Outcome State Fault Refusal :=
  .next (if s.clk.porst then { s with clk := { s.clk with uv := true } } else resetState s false)

/-- Start-up from reset (R28, R58, R424). -/
def startUp (entropy : W64) (gib16 : Bool) (o : BootObs) (s : State) : State :=
  let s := { s with clk := { s.clk with porst := false, uv := false, session := entropy }, pw := { s.pw with gib16 := gib16 } }
  let s := bootDecide s o
  if s.pw.dead then s else loadEvents s

/-- PORST_DEASSERT (R28, R58, R478): the session ID is drawn, never 0, and start-up runs. With TMODE high, or a supply short,
the part stays in reset. -/
def execPorstDeassert (entropy : W64) (tmode gib16 : Bool) (obs : BootObs) (s : State) : Host.Outcome State Fault Refusal :=
  .next (if !s.clk.porst || entropy = 0 || tmode then s
    else if s.clk.uv then { s with clk := { s.clk with porst := false } }
    else { syncCfg (startUp entropy gib16 obs s) with pending := s.pending, clk := { s.clk with porst := false, session := entropy } })

/-- UNDERVOLTAGE_RELEASE (R482): the rail has been back within tolerance for 1 ms, and the part starts up unless PORST_N is
asserted. -/
def execUndervoltageRelease (entropy : W64) (tmode gib16 : Bool) (obs : BootObs) (s : State) : Host.Outcome State Fault Refusal :=
  .next (if !s.clk.uv || entropy = 0 || tmode then s
    else if s.clk.porst then { s with clk := { s.clk with uv := false } }
    else { syncCfg (startUp entropy gib16 obs s) with pending := s.pending, clk := { s.clk with uv := false, session := entropy } })

/-- START_UP_COMPLETE (R32, R58, R438): PARK, or HALT after a watchdog expiry or a cause found meanwhile (R40, log 125); DEV_READY;
doorbells that came before it are acted on; after PORST_N the console sends the HELLO line. -/
def startUpComplete (s : State) : State :=
  let s := if s.pw.restartHalt then haltEntry s else s
  let old := s.pw.mode
  let halted := old == .halt
  let m : Mode := if halted then .halt else .park
  let cold := s.pw.cold
  let s := { s with
    pw := { s.pw with devReady := true, mode := m, target := m, dom := domOf s m, cause := if halted then s.pw.cause else .none
                      restartHalt := false, cold := false } }
  let s := (List.finRange 9).foldl lateBell s
  let x := (runningSlot s).getD .a
  let s := logE s .info srcChip 0x0106 [("fw", 4, imgVersion (imageOf s x) (slotNo x)), ("cfg", 4, s.cfg.version), ("run", 1, s.fw.run)]
  let s := if old == m then s else if old == .starting then logMode s old m else modeAttention (logMode s old m)
  if cold then reply s { tr := .console, tag := .unsol, status := .ok, fields := helloFields s "adm" s.fil.con.mode } else s

/-- START_UP_COMPLETE. -/
def execStartUpComplete (s : State) : Host.Outcome State Fault Refusal :=
  actIf s (!s.pw.recovery && !s.pw.devReady) startUpComplete

/-! ### Core restart (R32, R43, R449) -/

/-- Ends every command that has not committed (R43). -/
def restartQueues (s : State) : State :=
  let o := failWhy .fault "restart"
  let end_ (s : State) (ch : Chan) : State :=
    modQ s ch fun l => l.map fun e => if e.ended.isNone then { e with ended := some o, data := [], segs := [] } else e
  let s := allChans.foldl end_ s
  let s := allSads.foldl (fun s n => trimCaddies s n (blockOf s n)) s
  { s with med := { s.med with locks := [] } }

/-- What a core restart does to the state (R43 and the registers' "Kept over" columns). The mode changes only when the restart
completes (R32), or by HALT; its domains stay as they are, so that tension, tape position and the loaded cartridge are kept (R31, R36,
R43; log 51). From the recovery state start-up goes on. -/
def restartState (s : State) (halt : Bool) : State :=
  let s := restartTick (dropLatched (restartQueues (leaveStream (freeSystem s))))
  let s := mapSad s fun _ x => { x with reset := none, resetReq := false, irq := { x.irq with cause := [], cnt := [], due := [], masked := false } }
  { s with
    pw := { s.pw with
      mode := if s.pw.recovery then .starting else s.pw.mode, target := if s.pw.recovery then .starting else s.pw.mode, devReady := false
      recovery := false, reqs := [], trans := none, restartHalt := halt, restartPend := false, clk := 0, clkDown := 0, busy := []
      dom := if s.pw.recovery then domOf s .starting else s.pw.dom }
    cfg := { s.cfg with uncommitted := [], never := [] }
    keys := { s.keys with slots := Vector.replicate 16 none, stage := Vector.replicate 16 [], kekStage := [] }
    cart := { s.cart with motion := none, cmWait := none }
    med := { s.med with
      positioned := false, ofs := 0, skew := 0
      mapShown := [], ch := s.med.ch.map fun w => { w with wpl := {} } }
    port := s.port.map fun x => { x with underrun := false, overrun := false }
    rd := { s.rd with
      cur := none, recon := [], reading := false, locMethod := 0, locProbes := 0
      ch := s.rd.ch.map fun c => { c with gain := 0, agcSat := false, eqSat := false, snrQ := 0, iterMean := 0, locked := false } }
    srv := { ffReel := s.srv.ffReel, ffLong := s.srv.ffLong, pos := s.srv.pos, stopCmd := true, tension := s.srv.tension, encS := s.srv.encS, encT := s.srv.encT,
             mdlErr := s.srv.mdlErr }
    rein := { bhCnt := s.rein.bhCnt, padDs := s.rein.padDs }
    sens := { pinLow := s.sens.pinLow, stuckTold := s.sens.stuckTold, initDue := s.sens.initDue, errs := s.sens.errs, clears := s.sens.clears }
    svc := {}
    diag := { calSel := s.diag.calSel }
    fl := { s.fl with queueOpen := false, queue := [], reerased := false }
    pool := { s.pool with audRun := false, audCont := false } }

/-- A core restart (R32): the boot decision runs again; START_UP_COMPLETE ends it in PARK, or in HALT. -/
def coreRestart (halt : Bool) (o : BootObs) (s : State) : State := syncCfg (bootDecide (restartState s halt) o)

/-- CORE_RESTART: ACTIVATE has asked for it (R175). -/
def execCoreRestart (obs : BootObs) (s : State) : Host.Outcome State Fault Refusal := actIf s s.pw.restartPend (coreRestart false obs)

/-- WATCHDOG_EXPIRY (R32, R40): the control cluster has been silent for 32 ticks. The core restarts, and HALT is entered with cause
WATCHDOG at the boundary that closes the tick. -/
def watchdogExpiry (obs : BootObs) (s : State) : State := haltRequest (coreRestart true obs s) .watchdog

/-- WATCHDOG_EXPIRY. -/
def execWatchdogExpiry (obs : BootObs) (s : State) : Host.Outcome State Fault Refusal := actIf s (ready s) (watchdogExpiry obs)

end Sys2Proof.Machine
end

