-- ==== Sys2Proof/Machine/SoftC1.lean ====
section
/-! DEFINITION. The soft side of the read chain (file 11): unreliable bits, the maps from the detector's LLRs to the codeword
(R333), and C1's layered normalised min-sum decoder (R334). LLRs are integers, positive for bit 0, ±31 being the strongest message of
6 bits. -/

namespace Sys2Proof.Machine

open Sys2Proof

/-! ### Unreliable bits (R326) -/

/-- One sample of the two flags of R326: whether its bit is flagged, and whether a dropout's window ends on it. -/
def flagStep (target pct : Nat) (f : Flagger) (adc : Int) : Flagger × Bool × Bool :=
  let win := (adc.natAbs :: f.win).take 32
  let below := win.length == 32 && decide (100 * sumL win < 32 * pct * target)
  let starts := below && !f.low
  let above := if f.low && !below then f.above + 1 else 0
  let low := below || (f.low && decide (above < 32))
  let clip := if adc ≤ -128 || 127 ≤ adc then f.clip + 1 else 0
  let hot := if 4 ≤ clip then 64 else f.hot - 1
  ({ win := win, low := low, above := above, clip := clip, hot := hot }, below || f.low || 0 < f.hot, starts)

/-- Which bits of a run of samples are flagged (R326): a dropout's flag covers its window from the start. -/
def flagBits (target pct : Nat) (f : Flagger) (adcs : List Int) : Flagger × List Bool :=
  let (f, l) := adcs.foldl (fun (acc : Flagger × List Bool) a =>
    let (f, flag, starts) := flagStep target pct acc.1 a
    (f, if starts then List.replicate (min 32 (acc.2.length + 1)) true ++ acc.2.drop 31 else flag :: acc.2)) (f, [])
  (f, l.reverse)

/-- Flagged bits enter C1 with LLR 0 (R326). -/
def eraseFlagged (flags : List Bool) (llr : List Int) : List Int :=
  llr.zipIdx.map fun (v, i) => if flags.getD i false then 0 else v

/-! ### From the detector to C1 (R333) -/

/-- The word bits' LLRs of one 25-bit word: the flag's LLR, then 24 bits (R333). -/
def wordLlr : List Int → List Int
  | [] => []
  | f :: c => (c.zip flipMask).map fun (v, m) => if m then f.sign * v.sign * min (f.natAbs : Int) v.natAbs else v

/-- The LLRs that enter C1: demodulated, and descrambled by the sequence of the slot (R333). -/
def c1Llrs (seed : Nat) (llr : List Int) : List Int :=
  let l := (parts 25 llr).flatMap wordLlr
  List.zipWith (fun v b => if b then -v else v) l (scrambleBits l.length seed)

/-- Hard decisions: a negative LLR is a 1 (R333). -/
def hardBits (l : List Int) : List Bool := l.map fun v => decide (v < 0)

/-! ### C1 (R266, R334) -/

/-- The non-zero blocks of a block row of H: column and shift (R266). -/
def c1Row : Nat → List (Nat × Nat)
  | 0 => (List.range 24).map (fun j => (j, 0)) ++ [(24, 1), (25, 0)]
  | 1 => (c1Shifts.zipIdx.map fun (a, j) => (j, a)) ++ [(24, 0), (25, 0), (26, 0)]
  | _ => (c1Shifts.zipIdx.map fun (a, j) => (j, 2 * a)) ++ [(24, 1), (26, 0)]

/-- A block seen by the checks of its row: check x meets bit (x + s) mod 176 (R266). -/
def turn (s : Nat) (v : List Int) : List Int := v.drop (s % 176) ++ v.take (s % 176)

/-- A 6-bit message (R334). -/
def clip6 (v : Int) : Int := max (-31) (min 31 v)

/-- A check's messages to its bits: the sign of the others and 0.75 of their least magnitude (R334). -/
def checkNode (qs : List Int) : List Int :=
  (List.range qs.length).map fun i =>
    let o := qs.eraseIdx i
    let sign := if o.countP (· < 0) % 2 = 1 then -1 else 1
    let least := o.foldl (fun m q => min m q.natAbs) 1000000
    clip6 (sign * ((3 * least / 4 : Nat) : Int))

/-- Transposes the messages of a layer's blocks into those of its 176 checks, and back. -/
def byCheck (n : Nat) (l : List (List Int)) : List (List Int) := (List.range n).map fun x => l.map fun v => v.getD x 0

/-- One layer: the codeword's blocks and the layer's messages, before and after (R334). -/
def layerStep (row : List (Nat × Nat)) (blocks msgs : List (List Int)) : List (List Int) × List (List Int) :=
  let q := (row.zip msgs).map fun ((j, s), m) => List.zipWith (· - ·) (turn s (blocks.getD j [])) m
  let m' := byCheck row.length ((byCheck 176 q).map checkNode)
  let blocks := (row.zip (q.zip m')).foldl (fun b ((j, s), q, m) => b.set j (turn (176 - s % 176) (List.zipWith (· + ·) q m))) blocks
  (blocks, m')

/-- One decoder iteration over the three layers (R334). -/
def c1Iterate (x : List (List Int) × List (List (List Int))) : List (List Int) × List (List (List Int)) :=
  (List.range 3).foldl (fun (x : List (List Int) × List (List (List Int))) i =>
    let (b, m) := layerStep (c1Row i) x.1 (x.2.getD i [])
    (b, x.2.set i m)) x

/-- Decoding within some iterations, which stops as soon as the syndrome is zero: the word and the iterations used (R334). -/
def c1Run : Nat → Nat → List (List Int) × List (List (List Int)) → List Bool × Nat
  | 0, used, x => (hardBits x.1.flatten, used)
  | k + 1, used, x =>
    let w := hardBits x.1.flatten
    if c1Ok w then (w, used) else c1Run k (used + 1) (c1Iterate x)

/-- Decodes one set of LLRs from fresh messages (R334; log 140). -/
def c1Decode (iters : Nat) (llr : List Int) : List Bool × Nat :=
  c1Run iters 0 (parts 176 llr, (List.range 3).map fun i => (c1Row i).map fun _ => List.replicate 176 0)

/-- The global rounds of detector and decoder (R334): each runs at most `per` iterations on the LLRs that its detector round gives,
all together at most `left`. Decoding stops as soon as the syndrome is zero. -/
def c1Rounds (per : Nat) : Nat → Nat → List (List Int) → List Bool × Nat
  | _, used, [] => ([], used)
  | left, used, llr :: t =>
    let (w, n) := c1Decode (min per left) llr
    if c1Ok w || t.isEmpty then (w, used + n) else c1Rounds per (left - n) (used + n) t

end Sys2Proof.Machine
end

