-- ==== Sys2Proof/Machine/ReadPath.lean ====
section
/-! DEFINITION. The read chain (file 11): wedges, rows, the equaliser and detector updates, C2 and C3 with erasures, the
rescue pass, and the girths of a data set that is final. -/

namespace Sys2Proof.Machine

open Sys2Proof

/-! ### Reed-Solomon decoding with erasures (R337, R338) -/

/-- Drops the zero coefficients of highest degree; polynomials are lowest degree first here. -/
def polyTrim (p : List Byte) : List Byte := (p.reverse.dropWhile (· == 0)).reverse

/-- Sum of two polynomials. -/
def polyAdd : List Byte → List Byte → List Byte
  | [], q => q
  | p, [] => p
  | a :: p, b :: q => (a ^^^ b) :: polyAdd p q

/-- Product of two polynomials. -/
def polyMul : List Byte → List Byte → List Byte
  | [], _ => []
  | a :: p, q => polyAdd (q.map (gfMul a)) (0 :: polyMul p q)

/-- The value of a polynomial. -/
def polyVal : List Byte → Byte → Byte
  | [], _ => 0
  | a :: p, x => a ^^^ gfMul x (polyVal p x)

/-- Long division within some steps: quotient and remainder. -/
def polyDiv : Nat → List Byte → List Byte → List Byte × List Byte
  | 0, r, _ => ([], r)
  | k + 1, r, d =>
    let r := polyTrim r
    let d := polyTrim d
    if d.isEmpty || r.length < d.length then ([], r)
    else
      let c := gfMul (r.getLastD 0) (gfInv (d.getLastD 0))
      let m := List.replicate (r.length - d.length) (0 : Byte) ++ [c]
      let (q, z) := polyDiv k (polyAdd r (polyMul m d)) d
      (polyAdd m q, z)

/-- The extended Euclidean algorithm until the remainder's degree falls below (n + f) / 2: remainder and multiplier. -/
def euclid (n f : Nat) : Nat → List Byte → List Byte → List Byte → List Byte → List Byte × List Byte
  | 0, _, r, _, t => (r, t)
  | k + 1, r0, r1, t0, t1 =>
    let r := polyTrim r1
    if 2 * r.length < n + f + 2 then (r, t1)
    else
      let (q, z) := polyDiv 64 r0 r
      euclid n f k r z t1 (polyAdd t0 (polyMul q t1))

/-- The formal derivative over GF(2^8). -/
def polyDeriv (p : List Byte) : List Byte := (p.zipIdx.drop 1).map fun (a, i) => if i % 2 = 1 then a else 0

/-- Decodes a word of `n` parity bytes with erased positions: the codeword, and the errors found outside them, when
2e + f ≤ n and e ≤ `emax` (R337, R338). -/
def rsDecode (n emax : Nat) (er : List Nat) (w : List Byte) : Option (List Byte × Nat) :=
  let f := er.length
  let syn := syndromes n w
  if n < f then none
  else if syn.all (· == 0) then some (w, 0)
  else
    let loc (i : Nat) : Byte := alpha (w.length - 1 - i)
    let gam := er.foldl (fun g i => polyMul g [1, loc i]) [1]
    let xi := (polyMul syn gam).take n
    let (om, la) := euclid n f (n + 1) (List.replicate n 0 ++ [1]) xi [] [1]
    let psi := polyTrim (polyMul la gam)
    let der := polyDeriv psi
    let roots := (List.range w.length).filter fun i => polyVal psi (gfInv (loc i)) == 0
    let fixed := roots.foldl (fun w i =>
      let x := gfInv (loc i)
      let v := gfMul (loc i) (gfMul (polyVal om x) (gfInv (polyVal der x)))
      w.set i (w.getD i 0 ^^^ v)) w
    let e := ((List.range w.length).filter fun i => !er.contains i && w.getD i 0 != fixed.getD i 0).length
    if (syndromes n fixed).all (· == 0) && 2 * e + f ≤ n && e ≤ emax then some (fixed, e) else none

/-! ### The front end (R325-R332) -/

/-- The offset of the closest match of a pattern in a window, and its distance (R328, R329). -/
def bestMatch (pat win : List Bool) : Nat × Nat :=
  let dist (k : Nat) : Nat := ((pat.zip (win.drop k)).filter fun (a, b) => a != b).length
  (List.range (win.length + 1 - pat.length)).foldl (fun b k => if dist k < b.2 then (k, dist k) else b) (0, 33)

/-- A gain step in tracking (R325): one code, when the error of 64 bits' mean exceeds 1/16 of the target. -/
def agcStep (target : Nat) (x : RCh) (sum : Nat) : RCh :=
  let up := 64 * target < 16 * (64 * target - sum)
  let down := 64 * target < 16 * (sum - 64 * target)
  let g := min 127 (if up then x.gain + 1 else if down then x.gain - 1 else x.gain)
  { x with gain := g, agcSat := x.agcSat || g = 0 || g = 127 }

/-- A gain step in acquisition (R325): up to ±4 codes. -/
def agcAcqStep (target : Nat) (x : RCh) (sum : Nat) : RCh :=
  let d : Int := max (-4) (min 4 (Config.agcAcquire sum target))
  let g := min 127 ((x.gain : Int) + d).toNat
  { x with gain := g, agcSat := x.agcSat || g = 0 || g = 127 }

/-- One unflagged bit of the gain loop, which updates every `n` bits by `f` (R325). -/
def agcBit (n : Nat) (f : RCh → Nat → RCh) (x : RCh) (adc : Int) : RCh :=
  let y := { x with agcN := x.agcN + 1, agcSum := x.agcSum + adc.natAbs }
  if n ≤ y.agcN then { f y y.agcSum with agcN := 0, agcSum := 0 } else y

/-- A phase within the bit period. -/
def wrapPhase (p : Rat) : Rat := p - (p.floor : Rat)

/-- One bit on which the timing loop coasts at the frequency it holds (R326). -/
def coast (x : RCh) : RCh := { x with phase := wrapPhase (x.phase + x.freq) }

/-- One bit of the timing loop: a phase error moves the frequency and the phase by the loop's gains (R327). -/
def timeStep (gain : Rat × Rat) (x : RCh) (err : Int) : RCh :=
  let e : Rat := (err : Rat) / 4096
  coast { x with freq := x.freq + gain.2 * e, phase := x.phase + gain.1 * e }

/-- One bit of acquisition: the frequency stays within ±4 % of the nominal bit rate (R327). -/
def acqStep (gain : Rat × Rat) (x : RCh) (err : Int) : RCh :=
  let y := timeStep gain x err
  { y with freq := max (-1 / 25) (min (1 / 25) y.freq) }

/-- One bit of tracking: the tentative decisions drive the loop 8 bits late (R327). -/
def followStep (gain : Rat × Rat) (x : RCh) (err : Int) : RCh :=
  match x.late ++ [err] with
  | e :: t => if 8 ≤ t.length then timeStep gain { x with late := t } e else coast { x with late := e :: t }
  | [] => coast x

/-- Flags the bits of samples (R326): the channel after them, and which are flagged. -/
def flagRun (s : State) (x : RCh) (adcs : List Int) : RCh × List Bool :=
  let (f, l) := flagBits (pnat s .agcTarget) (pnat s .dropoutPct) x.flags adcs
  ({ x with flags := f }, l)

/-- Acquisition at a wedge's preamble (R325-R327): the gain loop starts from the code of the wedge before, the phase is set from
the first 16 bits, and the loop runs for the next 240; it then tracks. Flagged bits hold the loops. -/
def acquire (s : State) (o : AcqObs) (x : RCh) : RCh :=
  let (x, flags) := flagRun s { x with gain := x.gainAt, agcN := 0, agcSum := 0, tracking := false, late := [] } (o.bits.map (·.1))
  let gain := Config.timingGain (pnat s .acqBw)
  let x := ((o.bits.zip flags).zipIdx).foldl (fun x ((b, flag), i) =>
    let x := if flag then x else agcBit 8 (agcAcqStep (pnat s .agcTarget)) x b.1
    if i < 15 then x
    else if i = 15 then if (flags.take 16).any id then (16 : Nat).fold (fun _ _ x => coast x) x else { x with phase := wrapPhase ((o.zero : Rat) / 4096) }
    else if flag then coast x else acqStep gain x b.2) x
  { x with tracking := true, gainAt := x.gain, agcN := 0, agcSum := 0 }

/-- The target response's coefficients (R331), by `read.eq.target`: PR4, EPR4, GPR3. -/
def targetTaps (k : Nat) (x : RCh) : List Rat :=
  match k with
  | 0 => [1, 0, -1]
  | 1 => [1, 1, -1, -1]
  | _ => [1, x.g1, x.g2]

/-- A bit's level on the channel (log 133). -/
def bitLevel (b : Bool) : Rat := if b then 1 else -1

/-- A branch of the detector's trellis: state, bit, next state and the target's output. -/
structure Branch where
  src : Nat
  bit : Bool
  dst : Nat
  out : Rat

/-- The states of the detector for a target (R331): one for each run of bits that the response remembers. -/
def detStates (t : List Rat) : Nat := 2 ^ (t.length - 1)

/-- The detector's trellis on a target (R331, R332); bit i of a state is the bit i + 1 before. -/
def trellis (t : List Rat) : List Branch :=
  (List.range (detStates t)).flatMap fun st => [false, true].map fun b =>
    let past := (List.range (t.length - 1)).map fun i => bitLevel (st.testBit i)
    { src := st, bit := b, dst := (2 * st + b.toNat) % detStates t, out := ((t.zip (bitLevel b :: past)).map fun (c, l) => c * l).sum }

/-- The state that past decisions stand for, newest first. -/
def stateOf (t : List Rat) (past : List Bool) : Nat := ((past.take (t.length - 1)).zipIdx.map fun (b, i) => b.toNat * 2 ^ i).sum

/-- The target response to decisions, newest first: the output of their branch (R331). -/
def targetOut (t : List Rat) : List Bool → Rat
  | [] => 0
  | b :: past => (((trellis t).find? fun e => e.src = stateOf t past && e.bit == b).map (·.out)).getD 0

/-- The equaliser's output: taps in units of 1/1,024 on samples in the same unit (R330). -/
def eqOut (x : RCh) (o : BitObs) : Rat := ((x.taps.zip o.x).map fun (c, v) => c * (v : Rat)).sum / 1048576

/-- The equaliser's output minus the target response to the decisions (R330, R332). -/
def eqErr (k : Nat) (x : RCh) (o : BitObs) : Rat := eqOut x o - targetOut (targetTaps k x) o.dec

/-- An LMS step of the equaliser (R330), taps in codes, and of GPR3's coefficients at 2^−(μ+4), each within ±2.0 (R331). -/
def lmsStep (mu k : Nat) (x : RCh) (o : BitObs) : RCh :=
  let e := eqErr k x o
  let moved := x.taps.zipIdx.map fun (c, i) => c + e * (o.x.getD i 0 : Rat) / 2 ^ mu
  let out := moved.any fun c => c < -2048 || 2047 < c
  let adapt (g : Rat) (i : Nat) : Rat :=
    if k = 2 then max (-2) (min 2 (g + e * bitLevel (o.dec.getD i false) / 2 ^ (mu + 4))) else g
  { x with
    taps := moved.map fun c => max (-2048) (min 2047 c), eqSat := x.eqSat || out
    g1 := adapt x.g1 1, g2 := adapt x.g2 2 }

/-- A detector update (R332), for the three-bit pattern centred on the bit. σ² never falls below 1/16 of its value set by CAL EQ,
which is 1 here (log 10). -/
def detStep (shift k : Nat) (x : RCh) (o : BitObs) : RCh :=
  let p := 4 * (o.dec.getD 1 false).toNat + 2 * (o.dec.getD 0 false).toNat + o.next.toNat
  let w : Rat := 1 / 2 ^ shift
  let b := x.bias.getD p 0
  let v := x.var.getD p 1
  let e := eqErr k x o
  { x with bias := x.bias.set p (b + w * (e - b)), var := x.var.set p (max (x.floor.getD p 0) (v + w * (e * e - v))) }

/-- Reading starts on a wrap: every lane loads its seed (R323, R330). -/
def startRead (s : State) (w : Nat) : State := loadSeeds { s with rd := { s.rd with wrap := w } }

/-- Channels of `read.chan_ignore`. -/
def ignored (s : State) (c : ChNo) : Bool := (plist s .chanIgnore).contains (Int.ofNat c.val)

/-- A channel loses lock (R329). -/
def loseLock (s : State) (c : ChNo) : State :=
  if s.rd.ch[c].locked then
    modRCh { s with rd := { s.rd with lockLoss := inc s.rd.lockLoss } } c fun x => { x with locked := false, missRun := 0 }
  else s

/-- READ_WEDGE_SYNC (R327, R328, R359): acquisition on the preamble, the sync mark within bits 224 to 320 of the expected wedge
start, the identity and, in wedge mode, the burst windows. -/
def readWedgeSync (c : ChNo) (win : AcqObs) (ident : List Bool) (a b : Nat) (s : State) : State :=
  let s := modRCh s c (acquire s win)
  let (_, d) := bestMatch syncBits win.sync
  if 4 < d then s
  else
    let s := modRCh s c fun x => { x with locked := true, missRun := 0, frame := 0 }
    let exp := trackIdent s.rd.wrap c.val
    let s := match readIdent ident with
      | some i =>
        let s := modRCh s c fun x => { x with ident := decide (i = exp) }
        if i = exp then s
        else logE s .warn srcChip 0x0501 [("ident", 2, i), ("ch", 1, c.val), ("ds", 4, s.rd.dsNow.getD 0xFFFFFFFF)]
      | none => s
    if s.srv.wedgeMode && 0 < a + b then
      let scale : Int := pint s .wedgeScale
      { s with rd := { s.rd with wedgePos := s.rd.wedgePos ++ [(c, scale * (b : Int) / ((a + b : Nat) : Int))], noWedge := 0 } }
    else s

/-- The tape moves in the writing direction of the wrap that is read (R323). -/
def readsAlong (s : State) : Bool := s.srv.dirRev == wrapRev s.rd.wrap

/-- READ_WEDGE_SYNC. -/
def execReadWedgeSync (c : ChNo) (window : AcqObs) (identBits : List Bool) (burstA burstB : Nat) (s : State) :
    Host.Outcome State Fault Refusal :=
  actIf s (readsAlong s) (readWedgeSync c window identBits burstA burstB)

/-! ### C2 and C3 (R337, R338) -/

/-- The row that stands for a place: the highest rank, the last accepted (R283). -/
def bestRow (l : List RRow) (k r : Nat) : Option RRow :=
  (l.filter fun x => x.sds = k && x.row = r).foldl (fun b x => match b with
    | none => some x
    | some y => if y.rank ≤ x.rank then some x else b) none

/-- A decoded column. -/
def decCol (d : RDs) (k col : Nat) : Option (List Byte) := (d.dec.find? fun x => x.1 = k && x.2.1 = col).map (·.2.2)

/-- A byte of a data set under reconstruction: the decoded column's, the accepted row's, or the hard decision (R337). -/
def rdByte (d : RDs) (k r col : Nat) : Byte :=
  match decCol d k col with
  | some v => v.getD r 0
  | none =>
    match bestRow d.rows k r with
    | some x => x.bytes.getD col 0
    | none => match bestRow d.hard k r with
      | some x => x.bytes.getD col 0
      | none => Config.hardByte d.dsn (128 * k + r) col

/-- What a data set under reconstruction holds of one SDS. -/
def sdsPart (d : RDs) (k : Nat) : RDs :=
  { d with rows := d.rows.filter (·.sds = k), hard := d.hard.filter (·.sds = k), dec := d.dec.filter (·.1 = k) }

/-- The 120 rows of an SDS as they stand. -/
def sdsGrid (d : RDs) (k : Nat) : List (List Byte) :=
  let p := sdsPart d k
  let cols := (List.range 516).map fun col => match decCol p k col with
    | some v => v
    | none => (List.range 120).map fun r => rdByte p k r col
  (List.range 120).map fun r => cols.map fun v => v.getD r 0

/-- Rows of an SDS not accepted. -/
def erasedRows (d : RDs) (k : Nat) : List Nat := (List.range 120).filter fun r => (bestRow d.rows k r).isNone

/-- C2 of one column (R337): the decoded column and the bytes corrected. -/
def c2Column (emax : Nat) (d : RDs) (er : List Nat) (k col : Nat) : Option (List Byte × Nat) :=
  (rsDecode 16 emax er ((List.range 120).map fun r => rdByte d k r col)).map fun (w, e) => (w, e + er.length)

/-- C2_DECODE of one SDS: columns already decoded stand (R341). -/
def c2Sds (emax : Nat) (d : RDs) (k : Nat) : RDs × Nat :=
  let p := sdsPart d k
  let er := erasedRows p k
  let got := (List.range 516).filterMap fun col =>
    if (decCol p k col).isSome then none else (c2Column emax p er k col).map fun (w, n) => ((k, col, w), n)
  ({ d with dec := d.dec ++ got.map (·.1) }, sumL (got.map (·.2)))

/-- Columns of an SDS left undecoded. -/
def undecOf (d : RDs) (k : Nat) : List Nat :=
  let p := sdsPart d k
  (List.range 516).filter fun col => (decCol p k col).isNone

/-- C2 of some SDS of a data set (R337, R339): what it corrected and left is counted. -/
def c2On (s : State) (d : RDs) (ks : List Nat) : State × RDs :=
  let (d, n) := ks.foldl (fun (dn : RDs × Nat) k =>
    let (d, m) := c2Sds (pnat s .c2EMax) dn.1 k
    (d, dn.2 + m)) (d, 0)
  let left := sumL (ks.map fun k => (undecOf d k).length)
  ({ s with rd := { s.rd with c2 := s.rd.c2 + n, c2fail := incBy s.rd.c2fail left } }, { d with needC3 := d.needC3 || 0 < left })

/-- C2 of a whole data set (R337). -/
def c2Run (s : State) (d : RDs) : State × RDs := c2On s d (List.range 64)

/-- C3 of one position (R338). -/
def c3Pos (emax : Nat) (d : RDs) (er : List Nat) (r col : Nat) : Option (List Byte) :=
  (rsDecode 8 emax er ((List.range 64).map fun k => rdByte d k r col)).map (·.1)

/-- C3 of one column number: the undecoded columns become decoded when all 120 positions decode (R338). -/
def c3Col (emax : Nat) (d : RDs) (col : Nat) : RDs :=
  let p := { d with dec := d.dec.filter (·.2.1 = col) }
  let er := (List.range 64).filter fun k => (decCol p k col).isNone
  if er.isEmpty then d
  else
    let ws := (List.range 120).map fun r => c3Pos emax p er r col
    if ws.all (·.isSome) then
      { d with dec := d.dec ++ er.map fun k => (k, col, ws.map fun w => (w.getD []).getD k 0) }
    else d

/-- C3 of a data set (R338). -/
def c3Run (s : State) (d : RDs) : RDs := { (List.range 516).foldl (c3Col (pnat s .c3EMax)) d with c3done := true }

/-- Whether a data column of SDS 0-55 is undecoded (R339). -/
def anyUndec (d : RDs) : Bool := (List.range 56).any fun k => !(undecOf d k).isEmpty

/-! ### Girths of a final data set (R235, R342-R345) -/

/-- Whether a saddle wrote under FIT in an epoch; where the epoch is not known, under its policy now. -/
def fitIn (s : State) (epoch : Nat) (n : SadNo) : Bool :=
  ((s.med.epochs.find? fun e => e.plait.epoch = epoch).map fun e => e.fits.getD n.val false).getD (policyOf s n == .fit)

/-- Girths lie at fixed places under PASS and BOUND (R345), where the leader tells the ratio. -/
def fixedPlaces (s : State) (d : RDs) (l : RLead) : Bool := d.lead.isSome && (l.ratio = 0 || !fitIn s l.epoch l.sad)

/-- The header of the girth that starts at a row (R235): the reserved bytes of its first rows, or of the next four when the first copy
fails its CRC, if they hold that of a ratio-code-0 girth; else bytes 0-15 of its payload. -/
def headerAt (row : Nat → List Byte) (r : Nat) : Option (Header × List Byte) :=
  let res (k : Nat) : List Byte := (List.range 4).flatMap fun i => (row (r + k + i)).drop 512
  let copy := if headerCrc (res 0) then res 0 else res 4
  let first := (row r).take 16
  match parseHeader copy with
  | some x => if x.kind != .fill && x.ratio = 0 then some (x, copy) else (parseHeader first).map fun x => (x, first)
  | none => (parseHeader first).map fun x => (x, first)

/-- The girths of one SDS from a row on, with the number that a girth without a header takes (R345): at fixed places the
leader's ratio and the order tell where a girth lies and which it is, else its header does. -/
def walkSds (fixed : Bool) (d : RDs) (l : RLead) (row : Nat → List Byte) (und : List Nat) :
    Nat → Nat → Nat → List RGirth → List RGirth × Nat
  | 0, _, seq, acc => (acc, seq)
  | fuel + 1, r, seq, acc =>
    if 104 ≤ r then (acc, seq)
    else
      let mk (rows : Nat) (h : List Byte) (pass : Bool) (seq : Nat) : RGirth :=
        let bytes := (List.range rows).flatMap fun i => (row (r + i)).take 512
        let bad := (List.range (512 * rows)).filter fun o => und.contains (o % 512)
        { sad := l.sad, seq := seq, dsn := d.dsn, rows := rows, hdr := h
          raw := if pass then bytes else bytes.drop 16
          damaged := if pass then bad else (bad.filter (16 ≤ ·)).map (· - 16)
          hole := !und.isEmpty && (!bad.isEmpty || (pass && und.any (512 ≤ ·))) }
      match headerAt row r with
      | some (h, hb) =>
        if h.kind == .fill then (acc, seq)
        else
          let ratio := if fixed then l.ratio else h.ratio
          let num := if fixed then seq else h.seq
          let n := rowsOf ratio
          if 104 < r + n then (acc, seq)
          else walkSds fixed d l row und fuel (r + n) (num + 1) (acc ++ [mk n hb (ratio = 0) num])
      | none =>
        let n := rowsOf l.ratio
        if 104 < r + n then (acc, seq)
        else if fixed || und.isEmpty then
          walkSds fixed d l row und fuel (r + n) (seq + 1) (acc ++ [mk n [] (l.ratio = 0) seq])
        else (acc ++ [{ mk (104 - r) [] false seq with hole := true }], seq)

/-- The first valid girth header of a data set, with its SDS and row (R342). -/
def firstHeader (d : RDs) : Option (Nat × Nat × Header) :=
  (List.range 56).findSome? fun k =>
    let g := sdsGrid d k
    (List.range 104).findSome? fun r => match headerAt (fun i => g.getD i []) r with
      | some (h, _) => if h.kind == .fill then none else some (k, r, h)
      | none => none

/-- The nearest readable leader before a data set (R342). -/
def idxBelow (s : State) (d : Nat) : Option IdxRec :=
  s.med.index.foldl (fun b r => if r.dsn < d && (b.map fun x => decide (x.dsn < r.dsn)).getD true then some r else b) none

/-- The nearest readable leader after a data set. -/
def idxAbove (s : State) (d : Nat) : Option IdxRec :=
  s.med.index.foldl (fun b r => if d < r.dsn && (b.map fun x => decide (r.dsn < x.dsn)).getD true then some r else b) none

/-- The leader's facts, or what stands for them when no leader copy is valid (R342). -/
def leadFor (s : State) (d : RDs) : RLead :=
  match d.lead with
  | some l => l
  | none =>
    let below (n : SadNo) : Option Nat := (idxBelow s d.dsn).map fun r => r.nextSeq.getD n.val 0
    let lead (n : SadNo) (ratio first : Nat) : RLead := {
      dsn := d.dsn, kind := 0, sad := n, ratio := ratio, epoch := d.epoch, ptc := 0, session := 0, firstSeq := first, girths := 0,
      nextSeq := [], slot := 0xFFFF, short := false }
    match firstHeader d with
    | some (k, r, h) =>
      let n := d.sadRow.getD h.sad
      lead n h.ratio (if fitIn s d.epoch n then (below n).getD h.seq
        else h.seq - (k * (girthsPerDs h.ratio / 56) + r / rowsOf h.ratio))
    | none =>
      let n := d.sadRow.getD 0
      lead n (pnat s .codeRatio n.val) ((below n).getD 0)

/-- The girths of a data set without leader and girth headers: numbered from the leaders on either side, every one a hole
(R342). -/
def blindGirths (s : State) (d : RDs) (l : RLead) : List RGirth :=
  let last := match idxAbove s d.dsn with
    | some r => if r.kind == .data && r.sad == l.sad then r.firstSeq else r.nextSeq.getD l.sad.val 0
    | none => l.firstSeq + girthsPerDs l.ratio
  if d.trailer then (List.range (last - l.firstSeq)).map fun i => { sad := l.sad, seq := l.firstSeq + i, dsn := d.dsn, hole := true }
  else []

/-- The girths of a data set (R344, R345): a stretch without headers is numbered up to the next valid header's number, or up to
NEXT_SEQ. Without a valid trailer, an SDS with an undecoded column gives none (R156, R344). -/
def girthsOf (s : State) (d : RDs) (l : RLead) : List RGirth :=
  if d.lead.isNone && (firstHeader d).isNone then blindGirths s d l
  else
    let fixed := fixedPlaces s d l
    let all := (List.range 56).foldl (fun (acc : List RGirth × Nat) k =>
      let und := undecOf d k
      if !d.trailer && !und.isEmpty then (acc.1, if fixed then acc.2 + girthsPerDs l.ratio / 56 else acc.2)
      else
        let g := sdsGrid d k
        let (gs, n) := walkSds fixed d l (fun r => g.getD r []) und 60 0 acc.2 []
        (acc.1 ++ gs.map fun g => { g with sds := k }, n)) ([], l.firstSeq)
    let last := l.nextSeq.getD l.sad.val 0
    let gs := all.1
    (gs.zipIdx.flatMap fun (g, i) =>
      if g.hdr.isEmpty && g.hole && !fixed then
        let stop := ((gs.drop (i + 1)).find? fun x => !x.hdr.isEmpty).map (·.seq) |>.getD last
        (List.range (stop - g.seq)).map fun j => { g with seq := g.seq + j }
      else [g]).filter fun g => g.seq < last || l.nextSeq.isEmpty

/-! ### Read-ahead (R349, R371) -/

/-- A saddle is reading (R349). -/
def isReading (s : State) (n : SadNo) : Bool :=
  (s.sad[n].lastRead.map fun t => decide (now s ≤ t.toNat + pnat s .aheadIdle)).getD false

/-- Saddles that read. -/
def readers (s : State) : List SadNo := allSads.filter (isReading s)

/-- Data sets decoded beyond a saddle's read position. -/
def aheadOf (s : State) (n : SadNo) : Nat :=
  let here := ((s.rd.store.find? fun g => g.sad == n && s.sad[n].readPos ≤ g.seq).map (·.dsn)).getD s.rd.lastDs
  s.rd.lastDs - here

/-- Keeps a final data set's girths in READAHEAD caddies, one SDS per caddy (R214, R349): what finds no caddy is read again. -/
def keepGirths (s : State) (gs : List RGirth) : State :=
  if gs.isEmpty then s
  else
    match (if s.pool.ops = 0 then none else allocate s ownRa) with
    | some (i, s) =>
      let s := useOp s
      { s with rd := { s.rd with store := s.rd.store ++ gs.map fun g => { g with cad := some i } } }
    | none => s

/-- Girths whose caddy has been reclaimed are read from tape again (R349). -/
def pruneStore (s : State) : State :=
  let live := (s.pool.caddies.filter fun c => c.owner == some ownRa).map (·.idx)
  { s with rd := { s.rd with store := s.rd.store.filter fun g => (g.cad.map live.contains).getD false } }

/-- A slot's meaning (R285); reserved codes have none. -/
def slotOfCode (v : Nat) : Option SlotEl :=
  if h : v < 8 then some (.owner ⟨v, h⟩) else if v = 0x80 then some .free else if v = 0x81 then some .fill else none

/-- A plait block read back (R285): the plait, and each saddle's class, policy and ratio. A block with a reserved value is
invalid. -/
def parsePlait (b : List Byte) : Option (Plait × List (Nat × Nat × Nat)) :=
  let len := beField b 4 2
  let mode := beField b 6 1
  let v := beField b 8 2
  let codes := (List.range len).map fun i => slotOfCode (beField b (16 + i) 1)
  let rest := (List.range (256 - len)).all fun i => beField b (16 + len + i) 1 = 0xFF
  let zero := (7 :: rangeFrom 10 16 ++ rangeFrom 336 508 ++ (List.range 8).map (279 + 8 * ·)).all fun i => beField b i 1 = 0
  let sads := (List.range 8).map fun n => (beField b (272 + 8 * n) 1, beField b (273 + 8 * n) 1, beField b (274 + 8 * n) 1)
  if b.length ≠ 512 || beField b 508 4 ≠ (crc32 (b.take 508)).toNat || 2 < mode || 256 < len || (len = 0) != (mode = 2) ||
      v < 125 || 500 < v || !codes.all (·.isSome) || !rest || !zero || sads.any (fun (c, p, r) => 3 < c || 2 < p || 4 < r) then none
  else
    let slots := codes.filterMap id
    some ({ epoch := beField b 0 4, manual := mode = 1, flush := mode = 2, slots := slots, vIdx := (v - 125) / 5
            k := Vector.ofFn fun n => (slots.filter (· == .owner n)).length }, sads)

/-- A plait marker read from tape: its epoch joins those known for locating (R285, R291, R292). -/
def takeMarker (s : State) (d : RDs) (l : RLead) : State :=
  if s.med.epochs.any fun e => e.dsn = d.dsn then s
  else
    let blocks := (List.range 8).filterMap fun k => parsePlait ((List.range 512).map (rdByte d k 0))
    match blocks.head? with
    | none => s
    | some (p, sads) =>
      let arith := sads.map fun (c, pol, _) => decide (c = 0 ∧ pol < 2)
      let e : EpochRec := {
        plait := { p with marker := some d.dsn }, dsn := d.dsn, next := l.nextSeq, ratios := sads.map fun (_, _, r) => r
        byArith := arith, fits := sads.map fun (_, pol, _) => decide (pol = 2), full := false
        anchors := if p.flush then [] else (allSads.filter fun n => arith.getD n.val false).map fun n => (n, 0, l.nextSeq.getD n.val 0) }
      { s with med := { s.med with epochs := s.med.epochs.filter (fun o => o.dsn < d.dsn) ++ [e] ++ s.med.epochs.filter (fun o => d.dsn < o.dsn) } }

/-- A data set read in an owned slot that was a miss or short adds an anchor to its epoch (R291, R292). -/
def takeAnchor (s : State) (d : RDs) (l : RLead) : State :=
  { s with med := { s.med with epochs := s.med.epochs.map fun e =>
      if e.plait.epoch ≠ l.epoch || e.full || e.plait.slots.length = 0 then e
      else match e.plait.slots.getD l.slot .fill with
        | .owner n =>
          let u := slotOrdinal e.plait n d.dsn + 1
          if (l.kind = 1 || l.short) && !(e.anchors.any fun a => a.1 == n && a.2.1 = u) then
            { e with anchors := e.anchors ++ [(n, u, l.nextSeq.getD n.val 0)] } else e
        | _ => e } }

/-- Where the data of a data set without a valid trailer ends (R156): after the last of its girths that come in order. -/
def cutAt : List RGirth → Nat → Nat
  | [], g => g
  | r :: t, g => if r.seq = g then cutAt t (g + 1) else g

/-- End of data of the saddle whose data set is final (R156). -/
def markEnd (s : State) (d : RDs) (l : RLead) (gs : List RGirth) : State :=
  let v := if d.trailer then (match s.rd.ends[l.sad] with
      | some e => if gs.any fun r => e ≤ r.seq then none else some e
      | none => none)
    else some (cutAt gs l.firstSeq)
  { s with rd := { s.rd with ends := s.rd.ends.set l.sad.val v l.sad.isLt } }

/-- A data set is final (R340, R344): its girths are ready for delivery, its leader facts join the index cache (R292). -/
def finalDs (s : State) (d : RDs) : State :=
  let l := leadFor s d
  let s := if d.lead.isNone then logE s .warn srcChip 0x0502 [("ds", 4, d.dsn)] else s
  let s := { s with rd := { s.rd with
      lastDs := max s.rd.lastDs d.dsn, c3n := if d.needC3 then sat 16 (s.rd.c3n + 1) else s.rd.c3n } }
  let s := if d.lead.isSome then takeAnchor s d l else s
  if l.kind = 2 then takeMarker s d l
  else if l.kind ≠ 0 then s
  else
    let gs := girthsOf s d l
    let s := markEnd s d l gs
    let s := if gs.any (·.hole) then { s with rd := { s.rd with holesN := sat 16 (s.rd.holesN + 1) } } else s
    let s := { s with rd := { s.rd with store := s.rd.store.filter fun g => g.dsn ≠ d.dsn } }
    if (readers s).contains l.sad then
      (List.range 56).foldl (fun s k => keepGirths s (gs.filter (·.sds = k))) s
    else s

/-- Rows in the rescue store, shared by every data set still in reconstruction (R336). -/
def storeRows (s : State) : Nat := sumL ((s.rd.cur.toList ++ s.rd.recon).map fun d => d.stored.length)

/-- Keeps a data set among those whose reconstruction goes on. -/
def keepDs (s : State) (d : RDs) : State := { s with rd := { s.rd with recon := s.rd.recon ++ [d] } }

/-- Works on every data set whose reconstruction goes on, oldest first; `f` keeps it or makes it final. -/
def overRecon (f : State → RDs → State) (s : State) : State := s.rd.recon.foldl f { s with rd := { s.rd with recon := [] } }

/-- What follows C3 or a rescue pass (R338-R340): final, another pass, or held for the area of the next data set. -/
def settleRead (s : State) (d : RDs) : State :=
  if !anyUndec d then finalDs s d
  else if d.passes < pnat s .rescuePasses && d.gained then keepDs s d
  else if d.trailer && !d.merged then keepDs s { d with waits := true }
  else finalDs s d

/-- The area of the next data set has been read, when that has a valid trailer: a held data set runs again; no further area comes
for those before it (R340). -/
def nextAreaRead (trailer : Bool) (s : State) : State :=
  overRecon (fun s d =>
    if d.merged then keepDs s d
    else if !d.waits then keepDs s { d with merged := true }
    else if trailer then
      let (s, d) := c2Run s { d with merged := true, waits := false, passes := 0, gained := true }
      settleRead s (c3Run s d)
    else finalDs s d) s

/-- SDS that the C2 decoder may still take in the tick (R19). -/
def c2Room (s : State) : Nat := budget s 128 - s.used.c2

/-- C2 of a data set when the tick has budget for its 64 SDS; else it waits for a later tick (R20). -/
def c2OrWait (s : State) (d : RDs) : State :=
  if c2Room s < 64 then keepDs s { d with c2due := true }
  else
    let (s, d) := c2Run { s with used := { s.used with c2 := s.used.c2 + 64 } } { d with c2due := false }
    keepDs s d

/-- The data sets that wait for C2 at a boundary, oldest first. -/
def c2Tick (s : State) : State := overRecon (fun s d => if d.c2due then c2OrWait s d else keepDs s d) s

/-- C2_DECODE (R337): in the tick in which the last row of the rewrite area is decoded, within the decoder's budget. Reading goes on to
the next wrap after the last data set of one (R287). -/
def runC2 (s : State) : State :=
  match s.rd.cur with
  | some d =>
    let s := nextAreaRead d.trailer { s with rd := { s.rd with cur := none } }
    let s := c2OrWait s d
    if s.med.wrapFirst[s.rd.wrap + 1]? = some (d.dsn + 1) && d.wrap = s.rd.wrap then startRead s (s.rd.wrap + 1) else s
  | none => s

/-- Data sets that the C3 decoder and the rescue pass may still take in the tick (R19). -/
def c3Room (s : State) : Nat := budget s 2 - s.used.c3

/-- C3_DECODE (R338): in the tick after C2, for as many data sets as the budget admits. -/
def c3Decode (s : State) : State :=
  overRecon (fun s d =>
    if d.c3done || d.c2due || c3Room s = 0 then keepDs s d
    else
      let s := { s with used := { s.used with c3 := s.used.c3 + 1 } }
      settleRead s (if anyUndec d || d.needC3 then c3Run s d else { d with c3done := true })) s

/-- C3_DECODE. -/
def execC3Decode (s : State) : Host.Outcome State Fault Refusal := act s c3Decode

/-! ### Rows (R333-R336, R341) -/

/-- The bytes of a decoder's word: header, payload and reserved bytes (R264). -/
def codeBytes (w : List Bool) : List Byte := bitsBytes (w.take 4224)

/-- What C1 makes of a row slot (R326, R333, R334): the descrambled word and the iterations used. Flagged bits enter with LLR 0. -/
def rowWord (s : State) (c : ChNo) (slotpos : Nat) (flags : List Bool) (o : RowObs) : List Bool × Nat :=
  let n := pnat s .ldpcRounds
  let iter := pnat s .ldpcIter
  c1Rounds ((iter + n - 1) / n) iter 0 ((o.rounds.take n).map fun l => c1Llrs (rowSeed slotpos c.val) (eraseFlagged (flags.drop 32) l))

/-- The hard decisions of a leader or trailer copy, which C1 does not cover (R275, R333). -/
def copyBytes (o : RowObs) : List Byte := bitsBytes (hardBits (c1Llrs leadSeed (o.rounds.headD [])))

/-- R335's checks of a decoded row for a data set: SDS, row and rank. -/
def acceptRow (d : RDs) (c : ChNo) (slotpos : Nat) (w : List Bool) : Option RRow :=
  if !c1Ok w then none
  else
    let b := codeBytes w
    match parseRowHeader b with
    | some h =>
      if h.rkind < 2 && h.dsn = d.dsn && h.wrap = d.wrap && h.chan = c.val && h.row < 120 && h.sds < 64 &&
          (h.rkind = 1 || (h.row = slotpos && h.sds = sdsOnChan c.val slotpos)) then
        some { sds := h.sds, row := h.row, rank := if slotpos < 120 then 0 else 1, sad := ⟨h.sad % 8, by omega⟩, bytes := b.drop 12 }
      else none
    | none => none

/-- A pad row of a rewrite slot (R281, R335). -/
def isPad (slotpos : Nat) (w : List Bool) : Bool :=
  120 ≤ slotpos && c1Ok w && ((parseRowHeader (codeBytes w)).map fun h => decide (h.rkind = 2)).getD false

/-- A data set's frame begins: C1's mean iterations of the one before stand (register RCH_LOOP). Where it does not follow the one before,
the data set that follows that one is never read (R340). -/
def newFrame (s : State) (d : RDs) : State :=
  let s := if s.rd.dsNow.map (· + 1) == some d.dsn then s else nextAreaRead false s
  { s with
    srv := { s.srv with dither := !s.srv.dither }
    rd := { s.rd with
      cur := some d, dsNow := some d.dsn, reading := true
      ch := Vector.ofFn fun c =>
        let x := s.rd.ch[c]
        { x with iterMean := if x.iterN = 0 then x.iterMean else x.iterSum / x.iterN, iterSum := 0, iterN := 0 } } }

/-- A leader copy starts a data set, or adds nothing to the one under read (R278, R280, R343): a frame without a trailer that
another of its DSN follows is discarded whole. Two slot positions beyond a row's stand for the copies: 254 the leader, 255 the
trailer (log 19). -/
def takeLeader (s : State) (f : LeadFacts) : State :=
  let l : RLead := {
    dsn := f.dsn, kind := f.kind, sad := ⟨f.sad % 8, by omega⟩, ratio := f.ratio, epoch := f.epoch, ptc := BitVec.ofNat 64 f.ptc,
    session := BitVec.ofNat 64 f.session, firstSeq := f.firstSeq, girths := f.girths, nextSeq := f.nextSeq, slot := f.slot, short := f.short }
  let kinds : List DsKind := [.data, .fill, .marker, .tail]
  let kind := kinds.getD f.kind .fill
  let rec_ : IdxRec := {
    dsn := f.dsn, kind := kind, sad := l.sad, firstSeq := f.firstSeq, girths := f.girths, nextSeq := f.nextSeq, wrap := f.wrap,
    epoch := f.epoch, slot := f.slot, ratio := f.ratio }
  let known (s : State) : State := { s with med := { s.med with index := s.med.index.filter (fun r => r.dsn ≠ f.dsn) ++ [rec_] } }
  let fresh (s : State) : State :=
    let s := if 4 ≤ f.kind then logE s .warn srcChip 0x0503 [("ds", 4, f.dsn), ("kind", 1, f.kind)] else s
    let cont := match s.rd.dsNow with
      | some d => f.dsn = d + 1 || f.dsn = d
      | none => true
    newFrame { s with rd := { s.rd with eodSeen := s.rd.eodSeen || !cont } } { dsn := f.dsn, wrap := s.rd.wrap, lead := some l }
  match s.rd.cur with
  | some d =>
    if d.dsn = f.dsn && (d.seen = 0 || (!d.trailer && d.lead.isNone)) then known { s with rd := { s.rd with cur := some { d with lead := some l } } }
    else if d.dsn = f.dsn && !d.trailer then fresh (known { s with rd := { s.rd with cur := none } })
    else fresh (runC2 (known s))       -- the frame before it ends here: what it still lacks is erased
  | none => fresh (known s)

/-- A trailer copy (R279, R280, R342). -/
def takeTrailer (s : State) (f : LeadFacts) (q : Nat) : State :=
  match s.rd.cur with
  | some d => if d.dsn = f.dsn then { s with rd := { s.rd with cur := some { d with trailer := true, q := q, epoch := f.epoch } } } else s
  | none => if s.rd.dsNow == some f.dsn then s else newFrame s { dsn := f.dsn, wrap := s.rd.wrap, trailer := true, q := q, epoch := f.epoch }

/-- A row that decodes where no leader copy was valid starts its data set (R335, R342). -/
def openByRow (s : State) (c : ChNo) (slotpos : Nat) (w : List Bool) : State :=
  let x := s.rd.ch[c]
  if !x.locked || !x.ident || ignored s c || 120 ≤ slotpos || !c1Ok w then s
  else match parseRowHeader (codeBytes w) with
    | some h => if h.rkind = 0 && h.wrap = s.rd.wrap && h.chan = c.val && s.rd.dsNow != some h.dsn then newFrame s { dsn := h.dsn, wrap := s.rd.wrap } else s
    | none => s

/-- The loops over the bits of a row slot: they hold on flagged bits, while the timing phase coasts (R325-R327, R330, R331). -/
def trackBits (s : State) (flags : List Bool) (o : RowObs) (x : RCh) : RCh :=
  let gain := Config.timingGain (pnat s .trkBw)
  (o.bits.zip flags).foldl (fun x (b, flag) =>
    if flag then coast x
    else lmsStep (pnat s .eqMuShift) (pnat s .eqTarget) (agcBit 64 (agcStep (pnat s .agcTarget)) (followStep gain x b.err) b.adc) b) x

/-- Counts a row slot on its channel, as decoded unless the channel is ignored: the loops update, the detector's statistics after an
accepted row (R332). -/
def rowLoops (s : State) (c : ChNo) (flags : List Bool) (iters : Nat) (o : RowObs) (ok : Bool) : State :=
  modRCh s c fun x =>
    let x := if ignored s c then x else trackBits s flags o x
    let x := if ok then ((o.det.zip flags).filter (!·.2)).foldl (fun x b => detStep (pnat s .detAdaptShift) (pnat s .eqTarget) x b.1) x else x
    let x := if ignored s c then x else { x with rows := inc x.rows, iterSum := x.iterSum + iters, iterN := x.iterN + 1, snrQ := o.snrQ }
    { x with erased := if ok then x.erased else sat 16 (x.erased + 1) }

/-- An erased row slot (R335, R336): its hard decisions stay, and its samples take a place in the rescue store. -/
def eraseRow (s : State) (d : RDs) (c : ChNo) (slotpos : Nat) (w : List Bool) (keep : Bool) : State :=
  let b := codeBytes w
  let d := if slotpos < 120 && keep && b.length = 528 then
      { d with hard := d.hard ++ [{ sds := sdsOnChan c.val slotpos, row := slotpos, rank := 0, bytes := b.drop 12 }] } else d
  let h := parseRowHeader b
  let place : Option (Nat × Nat) := if slotpos < 120 then some (sdsOnChan c.val slotpos, slotpos) else h.map fun x => (x.sds, x.row)
  match place with
  | some (k, r) =>
    if keep && storeRows s < 2048 then
      { s with rd := { s.rd with
        cur := some { d with stored := d.stored ++ [{ sds := k, row := r, ch := c, slotpos := slotpos }] } } }
    else { s with rd := { s.rd with cur := some d } }
  | none => { s with rd := { s.rd with cur := some d } }

/-- A copy of a row of a data set before joins it with the highest rank (R283, R340). -/
def mergeHeld (s : State) (c : ChNo) (slotpos : Nat) (w : List Bool) : Option State :=
  let took (d : RDs) : Option RRow := if d.merged then none else acceptRow { d with wrap := s.rd.wrap } c slotpos w
  if s.rd.recon.any fun d => (took d).isSome then
    some { s with rd := { s.rd with recon := s.rd.recon.map fun d => match took d with
      | some r => { d with rows := d.rows ++ [{ r with rank := 2 }] }
      | none => d } }
  else none

/-- The flagged bits of a row slot (R326). -/
def rowFlags (s : State) (c : ChNo) (o : RowObs) : List Bool := (flagRun s s.rd.ch[c] (o.bits.map (·.adc))).2

/-- A row slot of the data set under read (R329, R335), with its flagged bits, its word and the iterations of C1. -/
def readRow (s : State) (d : RDs) (c : ChNo) (slotpos : Nat) (flags w : List Bool) (n : Nat) (o : RowObs) : State :=
  let x := s.rd.ch[c]
  let (off, dist) := bestMatch resyncBits o.resync
  let miss := 4 < dist
  let run := if miss then x.missRun + 1 else 0
  let s := modRCh s c fun x => { (flagRun s x (o.bits.map (·.adc))).1 with missRun := run, frame := if miss then x.frame else x.frame + ((off : Int) - 2) }
  let lost := x.locked && (2 ≤ run || 25 < o.phaseErr)
  let s := if lost then loseLock s c else s
  let d := { d with seen := d.seen + 1 }
  let ok := x.locked && !lost && x.ident && !ignored s c
  match ok, acceptRow d c slotpos w with
  | true, some r =>
    rowLoops { s with rd := { s.rd with cur := some { d with rows := d.rows ++ [r], sadRow := some r.sad } } } c flags n o true
  | _, _ =>
    if ok && isPad slotpos w then rowLoops { s with rd := { s.rd with cur := some d } } c flags n o true
    else match (if ok && 120 ≤ slotpos then mergeHeld { s with rd := { s.rd with cur := some d } } c slotpos w else none) with
      | some s => rowLoops s c flags n o true
      | none => rowLoops (eraseRow s d c slotpos w (!ignored s c)) c flags n o false

/-- READ_ROW_DECODE (R326, R329, R334, R335, R337): a row slot, or a leader or trailer copy. -/
def readRowDecode (c : ChNo) (slotpos : Nat) (o : RowObs) (s : State) : State :=
  let s := { s with used := { s.used with rows := s.used.rows + 1 } }
  if slotpos = 254 then
    match parseLeader (copyBytes o) with
    | some f => takeLeader s f
    | none => s
  else if slotpos = 255 then
    match parseTrailer (copyBytes o) with
    | some (f, q, _) =>
      let s := takeTrailer s f q
      match s.rd.cur with
      | some d => if 64 * (120 + d.q) ≤ d.seen then runC2 s else s
      | none => s
    | none => s
  else
    let flags := rowFlags s c o
    let (w, n) := rowWord s c slotpos flags o
    let s := if s.rd.cur.isNone then openByRow s c slotpos w else s
    match s.rd.cur with
    | none => s
    | some d =>
      let s := readRow s d c slotpos flags w n o
      match s.rd.cur with
      | some d => if d.trailer && 64 * (120 + d.q) ≤ d.seen then runC2 s else s
      | none => s

/-- READ_ROW_DECODE: the detector takes no more rows in a tick than its budget (R19). -/
def execReadRowDecode (c : ChNo) (slotpos : Nat) (obs : RowObs) (s : State) : Host.Outcome State Fault Refusal :=
  actIf s (readsAlong s && s.used.rows < budget s 256) (readRowDecode c slotpos obs)

/-- A stored row's LLRs with every bit that lies in a decoded column pinned at ±31 with the sign of its value (R339). -/
def pinLlr (d : RDs) (x : RStored) (llr : List Int) : List Int :=
  let cols := (List.range 516).map fun col => (decCol d x.sds col).map fun v => v.getD x.row 0
  llr.zipIdx.map fun (v, i) =>
    if i < 96 || 4224 ≤ i then v
    else match cols.getD ((i - 96) / 8) none with
      | some b => if b.getLsbD (7 - i % 8) then -31 else 31
      | none => v

/-- What C1 makes of a stored row in a rescue pass (R339): up to 3 global rounds and `read.rescue.iter` iterations. -/
def rescueWord (s : State) (d : RDs) (x : RStored) (rounds : List (List Int)) : List Bool :=
  let iter := pnat s .rescueIter
  (c1Rounds ((iter + 2) / 3) iter 0 ((rounds.take 3).map (pinLlr d x))).1

/-- The rows that a rescue pass accepts for a data set (R339): stored rows of an SDS with an undecoded column. -/
def rescueRows (s : State) (d : RDs) (obs : List RescueObs) : List (RStored × RRow) :=
  obs.filterMap fun o =>
    match d.stored.find? fun x => x.ch == o.ch && x.slotpos = o.slotpos with
    | some x => if (undecOf d x.sds).isEmpty then none else (acceptRow d o.ch o.slotpos (rescueWord s d x o.rounds)).map fun r => (x, r)
    | none => none

/-- One rescue pass over a data set, with C2 of the SDS concerned and C3 (R339): the rows accepted leave the store. -/
def rescueOn (s : State) (d : RDs) (obs : List RescueObs) : State × RDs :=
  let got := rescueRows s d obs
  let s := { s with rd := { s.rd with rescue := inc s.rd.rescue } }
  let s := got.foldl (fun s (x, _) => modRCh s x.ch fun x => { x with rescued := sat 16 (x.rescued + 1) }) s
  let d := { d with
    rows := d.rows ++ got.map (·.2), passes := d.passes + 1, gained := !got.isEmpty
    stored := d.stored.filter fun x => !got.any fun g => g.1 == x }
  let (s, d) := c2On s d (got.map (·.2.sds)).dedup
  (s, if got.isEmpty then d else c3Run s d)

/-- RESCUE_PASS (R339, R340): of the oldest data set that C3 has left with undecoded columns and that waits for no copies. -/
def rescuePass (obs : List RescueObs) (s : State) : State :=
  match (if c3Room s = 0 then none else s.rd.recon.find? fun d => d.c3done && !d.waits && anyUndec d) with
  | some x => overRecon (fun s d =>
      if d.dsn = x.dsn then
        let (s, d) := rescueOn { s with used := { s.used with c3 := s.used.c3 + 1 } } d obs
        settleRead s d
      else keepDs s d) s
  | none => s

/-- RESCUE_PASS. -/
def execRescuePass (obs : List RescueObs) (s : State) : Host.Outcome State Fault Refusal := act s (rescuePass obs)

/-- READAHEAD_FULL (R371): read-ahead holds its data sets beyond every reading saddle, and the tape stops. -/
def execReadaheadFull (s : State) : Host.Outcome State Fault Refusal :=
  actIf s (s.rd.reading && (readers s).all fun n => pnat s .aheadDs ≤ aheadOf s n) fun s =>
    { s with rd := { s.rd with reading := false, stopped := true } }

/-- READAHEAD_RESUME (R371): a reading saddle has come within half of the depth, and the tape starts. -/
def execReadaheadResume (s : State) : Host.Outcome State Fault Refusal :=
  actIf s (!s.rd.reading && s.rd.stopped && !s.srv.lost && s.pw.mode == .stream && s.cart.loaded &&
      (readers s).any fun n => aheadOf s n ≤ (pnat s .aheadDs + 1) / 2) fun s =>
    { s with rd := { s.rd with reading := true, stopped := false } }

end Sys2Proof.Machine
end

