-- ==== Sys2Proof/Machine/Servo.lean ====
section
/-! DEFINITION. Servo decoding and track following, tension and speed, the rein and the motor drive link (file 12). -/

namespace Sys2Proof.Machine

open Sys2Proof

/-! ### Servo decoding (R351-R354) -/

/-- The wrap under the head: the one being written, else the one being read. -/
def wrapNow (s : State) : Nat := if s.med.positioned then s.med.wrap else s.rd.wrap

/-- The mean difference of two lists of stripe times in ps, as a rational. -/
def meanDiff (a b : List Nat) : Rat :=
  ((a.zip b).foldl (fun (t : Rat) (x, y) => t + ((y : Rat) - (x : Rat))) 0) / (a.length : Rat)

/-- Spacings of neighbouring stripes in µm, at 240 µm in `pp` ps (R352). -/
def spacings (l : List Nat) (pp : Rat) : List Rat :=
  (l.zip l.tail).map fun (x, y) => 240 * ((y : Rat) - (x : Rat)) / pp

/-- A spacing within 0.5 µm of a nominal one (R352). -/
def near (nom x : Rat) : Bool := decide (|x - nom| ≤ 1 / 2)

/-- Twice the tangent of 12.0°, to ten places (R351). -/
def tanTwice : Rat := 4251131234 / 10000000000

/-- The position sample y in nm (R351). -/
def samplePos (t : StripeTimes) : Rat :=
  (160000 - 240000 * meanDiff t.p t.n / meanDiff t.p t.pNext) / tanTwice

/-- What a reader measures in one frame: the sample in nm, the bit of R263 and the speed in mm/s; none when the sample is
not valid (R352). R262 and R263 draw another pattern than R351 and R352 measure; the decoding rules are followed
(log 9). -/
def readFrame (t : StripeTimes) : Option (Int × Bool × Nat) :=
  if t.p.length = 3 ∧ t.v.length = 2 ∧ t.n.length = 3 ∧ t.pNext.length = 3 then
    let pp := meanDiff t.p t.pNext
    if pp ≤ 0 then none
    else
      let y := samplePos t
      let v := spacings t.v pp
      let one := v.all (near 7)
      if (spacings t.p pp).all (near 6) && (spacings t.n pp).all (near 6) && (one || v.all (near 5)) && decide (|y| ≤ 30000) then
        some (y.floor, one, (240000000000 / pp).floor.toNat)
      else none
  else none

/-- The servo band that a reader reads: S0 and S2 the lower one of the data band, S1 and S3 the upper one (log 9). -/
def readerHi (r : Fin 4) : Bool := r.val % 2 = 1

/-- A LINDEX word of 36 bits in reading order of the forward direction: sync, servo band, index (R263). -/
def lindexWord (l : List Bool) : Option (Nat × Nat) :=
  if l.length = 36 ∧ bitsVal (l.take 8) = 0xFE then some (bitsVal ((l.drop 8).take 4), bitsVal (l.drop 12)) else none

/-- Takes a servo band's bit of one frame; an accepted word gives LINDEX and the position along the tape (R263, R352). -/
def takeBit (s : State) (hi : Bool) (b : Option Bool) : State :=
  let k : Fin 2 := if hi then 1 else 0
  match b with
  | none => { s with srv := { s.srv with bits := s.srv.bits.set k [] } }
  | some b =>
    let l := (b :: s.srv.bits[k]).take 36
    let s := { s with srv := { s.srv with bits := s.srv.bits.set k l } }
    match lindexWord (if s.srv.dirRev then l else l.reverse) with
    | none => s
    | some (band, i) =>
      let next := match s.srv.prev[k] with
        | none => true
        | some p => if s.srv.dirRev then decide (p = i + 1) else decide (i = p + 1)
      if band = bandOfWrap (wrapNow s) + k.val && next then
        { s with srv := { s.srv with
            bits := s.srv.bits.set k [], prev := s.srv.prev.set k (some i), lindex := some (i, band)
            pos := ((i : Int) - 1600) * 21600000 } }
      else s

/-- The lateral target in nm (R353). -/
def yTarget (s : State) : Rat :=
  let p := slotOfWrap (wrapNow s)
  (2 * (p : Rat) - 47) * 450 + s.med.ofs + (if s.srv.ffOn then s.srv.ff else 0)

/-- Counts a frame time on one servo band (R358). -/
def countBand (s : State) (hi valid : Bool) : State :=
  let k : Fin 2 := if hi then 1 else 0
  { s with srv := { s.srv with
      miss := s.srv.miss.set k (if valid then 0 else s.srv.miss[k] + 1)
      good := s.srv.good.set k (if valid then s.srv.good[k] + 1 else 0)
      prev := if valid then s.srv.prev else s.srv.prev.set k none } }

/-- The PES cause of the write guard after a servo frame (R4, R311, R353): the limit counts hundredths of the
0.90 µm track pitch, and a frame with no valid reader counts as exceeding it. -/
def pesGuard (s : State) (pes : Option Int) : State :=
  let lim := pint s .pesLimit * 9
  let on := match pes with
    | none => true
    | some e => if s.med.inh.pes then decide (3 * lim < 4 * |e|) else decide (lim < |e|)
  guardScan { s with med := { s.med with inh := { s.med.inh with pes := on || s.srv.wedgeMode } } }

/-- SERVO_FRAME (R351-R354): one frame time at the readers that detected stripes. -/
def servoFrame (readers : List (Fin 4 × StripeTimes)) (s : State) : State :=
  let got : List (Fin 4 × Int × Bool × Nat) := readers.filterMap fun (r, t) => (readFrame t).map fun x => (r, x)
  let band (hi : Bool) := got.filter fun (r, _) => readerHi r == hi
  let s := [false, true].foldl (fun s hi =>
    takeBit (countBand s hi (!(band hi).isEmpty)) hi ((band hi).head?.map fun (_, _, b, _) => b)) s
  let s := { s with srv := { s.srv with
    readersNow := (s.srv.readersNow ++ got.map fun x => x.1.val).dedup
    speedSum := s.srv.speedSum + sumL ((got.head?.map fun (_, _, _, v) => v).toList)
    speedN := s.srv.speedN + (if got.isEmpty then 0 else 1) } }
  if got.isEmpty then pesGuard s none
  else
    let y : Rat := (got.foldl (fun (t : Int) (_, y, _, _) => t + y) 0 : Int) / (got.length : Rat)
    let e := (y - yTarget s).floor
    pesGuard { s with srv := { s.srv with
      pesSum := s.srv.pesSum + e, pesN := s.srv.pesN + 1
      pesSq := s.srv.pesSq + e.natAbs * e.natAbs, pesSqN := s.srv.pesSqN + 1 } } (some e)

/-- SERVO_FRAME. -/
def execServoFrame (readers : List (Fin 4 × StripeTimes)) (s : State) : Host.Outcome State Fault Refusal := act s (servoFrame readers)

/-! ### Servo loss and wedge mode (R348, R358-R360) -/

/-- Both servo bands of the data band are unreadable. -/
def bothGone (s : State) : Bool := s.srv.gone[0] && s.srv.gone[1]

/-- Enters wedge mode while reading without a servo band, or stops the tape where `read.wedge_mode` is OFF (R348, R358). -/
def wedgeEnter (s : State) : State :=
  if bothGone s && s.rd.reading && !s.srv.wedgeMode then
    if pnat s .wedgeMode = 1 then
      guardScan { s with
        srv := { s.srv with wedgeMode := true }, rd := { s.rd with wedge := true, noWedge := 0, wedgePos := [] }
        med := { s.med with inh := { s.med.inh with pes := true } } }
    else { s with rd := { s.rd with reading := false } }
  else s

/-- SERVO_BAND_LOST (R358): `servo.lost_frames` frame times have gone without a valid sample. -/
def bandLost (hi : Bool) (s : State) : State :=
  let k : Fin 2 := if hi then 1 else 0
  let s := { s with srv := { s.srv with
    bandLo := if hi then s.srv.bandLo else false, bandHi := if hi then false else s.srv.bandHi
    gone := s.srv.gone.set k true, prev := s.srv.prev.set k none, bits := s.srv.bits.set k [] } }
  if bothGone s then wedgeEnter (logE s .warn srcChip 0x0504 [("band", 1, bandOfWrap (wrapNow s))]) else s

/-- SERVO_BAND_LOST. -/
def execServoBandLost (hi : Bool) (s : State) : Host.Outcome State Fault Refusal :=
  let k : Fin 2 := if hi then 1 else 0
  actIf s (!s.srv.gone[k] && pnat s .lostFrames ≤ s.srv.miss[k]) (bandLost hi)

/-- SERVO_BAND_REGAINED (R348, R358): the band is readable again, and wedge mode ends. -/
def bandRegained (hi : Bool) (s : State) : State :=
  let k : Fin 2 := if hi then 1 else 0
  { s with
    srv := { s.srv with
      bandLo := s.srv.bandLo || !hi, bandHi := s.srv.bandHi || hi, gone := s.srv.gone.set k false, wedgeMode := false }
    rd := { s.rd with wedge := false } }

/-- SERVO_BAND_REGAINED. -/
def execServoBandRegained (hi : Bool) (s : State) : Host.Outcome State Fault Refusal :=
  let k : Fin 2 := if hi then 1 else 0
  actIf s ((if hi then !s.srv.bandHi else !s.srv.bandLo) && pnat s .regainFrames ≤ s.srv.good[k]) (bandRegained hi)

/-- WEDGE_POSITION_LOST (R360): 4 data sets have passed in wedge mode without an accepted wedge; the tape stops. -/
def execWedgePositionLost (s : State) : Host.Outcome State Fault Refusal :=
  actIf s (s.srv.wedgeMode && 4 * bitsNm3 (frameLen 0) ≤ s.rd.noWedge) fun s =>
    { s with srv := { s.srv with lost := true }, rd := { s.rd with reading := false, stopped := true } }

/-! ### Track following (R355-R357, R359) -/

/-- A value kept within bounds. -/
def clampR (lo hi x : Rat) : Rat := max lo (min hi x)

/-- A 16-bit signed field. -/
def clamp16 (v : Int) : Int := max (-32768) (min 32767 v)

/-- The coarse target of a wrap in µm from the reference edge (R259, R378). -/
def coarseOf (w : Nat) : Nat := (5434 + 29328 * bandOfWrap w + 9 * slotOfWrap w + 5) / 10

/-- FF is frozen (R357). -/
def ffFrozen (s : State) (steady : Bool) : Bool :=
  s.srv.pesN = 0 || !steady || s.srv.coarse || s.cart.motion.isSome || s.srv.wedgeMode || !pbool s .ffEnable

/-- Learns the feed-forward and puts it in force for the next tick (R356, R357). -/
def ffStep (s : State) (bin : Nat) (steady : Bool) (pes : Int) : State :=
  if !pbool s .ffEnable then { s with srv := { s.srv with ff := 0, ffOn := false } }
  else
    let w := wrapNow s
    let key := 2 * bandOfWrap w + (if wrapRev w then 1 else 0)
    let metre := min 999 (s.srv.pos / 3000000000).toNat
    let kr := 256 * key + bin
    let kl := 1000 * key + metre
    let r := (look kr s.srv.ffReel).getD 0
    let l := (look kl s.srv.ffLong).getD 0
    let step : Rat := (pes : Rat) / (2 ^ pnat s .ffShift : Nat)
    let (r, l) := if ffFrozen s steady then (r, l) else (r + step, l + step / 16)
    let lim : Rat := (100 * pnat s .ffLimit : Nat)
    { s with srv := { s.srv with
        ffReel := put kr r s.srv.ffReel, ffLong := put kl l s.srv.ffLong
        ff := clampR (-lim) lim (r + l), ffOn := s.srv.follow } }

/-- The coarse target follows the wrap (R355, R376). -/
def coarseStep (s : State) : State :=
  let w := wrapNow s
  if s.srv.wrapAt == some w then s
  else { s with srv := { s.srv with wrapAt := some w, coarseAt := coarseOf w, coarse := true, prev := Vector.replicate 2 none } }

/-- The dither on the fine stage in wedge mode (R359): its sign changes every data set. -/
def ditherNow (s : State) : Int :=
  if s.srv.wedgeMode then
    let d := Config.ditherCode (pnat s .wedgeDither)
    if s.srv.dither then -d else d
  else 0

/-- TRACK_FOLLOW_UPDATE (R355, R356, R359). In wedge mode the median of the wedge rows read in the tick stands for PES;
its sign is a free value (log 8). -/
def trackStep (s : State) (bin : Nat) (steady : Bool) : State :=
  let s := if s.cart.threaded then coarseStep s else s
  let (s, pes, any) := if s.srv.wedgeMode then
      let m := median (s.rd.wedgePos.map (·.2))
      let (k, s) := draw s
      ({ s with rd := { s.rd with wedgePos := [] } }, if Config.wedgeSign k then -m else m, !s.rd.wedgePos.isEmpty)
    else (s, if s.srv.pesN = 0 then s.srv.pes else s.srv.pesSum / (s.srv.pesN : Int), decide (0 < s.srv.pesN))
  let s := { s with srv := { s.srv with
    follow := s.cart.threaded && s.pw.dom.motion == .on && (s.srv.bandLo || s.srv.bandHi || s.srv.wedgeMode) && !s.srv.lost } }
  let s := ffStep s bin steady pes
  let s := if any then { s with srv := { s.srv with pes := pes } } else s
  let s := if s.srv.follow && !s.srv.coarse && any then
      let (k, s) := draw s
      let f := clamp16 (Config.trackPid pes (pnat s .servoBw) k + ditherNow s)
      let s := { s with srv := { s.srv with hpFine := f } }
      if 29491 < f.natAbs then
        let (k, s) := draw s
        let a := (s.srv.coarseAt : Int) + Config.coarseStep f k
        { s with srv := { s.srv with coarse := true, coarseAt := (max 0 (min 65535 a)).toNat } }
      else s
    else s
  { s with srv := { s.srv with
      readers := s.srv.readersNow, readersNow := [], pesSum := 0, pesN := 0 } }

/-! ### Tension and speed (R361-R364) -/

/-- A speed step in m/s. -/
def stepSpeed (k : Nat) : Rat := 5 / 4 + (k : Rat) / 20

/-- The speed commanded now in m/s (R362, R371, R374, R376, R377). -/
def speedCommand (s : State) : Rat :=
  if s.srv.stopCmd || s.pw.dom.motion != .on || !s.cart.threaded then 0
  else if s.cart.motion.isSome then
    if bothGone s then 5 / 2 else (pnat s .locateSpeed : Rat) / 100
  else if s.srv.lost || s.rein.bh == .wait then 0
  else if s.rein.bh == .runUp then 5 / 4
  else if s.pw.mode == .stream && (s.med.positioned || s.rd.reading) then stepSpeed s.rein.step
  else 0

/-- The acceleration limit in force, in m/s² (R362, R374, R376). -/
def accelLimit (s : State) : Rat :=
  if s.rein.bh != .none then (pnat s .bhAccel : Rat) / 10 else (pnat s .accel : Rat) / 10

/-- SPEED_UPDATE (R354, R362): the measured speed of the tick, the setpoint's move and the common torque. The answer says
whether the speed is steady. -/
def speedStep (s : State) : State × Bool :=
  let (s, v) := if s.srv.speedN ≠ 0 then (s, s.srv.speedSum / s.srv.speedN)
    else if s.srv.encMoved = 0 || !s.cart.threaded then (s, 0)
    else let (k, s) := draw s; (s, Config.encoderSpeed s.srv.encMoved k)
  let want := speedCommand s
  let a := accelLimit s * (s.tk.periodNs : Rat) / 1000000000
  let set := if s.srv.setSpeed < want then min want (s.srv.setSpeed + a) else max want (s.srv.setSpeed - a)
  let moved := v * s.tk.periodNs * 3 / 1000
  let rev := wrapRev (wrapNow s)
  let s := { s with
    srv := { s.srv with
      speed := v, speedSum := 0, speedN := 0, setSpeed := set, dirRev := rev
      pos := if rev then s.srv.pos - moved else s.srv.pos + moved }
    cart := { s.cart with passed := if s.cart.loaded then s.cart.passed + moved else s.cart.passed }
    rd := { s.rd with noWedge := if s.srv.wedgeMode then s.rd.noWedge + moved else 0 } }
  if s.pw.dom.motion == .on && s.cart.threaded then
    let (k, s) := draw s
    ({ s with srv := { s.srv with torqueSum := clamp16 (Config.speedPi v (1000 * set).floor k) } }, decide (set = want))
  else ({ s with srv := { s.srv with torqueSum := 0 } }, false)

/-- TENSION_UPDATE (R361, R363): the estimate, the torque difference, and the ticks out of 400 to 1,400 mN. -/
def tensionStep (s : State) : State :=
  if s.pw.dom.motion == .on && s.cart.threaded then
    let (k, s) := draw s
    let t := Config.tensionEstimate s.srv.iS s.srv.iT s.srv.encS s.srv.encT k
    let (k, s) := draw s
    { s with srv := { s.srv with
        tension := min 65535 t, torqueDiff := clamp16 (Config.tensionPi t (pnat s .tensionMn) k)
        outTicks := if t < 400 || 1400 < t then s.srv.outTicks + 1 else 0 } }
  else { s with srv := { s.srv with torqueDiff := 0, outTicks := 0 } }

/-- TENSION_FAULT (R363): 20 ticks out of range stop the tape, and HALT follows with cause MOTION. -/
def execTensionFault (s : State) : Host.Outcome State Fault Refusal :=
  actIf s (20 ≤ s.srv.outTicks) fun s => haltRequest { s with srv := { s.srv with stopCmd := true } } .motion

/-! ### The rein (R365-R373) -/

/-- D_ff / D(5.00 m/s) of the plait in force (R365). -/
def reinDff (s : State) : Rat :=
  let p : Rat := (s.med.plait.slots.length : Nat)
  allSads.foldl (fun m n =>
    let k := s.med.plait.k[n]
    let r := s.sad[n].admitted
    if k = 0 || r = 0 then m
    else max m ((r : Rat) * 1000000 / (admGirths s n * 4096 : Nat) * p / (k : Rat) / (586000000 / 2981888))) 0

/-- The mean Q of the last 64 data sets written (R365). -/
def meanQ (s : State) : Rat := if s.med.qHist.isEmpty then 0 else (sumL s.med.qHist : Rat) / (s.med.qHist.length : Rat)

/-- v_ff (R365), which follows the plait epoch and Q̄. -/
def vffStep (s : State) : State :=
  let m := s.med.plait.marker
  let s := if m == s.rein.ffMarker || m.isNone || s.med.plait.flush then s
    else { s with rein := { s.rein with dff := reinDff s, ffMarker := m } }
  { s with rein := { s.rein with vff := 5 * s.rein.dff * (600446 + 4982 * meanQ s) / 600446 } }

/-- The fill f (R366). -/
def reinFill (s : State) : Rat :=
  let of (l : List SadNo) : Rat := l.foldl (fun m n => max m ((unsyncBytes s.sad[n] : Rat) / (max 1 (window s n) : Nat))) 0
  let rates := allSads.filter fun n => 0 < s.sad[n].admitted
  if rates.isEmpty then of (allSads.filter fun n => s.sad[n].st != .closed && classOf s n != .rate) else of rates

/-- `rein.target_fill` as the turn's lead lowers it (R369). -/
def reinTarget (s : State) : Rat :=
  let t : Rat := (pnat s .targetFill : Rat) / 100
  let lead := pnat s .turnLead
  let perTick := s.srv.speed * s.tk.periodNs * 3 / 1000
  if lead = 0 || perTick = 0 || !s.med.positioned then t
  else
    let left := (zoneNm3 - marginNm3 - bitsNm3 s.med.x) / perTick
    if left < lead then t * (left : Rat) / (lead : Rat) else t

/-- The upper limit of v_target (R367). -/
def reinUpper (s : State) : Rat :=
  let up : Rat := if s.med.positioned then 5 else (pnat s .readSpeed : Rat) / 100
  if s.srv.wedgeMode then min (5 / 2) up else up

/-- A SHARE or IDLE saddle is open (R368). -/
def sharesOpen (s : State) : Bool := allSads.any fun n => s.sad[n].st != .closed && classOf s n != .rate

/-- The lowest step at or above a speed. -/
def stepAbove (v : Rat) : Nat := min 75 ((v - 5 / 4) * 20).ceil.toNat

/-- The step for a dwell period and the dither's carry (R368). While reading alone the read speed stands (R371). -/
def stepPick (s : State) (v : Rat) : Nat × Rat :=
  if s.med.positioned && sharesOpen s then
    let lo := min 75 ((v - 5 / 4) * 20).floor.toNat
    let acc := s.rein.acc + ((v - 5 / 4) * 20 - (lo : Rat))
    if 1 ≤ acc then (min 75 (lo + 1), acc - 1) else (lo, acc)
  else (stepAbove v, 0)

/-- The next slot would be written as FILL (R372). -/
def fillNext (s : State) : Bool :=
  match s.med.plait.slots.getD s.med.cursor .free with
  | .owner n => !servable s n
  | .free => allSads.all fun n => classOf s n == .rate || !servable s n
  | .fill => true

/-- REIN_UPDATE (R365-R372). -/
def reinStep (s : State) : State :=
  let s := vffStep s
  let f := reinFill s
  let s := { s with rein := { s.rein with
    fill := f, frozen := pfInForce s, stopped := !(s.pw.mode == .stream && (s.med.positioned || s.rd.reading)) } }
  if s.rein.stopped || s.rein.frozen || s.med.inh.inhibited || s.rein.bh != .none then s
  else
    let e := f - reinTarget s
    let kp : Rat := (pnat s .reinKp : Rat) / 10
    let ki : Rat := (pnat s .reinKi : Rat) / 10000
    let up := reinUpper s
    let before := s.rein.vff + kp * e + s.rein.integ
    let blocked := (decide (up ≤ before) && decide (0 < e)) || (decide (before ≤ 5 / 4) && decide (e < 0))
    let i := if blocked then s.rein.integ else clampR (-1) 1 (s.rein.integ + ki * e)
    let reading := !s.med.positioned
    let v := if reading then up else max (5 / 4) (min up (s.rein.vff + kp * e + i))
    let hi := decide (v = 5) && decide (0 < e) && s.med.positioned
    let low := decide (v = 5 / 4) && decide (e < 0) && s.med.positioned
    let ep := s.med.plait.epoch
    let s := if hi && s.rein.satEpoch ≠ some ep then logE s .info srcChip 0x0601 [("epoch", 4, ep)] else s
    let s := { s with rein := { s.rein with
      vtarget := v, integ := i, hiSat := hi, satEpoch := if hi then some ep else s.rein.satEpoch
      pad := low && pnat s .lowPolicy = 0, lowTicks := if low then s.rein.lowTicks + 1 else 0
      dither := s.med.positioned && sharesOpen s } }
    if s.rein.stepAt.toNat + pnat s .reinDwell ≤ now s then
      let (k, acc) := stepPick s v
      { s with
        rein := { s.rein with step := k, acc := acc, stepAt := if k = s.rein.step && !s.rein.dither then s.rein.stepAt else s.clk.ptc }
        med := { s.med with settle := if k = s.rein.step then s.med.settle else pnat s .wplSettle } }
    else s

/-! ### Backhitch (R372-R375) -/

/-- Ticks that a time in seconds takes, rounded up. -/
def ticksOf (s : State) (t : Rat) : Nat := (t * 1000000000 / (s.tk.periodNs : Rat)).ceil.toNat

/-- The times of R374 at the acceleration in force: from the start of the deceleration to the start of the wait, and from
its end to the point where writing resumes. -/
def bhTimes (s : State) : Rat × Rat :=
  let a : Rat := (pnat s .bhAccel : Rat) / 10
  let v : Rat := 5 / 4
  (v / a + 1 / 10 + (2 * v / a + (725 / 1000 - v * v / a) / v) + 1 / 10, v / a + (71875 / 100000 - v * v / a) / v)

/-- BACKHITCH_START (R372, R374): the FILL data set of R282 is written first. -/
def execBackhitchStart (s : State) : Host.Outcome State Fault Refusal :=
  actIf s (s.pw.mode == .stream && s.med.positioned && s.rein.bh == .none && pnat s .lowPolicy = 1 && !s.med.flush &&
      !s.med.stopAfter && pnat s .reinDwell ≤ s.rein.lowTicks && fillNext s) fun s =>
    { s with
      rein := { s.rein with bh := .fill, bhCnt := inc s.rein.bhCnt, lowTicks := 0 }
      med := { s.med with stopAfter := true, fillOwed := true } }

/-- What ends the wait of a backhitch beside its time (R373). -/
def bhWanted (s : State) : Bool :=
  decide ((pnat s .bhResumeFill : Rat) / 100 ≤ s.rein.fill) || s.med.flush || pfInForce s || s.pw.pf.waiting ||
    !s.pw.reqs.isEmpty || s.pw.trans.isSome ||
    s.adm.entries.any (fun e => e.open_ && e.verb == .unload && e.phase == .executing) ||
    allSads.any fun n => s.sad[n].q.entries.any fun e => e.open_ && e.verb == .sync

/-- BACKHITCH_RESUME (R373): the wait ends and the tape runs up. -/
def execBackhitchResume (s : State) : Host.Outcome State Fault Refusal :=
  actIf s (s.rein.bh == .wait && s.rein.bhAt.toNat ≤ now s &&
      (bhWanted s || s.rein.bhAt.toNat + pnat s .bhMaxTicks ≤ now s)) fun s =>
    { s with rein := { s.rein with bh := .runUp, bhAt := BitVec.ofNat 64 (now s + ticksOf s (bhTimes s).2) } }

/-- The backhitch's progress at a boundary (R374): rest once the FILL data set's rows are verified, and writing once the run-up
reaches the end of its frame. -/
def bhStep (s : State) : State :=
  match s.rein.bh with
  | .fill =>
    if !s.med.stopAfter && s.med.written.isEmpty then
      { s with rein := { s.rein with bh := .wait, bhAt := BitVec.ofNat 64 (now s + ticksOf s (bhTimes s).1) } }
    else s
  | .runUp =>
    if s.rein.bhAt.toNat ≤ now s then
      { s with rein := { s.rein with bh := .none }, med := { s.med with positioned := s.pw.mode == .stream && !s.med.stopped } }
    else s
  | _ => s

/-! ### The motor drive link (R378-R381) -/

/-- The TX frame (R378). -/
def mdlTx (s : State) : List Byte :=
  let run := s.pw.dom.motion == .on && !s.srv.stopCmd
  let cmd := (if run then 128 else 0) + (if s.srv.stopCmd then 64 else 0)
  let b := beBytes 2 0xC35A ++ beBytes 1 (now s % 256) ++ beBytes 1 cmd ++
    beBytes 2 (twos 16 (clamp16 (s.srv.torqueSum - s.srv.torqueDiff / 2))) ++
    beBytes 2 (twos 16 (clamp16 (s.srv.torqueSum + s.srv.torqueDiff / 2))) ++
    beBytes 2 (twos 16 s.srv.hpFine) ++ beBytes 2 s.srv.coarseAt
  b ++ beBytes 2 (crc16 b).toNat

/-- MDL_TX_FRAME (R378, R382): a frame after each boundary while the MOTION domain is powered. -/
def mdlSend (s : State) : State :=
  if s.pw.dom.motion == .off then s
  else { s with out := { s.out with mdl := mdlTx s } }

/-- An RX frame that counts (R378, R381): SYNC, the echoed FCNT and the CRC. -/
def mdlRxOk (s : State) (f : List Byte) : Bool :=
  f.length = 20 && beField f 0 2 = 0x3CA5 && beField f 2 1 = now s % 256 && beField f 18 2 = (crc16 (f.take 18)).toNat

/-- MDL_RX_FRAME (R381): a frame that is missing or fails its checks counts; a valid one brings status, encoders and
currents. -/
def mdlRx (frame : Option (List Byte)) (s : State) : State :=
  match frame.filter (mdlRxOk s) with
  | none =>
    let s := { s with srv := { s.srv with mdlErr := sat 16 (s.srv.mdlErr + 1), mdlRun := s.srv.mdlRun + 1 } }
    if 3 ≤ s.srv.mdlRun then haltRequest s .motion else s
  | some f =>
    let stat := beField f 3 1
    let warn := stat / 32 % 4
    let fresh := (warn &&& (3 - s.srv.mdlWarn)) ≠ 0
    let s := if fresh then logE s .warn srcChip 0x0602 [("stat", 1, stat)] else s
    let encT := beField f 8 4
    let s := { s with srv := { s.srv with
      mdlRun := 0, mdlWarn := warn, mdlFaults := if 128 ≤ stat then s.srv.mdlFaults + 1 else 0
      coarse := stat / 4 % 2 = 1 || (s.srv.coarse && beField f 12 2 ≠ s.srv.coarseAt)
      encMoved := signed 32 ((encT + 2 ^ 32 - s.srv.encT) % 2 ^ 32)
      encS := beField f 4 4, encT := encT, iS := signed 16 (beField f 14 2), iT := signed 16 (beField f 16 2) } }
    if 2 ≤ s.srv.mdlFaults then haltRequest s .motion else s

/-- MDL_RX_FRAME. -/
def execMdlRxFrame (frame : Option (List Byte)) (s : State) : Host.Outcome State Fault Refusal :=
  actIf s (s.pw.dom.motion != .off) (mdlRx frame)

/-- The motion loops of a boundary, in the order of R19: speed, tension, track following. -/
def motionTick (reelBin : Nat) (s : State) : State :=
  let (s, steady) := speedStep s
  wedgeEnter (trackStep (tensionStep s) reelBin steady)

end Sys2Proof.Machine
end

