-- ==== Sys2Proof/Machine/Cart.lean ====
section
/-! DEFINITION. Cartridges and cartridge memory (file 13), and the verbs that move the tape: LOAD, UNLOAD, LOCATE, SPACE
and CM (file 06). -/

namespace Sys2Proof.Machine

open Sys2Proof

/-! ### Positions (R173, R287, R288) -/

/-- The wrap that a data set lies on, from the wrap table (R287). -/
def wrapOfDsn (s : State) (d : Nat) : Nat := (s.med.wrapFirst.filter (· ≤ d)).length - 1

/-- The estimated distance of a data set along its wrap, in channel bits (R288). -/
def estOfDsn (s : State) (d : Nat) : Nat := estBits (d - s.med.wrapFirst.getD (wrapOfDsn s d) 0)

/-- `ds=` and `m=` (R173). -/
def posFields (s : State) (d : Nat) : List Fld := [fnum "ds" d, fld "m" (fixedStr 2 ((mmOf (wrapOfDsn s d) (estOfDsn s d) / 10 : Nat) : Int))]

/-- The rest point of R377 for a data set: the tape stands 0.40 m ahead of it on its wrap, and what is under the head is known
from the next leader on; a data set held for the area of the one after it is final (R340). -/
def restAt (s : State) (d : Nat) : State :=
  let w := wrapOfDsn s d
  let m : Int := (mmOf w (estOfDsn s d) : Nat)
  let s := startRead (nextAreaRead false s) w
  { s with
    rd := { s.rd with dsNow := none, cur := none, stopped := true, reading := false }
    med := { s.med with positioned := false }
    srv := { s.srv with pos := 3000000 * (if wrapRev w then m + 400 else m - 400), lost := false } }

/-- A command that moves the tape waits while another motion runs. -/
def tapeFree (ch : Chan) (t : Nat) (body : State → State) (s : State) : State :=
  if s.cart.motion.isSome then modEntry s ch t fun e => { e with begun := false, why := .tape } else body s

/-- Starts a motion (R31, R174). -/
def startMotion (s : State) (m : MotionOp) : State :=
  setDom { s with
    cart := { s.cart with motion := some m }, med := { s.med with positioned := false }, rd := { s.rd with reading := false } }

/-- Ends the motion under way. -/
def endMotion (s : State) : State := setDom { s with cart := { s.cart with motion := none } }

/-- The open command of a verb on the admin channel. -/
def admOpen (s : State) (p : Verb → Bool) : Option Entry := s.adm.entries.find? fun e => e.open_ && e.phase == .executing && p e.verb

/-! ### LOAD (R383, R385, R392) -/

/-- HEAD's serial number (R391). -/
def cmSerial (m : Mem) : String := ofAscii ((m.read 0 10).filter (· ≠ 0))

/-- How LOAD names the source of its end-of-data facts. -/
def cmName (k : Nat) : String := if k = 0 then "OK" else if k = 1 then "TAIL" else "NONE"

/-- LOAD's reply fields; without cartridge memory no serial number is known (log 20). -/
def loadFields (s : State) : List Fld :=
  [fld "serial" (if s.cart.present then cmSerial s.cart.mem else "none"), fnum "loads" s.cart.loads, fnum "epochs" s.cart.epochsN,
   fld "cm" (cmName s.cart.source)]

/-- LOAD's effect (R174, R383). -/
def loadAsk (t : Nat) (s : State) : State :=
  if s.cart.loaded then okWith s .adm t (loadFields s)
  else if !(streamHeld s .adm).isEmpty then complete s .adm t (busyMode (streamHeld s .adm))
  else tapeFree .adm t (fun s => startMotion s .load) s

/-- LOAD. -/
def execLoad (tag : Option Nat) (s : State) : Host.Outcome State Fault Refusal := verbRow .adm tag .load loadAsk s

/-- Records of a ring in SEQ order. -/
def ringRecs (m : Mem) (base n : Nat) : List (Nat × List Byte) :=
  let l := (List.range n).filterMap fun i => parseRing (m.read (base + 32 * i) 32)
  l.mergeSort fun a b => a.1 ≤ b.1

/-- The sessions whose data sets pass the continuity test: OPEN_SESSION and those of LOAD records after the OPEN record
(R392). -/
def scanSessions (m : Mem) (d : Option Dir) : List Nat :=
  let recs := ringRecs m 0x5000 384
  let type (r : Nat × List Byte) := beField r.2 0 1
  let ses (r : Nat × List Byte) := beField r.2 10 8
  let after := (recs.reverse.takeWhile fun r => type r ≠ 4).filter fun r => type r = 1
  let opened := (d.map (·.openSession)).getD (((recs.reverse.find? fun r => type r = 4).map ses).getD 0)
  opened :: after.map ses

/-- The leaders that pass the continuity test of R392, in order, up to the first TAIL. -/
def scanPass (ok : List Nat) : Nat → List LeaderObs → List LeaderObs
  | _, [] => []
  | want, l :: t =>
    if (l.dsn = want || l.dsn + 1 = want) && ok.contains l.session.toNat then
      if l.kind = 3 then [l] else l :: scanPass ok (l.dsn + 1) t
    else []

/-- End-of-data facts: source, EOD_DSN, NEXT_SEQ, LAST_DSN and wrap table. -/
structure EodFacts where
  source : Nat
  eod : Nat
  nextSeq : List Nat
  lastDsn : List Nat
  wraps : List Nat

/-- What a directory says. -/
def factsOf (src : Nat) (d : Dir) : EodFacts := ⟨src, d.eod, d.nextSeq, d.lastDsn, d.wraps⟩

/-- The wrap table without its unused entries. -/
def wrapTable (l : List Nat) : List Nat := 0 :: (l.drop 1).takeWhile (0 < ·)

/-- The wrap table as the scanned leaders extend it (R278, R287). -/
def scanWraps (w : List Nat) (l : List LeaderObs) : List Nat :=
  l.foldl (fun w x => if w.length ≤ x.wrap then w ++ [x.dsn] else w) w

/-- The end-of-data facts of a load: a CLOSED directory, else the scan, else nothing (R383, R392). With an OPEN directory
and nothing that passes, the directory's own facts stand (log 21). -/
def eodFacts (m : Mem) (scan : List LeaderObs) : EodFacts :=
  let none_ : EodFacts := ⟨2, 0, [], [], []⟩
  let go (d : Option Dir) : EodFacts :=
    let base := (d.map (factsOf 1)).getD none_
    let l := scanPass (scanSessions m d) base.eod scan
    let base := { base with wraps := scanWraps (wrapTable base.wraps) l }
    match l.getLast? with
    | none => base
    | some x =>
      if x.kind = 3 then
        match x.image.bind parseDir with
        | some i => factsOf 1 { i with eod := x.dsn }
        | none => { base with source := 1, eod := x.dsn, nextSeq := x.nextSeq }
      else
        match (l.filter fun x => x.kind = 0).getLast? with
        | some y => { base with source := 1, eod := x.dsn + 1, nextSeq := y.nextSeq }
        | none => { base with source := 1, eod := x.dsn + 1 }
  match dirInForce m with
  | some (d, _) => if d.opened then go (some d) else factsOf 0 d
  | none => go none

/-- The tail data set that the scan of a load has found, with its DSN (R392). -/
def tailFound (m : Mem) (scan : List LeaderObs) : Option (List Byte × Nat) :=
  let d := (dirInForce m).map (·.1)
  if (d.map (!·.opened)).getD false then none
  else match (scanPass (scanSessions m d) ((d.map (·.eod)).getD 0) scan).getLast? with
    | some x => if x.kind = 3 then x.image.map fun i => (i, x.dsn) else none
    | none => none

/-- What LOAD leaves once the tape is threaded (R383, R385, R387). -/
def loadDone (obs : LoadObs) (s : State) : State :=
  let mem : Mem := ({} : Mem).put 0 (((obs.cm.getD []).take cmBytes))
  let present := obs.cm.isSome && !obs.multi
  let s := if obs.multi then logE s .warn srcChip 0x0702 else s
  let f : EodFacts := if present then eodFacts mem obs.scan else ⟨2, 0, [], [], []⟩
  let d := if present then dirInForce mem else none
  let wraps := wrapTable f.wraps
  let dir := d.map (·.1)
  let epochsN := (dir.map (·.epochs)).getD 0
  let loads := (dir.map (·.loads)).getD 0 + 1
  let s := { s with
    cart := { s.cart with
      threaded := true, loaded := true, readonly := f.source = 2, source := f.source, opened := (dir.map (·.opened)).getD false
      marked := false, mem := if present then mem else {}, present := present, seqDir := (dir.map (·.seq)).getD 0
      copyB := (d.map (·.2)).getD true, loads := loads, epochsN := epochsN, logsN := (dir.map (·.logs)).getD 0
      tail := if present then tailFound mem obs.scan else none
      heldEpochs := [], heldLogs := [], metres := (dir.map (·.metres)).getD 0, passed := 0, eodDsn := f.eod, openSession := 0
      cmWait := none }
    med := { s.med with
      append := f.eod, wrapFirst := wraps, positioned := false, again := none, eom := false, stopAfter := false
      flush := false, flushStep := 0, wroteSinceLoad := false, epochs := [], index := [], appendFail := false, satTold := []
      plait := { s.med.plait with marker := none, flush := false, epoch := epochsN }
      nextSeq := Vector.ofFn fun n => f.nextSeq.getD n.val 0, lastDsn := Vector.ofFn fun n => f.lastDsn.getD n.val 0
      next := match s.med.next.getLast? with
        | some (p, t) => [(p, t)]
        | none => [({ s.med.plait with flush := false, marker := none }, s.clk.ptc)] }
    rd := { s.rd with store := [], lastDs := 0, wedge := false, eodSeen := false }
    srv := { s.srv with
      ffReel := [], ffLong := [], ff := 0, wedgeMode := false, prev := Vector.replicate 2 none, bits := Vector.replicate 2 [] } }
  let w := wrapOfDsn s f.eod
  let s := { s with med := { s.med with wrap := w, x := estOfDsn s f.eod } }
  let s := mapSad s fun n x => { x with
    next := if x.unsync.isEmpty && x.blk.bytes.isEmpty then s.med.nextSeq[n] else x.next
    readPos := 0, posLost := false, ew := false, ewTold := false }
  let s := heldLog s 1 0xFF 0
  let s := restAt s 0
  if pnat s .loadsWarn ≤ loads then logE s .warn srcChip 0x0703 [("loads", 4, loads)] else s

/-- LOAD_COMPLETE (R383): what the steps of LOAD found. -/
def loadComplete (obs : LoadObs) (s : State) : State :=
  let s := endMotion s
  let fail (why : String) (s : State) : State := match admOpen s (· == .load) with
    | some e => complete s .adm e.tag (failWhy .notape why)
    | none => s
  if obs.empty then fail "empty" s
  else if obs.threadFails then fail "thread" s
  else
    let s := setDom (loadDone obs s)
    match admOpen s (· == .load) with
    | some e => okWith s .adm e.tag (loadFields s)
    | none => s

/-- LOAD_COMPLETE. -/
def execLoadComplete (obs : LoadObs) (s : State) : Host.Outcome State Fault Refusal :=
  actIf s (s.cart.motion == some .load) (loadComplete obs)

/-! ### UNLOAD (R204, R384) -/

/-- UNLOAD's effect (R174, R204). From STAGE the change to PARK comes first, subject to R37. -/
def unloadAsk (t : Nat) (s : State) : State :=
  let busy := allSads.filter fun n => !s.sad[n].unsync.isEmpty
  let lower := if s.pw.mode == .stage then holders s 1 .adm else streamHeld s .adm
  if !s.cart.loaded then complete s .adm t { status := .notape }
  else if !busy.isEmpty then complete s .adm t (busyMode busy)
  else if !lower.isEmpty then complete s .adm t (busyMode lower)
  else tapeFree .adm t (fun s =>
    let s := if s.pw.mode == .stage then
        { s with pw := { s.pw with reqs := s.pw.reqs ++ [{ ch := .adm, tag := none, target := .park }] } } else s
    startMotion s .unload) s

/-- UNLOAD. -/
def execUnload (tag : Option Nat) (s : State) : Host.Outcome State Fault Refusal := verbRow .adm tag .unload unloadAsk s

/-- One of the data sets that end a recording: it takes the next DSN and its place on the wrap (R384). -/
def endFrame (s : State) : State :=
  let s := if frameFits s.med.x then s else wrapEnd { s with med := { s.med with lane := .idle } }
  { s with med := { s.med with append := s.med.append + 1, x := s.med.x + frameLen 0 } }

/-- FILL, the tail data set and FILL, when data has been written since the load (R384). -/
def endRecording (s : State) : State :=
  if s.med.wroteSinceLoad && !s.cart.readonly then
    let s := endFrame s
    let s := { s with cart := { s.cart with eodDsn := s.med.append } }
    let s := endFrame (endFrame s)
    { s with med := { s.med with wroteSinceLoad := false } }
  else s

/-- UNLOAD_COMPLETE (R384): `cmOk` says whether the directory could be written. -/
def unloadComplete (cmOk : Bool) (s : State) : State :=
  let e := admOpen s (· == .unload)
  let done (s : State) (o : Outc) : State := match e with
    | some e => complete s .adm e.tag o
    | none => s
  if s.pw.mode == .stage then done (endMotion s) (busyMode (holders s 1 .adm))
  else
    let s := endRecording s
    let ok := cmOk && s.cart.present
    let s := if ok then writeDir (heldLog s 2 0xFF s.cart.eodDsn) false else logE s .warn srcChip 0x0701
    let loads := s.cart.loads
    let s := endMotion { s with
      cart := { s.cart with threaded := false, loaded := false, readonly := false, opened := false, marked := false, present := false, cmWait := none }
      rd := { s.rd with store := [], reading := false, dsNow := none, cur := none, recon := [] }
      med := { s.med with index := [], epochs := [] } }
    done s { status := .ok, fields := [fld "cm" (if ok then "OK" else "TAIL"), fnum "loads" loads] }

/-- UNLOAD_COMPLETE. -/
def execUnloadComplete (cmOk : Bool) (s : State) : Host.Outcome State Fault Refusal :=
  actIf s (s.cart.motion == some .unload && s.pw.trans.isNone && s.pw.reqs.isEmpty) (unloadComplete cmOk)

/-! ### CM (R179, R389-R391) -/

/-- The fields of a part of cartridge memory (log 22: the spec names the parts, and the fields of HEAD alone). -/
def cmFields (s : State) (p : CmPart) : List Fld :=
  let m := s.cart.mem
  match p with
  | .head => [fld "serial" (cmSerial m), fnum "loads" s.cart.loads]
  | .dir => match dirInForce m with
    | none => [fld "copy" "none"]
    | some (d, b) =>
      [fld "copy" (if b then "B" else "A"), fnum "seq" d.seq, fld "state" (if d.opened then "OPEN" else "CLOSED"), fnum "loads" d.loads,
       fnum "cfg" d.cfg, fnum "eod_dsn" d.eod, fld "open_session" (sidStr (BitVec.ofNat 64 d.openSession)), fnum "epochs" d.epochs,
       fnum "logs" d.logs, fnum "metres" d.metres]
  | .eod => match dirInForce m with
    | none => [fld "eod_dsn" "none"]
    | some (d, _) => [fnum "eod_dsn" d.eod, fld "next_seq" (natsStr d.nextSeq), fld "last_dsn" (natsStr d.lastDsn)]
  | .epochs => [fnum "count" ((dirInForce m).map (·.1.epochs) |>.getD 0)]
  | .session => [fnum "count" ((dirInForce m).map (·.1.logs) |>.getD 0)]
  | .raw a len => [fld "hex" (listStr ((parts 8 (m.read a len)).map fun b => hexVal (2 * b.length) (beVal b)))]

/-- The records of a ring part, one line each; a TIME pair carries its label (R3). -/
def cmLines (s : State) (p : CmPart) : List (List Fld) :=
  match p with
  | .epochs => (ringRecs s.cart.mem 0x1100 504).map fun (q, b) =>
      [fnum "seq" q, fnum "epoch" (beField b 0 4), fnum "ds" (beField b 4 4), fnum "length" (beField b 8 2), fnum "mode" (beField b 10 1),
       fld "sid" (sidStr (BitVec.ofNat 64 (beField b 12 8)))]
  | .session => ((ringRecs s.cart.mem 0x5000 384).filter fun r => 0 < beField r.2 0 1 && beField r.2 0 1 < 5).map fun (q, b) =>
      [fnum "seq" q, fnum "type" (beField b 0 1), fnum "saddle" (beField b 1 1), fnum "ptc" (beField b 2 8),
       fld "sid" (sidStr (BitVec.ofNat 64 (beField b 10 8))), fnum "value" (beField b 18 8)] ++
      (if beField b 0 1 = 3 then [fld "asserted" "host"] else [])
  | _ => []

/-- CM's FAULT (R390). -/
def cmAbsent : Outc := failWhy .fault "internal" [fld "cm" "absent"]

/-- REPAIR: both directory copies from the tail data set (R179). A CLOSED directory is marked OPEN again before the next
write (R385). -/
def cmRepairNow (s : State) : State :=
  let s := writeHeld s
  let d := repairDir s
  let s := putDir (putDir s d) d
  { s with cart := { s.cart with eodDsn := d.eod, marked := s.cart.marked && d.opened } }

/-- Performs a CM command that may use the antenna. -/
def cmPerform (s : State) (e : Entry) : State :=
  match e.verb with
  | .cmRead p => okWith s .adm e.tag (cmFields s p) (cmLines s p)
  | .cmRepair =>
    let s := cmRepairNow s
    okWith s .adm e.tag [fnum "eod" s.cart.eodDsn]
  | _ => s

/-- A CM command at its step: at once, or after the external field is gone (R179, R390). -/
def cmAsk (t : Nat) (s : State) : State :=
  if !s.cart.loaded then complete s .adm t { status := .notape }
  else if !s.cart.present then complete s .adm t cmAbsent
  else if s.cart.field then setWhy (cmDefer s) .adm t .field
  else match entryOf s .adm t with
    | some e => cmPerform s e
    | none => s

/-- CM op=READ. -/
def execCmRead (tag : Option Nat) (part : CmPart) (s : State) : Host.Outcome State Fault Refusal :=
  verbRow .adm tag (.cmRead part) cmAsk s

/-- CM op=REPAIR (R179): not in PARK. -/
def execCmRepair (tag : Option Nat) (s : State) : Host.Outcome State Fault Refusal :=
  verbRow .adm tag .cmRepair (fun t s => if s.pw.mode == .park then complete s .adm t (deniedMode .park) else cmAsk t s) s

/-- A CM command waits for the antenna. -/
def cmWaiting (s : State) : List Entry := s.adm.entries.filter fun e => e.open_ && e.begun && (match e.verb with
  | .cmRead _ | .cmRepair => true
  | _ => false)

/-- The reader senses an external field: one above `cm.sense_mv` counts (R390). -/
def senseField (mv : Nat) (s : State) : State := { s with cart := { s.cart with field := decide (pnat s .cmSenseMv < mv) } }

/-- CM_BACKOFF_EXPIRY (R390): the external field is sensed again; without it every waiting operation runs. -/
def cmBackoff (mv : Nat) (s : State) : State :=
  let s := senseField mv s
  if s.cart.field then cmDefer s
  else
    let s := { s with cart := { s.cart with cmWait := none } }
    let s := (cmWaiting s).foldl cmPerform s
    if s.pw.mode == .stream && !s.cart.marked then openMark s else s

/-- CM_BACKOFF_EXPIRY. -/
def execCmBackoffExpiry (fieldMv : Nat) (s : State) : Host.Outcome State Fault Refusal :=
  actIf s (s.cart.cmWait.isSome && s.cart.cmDue ≤ now s) (cmBackoff fieldMv)

/-- CM_TIMEOUT (R385, R390): the waiting operations fail. -/
def cmTimeout (s : State) : State :=
  let s := { s with cart := { s.cart with cmWait := none } }
  let s := (cmWaiting s).foldl (fun s e => complete s .adm e.tag cmAbsent) s
  if s.pw.mode == .stream && !s.cart.marked && s.cart.loaded then { s with cart := { s.cart with readonly := true } } else s

/-- CM_TIMEOUT. -/
def execCmTimeout (s : State) : Host.Outcome State Fault Refusal :=
  actIf s ((s.cart.cmWait.map fun t => decide (t.toNat + pnat s .cmTimeout ≤ now s)).getD false) cmTimeout

/-! ### LOCATE and SPACE (R158, R174, R189, R199, R291-R293) -/

/-- A saddle's girth that is still in a caddy of its stream (R158), with the data set it has been given. -/
def findOwn (s : State) (n : SadNo) (g : Nat) : Option (Girth × Option Nat) :=
  let x := s.sad[n]
  let mine (d : DataSet) : Option Girth := if d.sad == n && d.kind == .data then (ownGirths d).find? (·.seq = g) else none
  let tape := (s.med.written ++ s.med.again.toList).findSome? fun w => if w.dropped then none else (mine w.ds).map fun q => (q, some w.dsn)
  match tape with
  | some r => some r
  | none =>
    match (x.closed ++ x.openDs.toList).findSome? mine with
    | some q => some (q, none)
    | none => (x.acked.find? (·.seq = g)).map fun q => (q, none)

/-- A girth that read-ahead holds (R158, R349). -/
def findStore (s : State) (n : SadNo) (g : Nat) : Option RGirth := s.rd.store.find? fun r => r.sad == n && r.seq = g

/-- Whether a girth is in the buffer (R158), and its data set where known. -/
def inBuffer (s : State) (n : SadNo) (g : Nat) : Option (Option Nat) :=
  match findOwn s n g with
  | some (_, d) => some d
  | none => (findStore s n g).map fun r => some r.dsn

/-- The data set of a girth by arithmetic (R291, R292). -/
def arithDsn (s : State) (n : SadNo) (g : Nat) : Option Nat :=
  if pbool s .forceIndex || classOf s n != .rate || policyOf s n == .fit then none
  else match (s.med.epochs.filter fun e => e.next.getD n.val 0 ≤ g).getLast? with
    | none => none
    | some e =>
      if e.plait.flush || !e.full || !e.byArith.getD n.val false then none
      else match ((e.anchors.filter fun a => a.1 == n && a.2.2 ≤ g).getLast?) with
        | none => none
        | some (_, u, ga) => (locateArith e.dsn e.plait n (e.ratios.getD n.val 0) u ga g).map (·.1)

/-- LOC_STAT: the method (0 BUFFER, 1 ARITH, 2 INDEX) and the leader probes of the last LOCATE. -/
def setLoc (s : State) (method probes : Nat) : State := { s with rd := { s.rd with locMethod := method, locProbes := min 255 probes } }

/-- How LOCATE names a method. -/
def howName (k : Nat) : String := if k = 0 then "BUFFER" else if k = 1 then "ARITH" else "INDEX"

/-- Starts a tape motion for a command (R174, R377); from SERVICE on it waits its turn for the tape. -/
def seekAsk (ch : Chan) (t : Nat) (s : State) : State :=
  if !s.cart.loaded then complete s ch t { status := .notape }
  else if !(streamHeld s ch).isEmpty then complete s ch t (busyMode (streamHeld s ch))
  else tapeFree ch t (fun s => startMotion (modEntry s ch t fun e => { e with why := .tape }) (.seek ch (some t))) s

/-- LOCATE of a saddle's girth (R189). A girth in the buffer that no data set on tape holds has no data set to name (log 134). -/
def locateGirth (ch : Chan) (n : SadNo) (g t : Nat) (s : State) : State :=
  let eod := s.sad[n].next
  if eod ≤ g then complete s ch t (failWhy .badarg "range" [fld "key" "girth", fnum "eod" eod])
  else match inBuffer s n g with
    | some d =>
      let s := modSad s n fun x => { x with readPos := g, posLost := false }
      let (d, s) := match d with
        | some d => (d, s)
        | none => (Config.bufferedDs (draw s).1, (draw s).2)
      okWith (setLoc s 0 0) ch t ([fnum "girth" g] ++ posFields s d ++ [fld "how" "BUFFER"])
    | none => seekAsk ch t s

/-- LOCATE's effect. -/
def locateAsk (ch : Chan) (sad : Option SadNo) (target : LocTarget) (t : Nat) (s : State) : State :=
  let who : Option SadNo := match ch with
    | .sad n => some n
    | .adm => sad
  match target, who with
  | .girth g, some n => locateGirth ch n g t s
  | _, _ => seekAsk ch t s

/-- LOCATE. -/
def execLocate (ch : Chan) (tag : Option Nat) (sad : Option SadNo) (target : LocTarget) (s : State) : Host.Outcome State Fault Refusal :=
  verbRow ch tag (.locate sad target) (locateAsk ch sad target) s

/-- SPACE's effect (R199): the tape moves. -/
def execSpace (ch : Chan) (tag : Option Nat) (sad : Option SadNo) (by_ : SpaceBy) (s : State) : Host.Outcome State Fault Refusal :=
  verbRow ch tag (.space sad by_) (seekAsk ch) s

/-- The span of DSN in which the index cache leaves the data set of a girth: past the last cached leader whose NEXT_SEQ does not
exceed the girth, up to the first whose does, or to the append point (R293). -/
def indexSpan (s : State) (n : SadNo) (g : Nat) : Nat × Nat :=
  let next (r : IdxRec) : Nat := r.nextSeq.getD n.val 0
  let lo := maxL ((s.med.index.filter fun r => next r ≤ g).map (·.dsn + 1))
  let hi := ((s.med.index.filter fun r => g < next r).map (·.dsn)).foldl min (s.med.append - 1)
  (lo, max lo hi)

/-- INDEX (R293): the data set that holds a girth and the leader probes it took. `found` is the DSN at which the probes on the tape
ended; the cache alone settles a span of one data set, and the probes never leave the span (log 135). -/
def indexFind (s : State) (n : SadNo) (g found probes : Nat) : Nat × Nat :=
  let (lo, hi) := indexSpan s n g
  if lo = hi then (lo, 0) else (max lo (min hi found), probes)

/-- The data set of a girth on tape, how it was found (1 ARITH, 2 INDEX) and the leader probes (R189). -/
def girthDs (s : State) (n : SadNo) (g found probes : Nat) : Nat × Nat × Nat :=
  match arithDsn s n g with
  | some d => (d, 1, probes)
  | none => let (d, p) := indexFind s n g found probes; (d, 2, p)

/-- The MARK girths of a saddle's stream that are still in caddies (R158), in order. -/
def bufferMarks (s : State) (n : SadNo) : List Nat :=
  let x := s.sad[n]
  let tape := (s.med.written ++ s.med.again.toList).filter fun w => !w.dropped && w.ds.sad == n && w.ds.kind == .data
  let l := tape.map (·.ds) ++ x.closed ++ x.openDs.toList
  (((l.flatMap ownGirths) ++ x.acked).filter (·.kind == .mark)).map (·.seq)

/-- The first girth of a saddle that is still in a caddy of its stream. -/
def bufferFrom (s : State) (n : SadNo) : Nat :=
  let x := s.sad[n]
  let tape := (s.med.written ++ s.med.again.toList).filter fun w => !w.dropped && w.ds.sad == n && w.ds.kind == .data
  let l := tape.map (·.ds) ++ x.closed ++ x.openDs.toList
  (((l.flatMap ownGirths) ++ x.acked).map (·.seq)).foldl min x.next

/-- Where SPACE by marks stops and what it did not space (R199): just after the k-th MARK girth ahead, or just before the k-th
behind; else at the end or the start of the stream. `tape` MARKs were met on the part of the way that lies on tape, the last of
them girth `last`; those still in caddies are counted here (log 136). -/
def spaceMarks (s : State) (n : SadNo) (k : Int) (tape : Nat) (last : Option Nat) : Nat × Nat :=
  let want := k.natAbs
  let pos := s.sad[n].readPos
  let edge := bufferFrom s n
  let buf := (bufferMarks s n).mergeSort
  if 0 ≤ k then
    let onTape := match last with
      | some g => if pos ≤ g && g < edge then min tape want else 0
      | none => 0
    if onTape = want then ((last.getD pos) + 1, 0)
    else
      let ahead := buf.filter (pos ≤ ·)
      match ahead[want - onTape - 1]? with
      | some g => (g + 1, 0)
      | none => (s.sad[n].next, want - onTape - ahead.length)
  else
    let behind := (buf.filter (· < pos)).reverse
    match behind[want - 1]? with
    | some g => (g, 0)
    | none =>
      let rest := want - behind.length
      match last with
      | some g => if rest ≤ tape && g < pos && g < edge then (g, 0) else (0, rest - min tape rest)
      | none => (0, rest)

/-- Where SPACE by girths stops and what it did not space (R199). -/
def spaceGirths (s : State) (n : SadNo) (k : Int) : Nat × Nat :=
  let want := (s.sad[n].readPos : Int) + k
  if want < 0 then (0, want.natAbs)
  else if (s.sad[n].next : Int) < want then (s.sad[n].next, (want - s.sad[n].next).toNat)
  else (want.toNat, 0)

/-- The completion of a LOCATE at a data set: a saddle that gave it has its read position at a girth, and no lost position any more
(R162, R189). -/
def locateAt (ch : Chan) (who : Option SadNo) (g d how probes t : Nat) (s : State) : State :=
  let s := setLoc (restAt s d) how probes
  match who with
  | some n =>
    let s := modSad s n fun x => { x with readPos := g, posLost := false }
    okWith s ch t ([fnum "girth" g] ++ posFields s d ++ [fld "how" (howName how)])
  | none => okWith s ch t (posFields s d)

/-- The completion of a LOCATE whose target the tape has reached (R189, R377); by `to=`, a saddle's read position goes to the start
or the end of its stream (log 134). -/
def locateDone (ch : Chan) (sad : Option SadNo) (target : LocTarget) (t dsn probes : Nat) (s : State) : State :=
  let who : Option SadNo := match ch with
    | .sad n => some n
    | .adm => sad
  match target, who with
  | .girth g, some n =>
    let (d, how, probes) := girthDs s n g dsn probes
    locateAt ch (some n) g d how probes t s
  | .girth _, none => restAt s dsn
  | .ds d, _ => locateAt ch none 0 d 2 probes t s
  | .bot, _ => locateAt ch who 0 0 2 probes t s
  | .eod, _ => locateAt ch who ((who.map fun n => s.sad[n].next).getD 0) s.med.append 2 probes t s

/-- The data set before which a SPACE rests: that of the girth where it stops, the append point at the end of data. -/
def spaceDs (s : State) (n : SadNo) (g found : Nat) : Nat :=
  match inBuffer s n g with
  | some (some d) => d
  | some none => s.med.append
  | none => if s.sad[n].next ≤ g then s.med.append else (girthDs s n g found 0).1

/-- The completion of a SPACE (R199). -/
def spaceDone (ch : Chan) (sad : Option SadNo) (by_ : SpaceBy) (t dsn moved : Nat) (girth : Option Nat) (s : State) : State :=
  let who : Option SadNo := match ch with
    | .sad n => some n
    | .adm => sad
  match who with
  | none => restAt s dsn
  | some n =>
    let (g, short) := match by_ with
      | .girths k => spaceGirths s n k
      | .marks k => spaceMarks s n k moved girth
    let d := spaceDs s n g dsn
    let s := modSad (restAt s d) n fun x => { x with readPos := g }
    okWith s ch t ([fnum "girth" g] ++ posFields s d ++ (if short = 0 then [] else [fnum "short" short]))

/-- The servo band that a motion needs can be read, or wedges stand for it (R348). -/
def bandUsable (s : State) : Bool := !bothGone s || pnat s .wedgeMode = 1

/-- TAPE_POSITIONED (R145, R377): the tape rests before the data set found, whose DSN a leader has confirmed. -/
def tapePositioned (ch : Chan) (dsn probes moved : Nat) (girth : Option Nat) (s : State) : State :=
  match s.cart.motion with
  | some (.seek c (some t)) =>
    if c == ch then
      let s := endMotion s
      match entryOf s ch t with
      | none => restAt s dsn
      | some e =>
        if !e.open_ then restAt s dsn
        else match e.verb with
          | .locate sad target => locateDone ch sad target t dsn probes s
          | .space sad by_ => spaceDone ch sad by_ t dsn moved girth s
          | _ => restAt s dsn
    else s
  | _ => s

/-- TAPE_POSITIONED. -/
def execTapePositioned (ch : Chan) (dsn probes moved : Nat) (girth : Option Nat) (s : State) : Host.Outcome State Fault Refusal :=
  actIf s (bandUsable s) (tapePositioned ch dsn probes moved girth)

/-! ### Early warning and end of media (R387, R388) -/

/-- R_rem (R387). -/
def remNow (s : State) : Nat :=
  let left := zoneNm3 - bitsNm3 s.med.x
  (left - marginNm3) / bitsNm3 frameMax + 39339 * (191 - s.med.wrap)

/-- R_res (R387). -/
def resNow (s : State) : Nat :=
  4 + sumL ((allSads.filter (writes s)).map fun n =>
    let per := admGirths s n * 4096
    (window s n + per - 1) / per + 1)

/-- Saddle n is past early warning (R388). -/
def pastEw (s : State) (n : SadNo) : Bool :=
  let p := s.med.plait
  let num := if classOf s n == .rate then p.k[n] else (p.slots.filter (· == .free)).length
  let d : Int := (remNow s : Int) - (resNow s : Int)
  decide (d * (num : Int) ≤ (pnat s .ewDs : Int) * (max 1 p.slots.length : Nat))

/-- EARLY_WARNING and END_OF_MEDIA at a boundary in STREAM (R387, R388). -/
def mediaEnd (s : State) : State :=
  if s.pw.mode != .stream || !s.cart.loaded then s
  else
    let s := { s with cart := { s.cart with rem := remNow s, res := resNow s } }
    let s := allSads.foldl (fun s n =>
      if writes s n && s.med.plait.marker.isSome && pastEw s n then
        let s := modSad s n fun x => { x with ew := true }
        if s.sad[n].ewTold then s else latch (modSad s n fun x => { x with ewTold := true }) n 1
      else s) s
    let s := if !s.med.eom && s.cart.rem ≤ s.cart.res && !s.cart.readonly then
        let s := { s with med := { s.med with eom := true } }
        let s := allSads.foldl (fun s n =>
          let l := s.sad[n].q.entries.filter fun e => e.open_ && e.phase == .executing && (runKind e.verb = 1 || (match e.verb with
            | .time .. => e.begun
            | _ => false))
          let s := l.foldl (fun s e => endWithout s (.sad n) e.tag { status := .eom }) s
          if l.isEmpty then s else dropTransfers s n fun e => e.ended.isSome && e.phase != .committed) s
        beginFlush s true
      else s
    if s.med.flush && s.med.flushEom && s.med.flushStep = 1 && s.cart.rem ≤ 3 && !s.med.eomTold then
      (flushLeft s).foldl (fun s n => deferErr s n .eom) { s with med := { s.med with eomTold := true } }
    else s

end Sys2Proof.Machine
end

