-- ==== Sys2Proof/Machine/ReadVerb.lean ====
section
/-! DEFINITION. READ (R158-R160, R193, R194): which girths it delivers, their bytes (R251, R252, R257, R346), and where they
go. -/

namespace Sys2Proof.Machine

open Sys2Proof

/-- Damaged bytes made 0x00; of a sealed body every 16-byte block that holds one (R346). -/
def zeroDamaged (isSealed : Bool) (damaged : List Nat) (l : List Byte) : List Byte :=
  l.zipIdx.map fun (b, i) =>
    if isSealed then (if damaged.any fun d => d / 16 = i / 16 then 0 else b) else if damaged.contains i then 0 else b

/-- A sealed girth for a reader without a loaded slot (R257): a hole under the fill rule; BEST gives hard decisions that nothing can
decrypt. -/
def noKeyBytes (zero : Bool) (r : RGirth) (h : Header) : List Byte :=
  let n := min 4096 (impliedBytes h)
  if zero || h.ratio ≠ 0 then List.replicate n 0 else (List.range n).map (Config.sealedByte r.seq)

/-- A girth with a valid header as READ delivers it (R251, R252, R257, R346). -/
def pieceOf (key : Option (List Byte)) (zero : Bool) (r : RGirth) (h : Header) : Piece :=
  let p : Piece := { seq := r.seq, hole := r.hole, k := maxL h.loss, recEnd := h.recEnd, cad := r.cad,
                     work := true, opens := h.isSealed && key.isSome }
  let blank := List.replicate (min 4096 (impliedBytes h)) (0 : Byte)
  let lost := h.isSealed && key.isNone
  if headerMalformed h r.rows then { p with bytes := blank, bad := true, hole := r.hole || lost, noKey := lost }
  else if lost then { p with hole := true, noKey := true, bytes := noKeyBytes zero r h }
  else if h.kind != .data then p
  else
    let body := match h.isSealed, key with
      | true, some k => xtsDec k (tweakOf h.sad h.seq) r.raw
      | _, _ => r.raw
    if r.hole && h.ratio = 0 then
      { p with bytes := ((if zero then zeroDamaged h.isSealed r.damaged body else body).take (impliedBytes h)) }
    else if r.hole && zero then { p with bytes := blank }
    else match decodeGirth h r.rows body with
      | some b => { p with bytes := b }
      | none => { p with bytes := blank, bad := true }

/-- A girth as READ delivers it: without a valid header it is MALFORMED and gives F bytes of 0x00 (R252, R346). -/
def deliver (key : Option (List Byte)) (zero : Bool) (full : Nat) (r : RGirth) : Piece :=
  match parseHeader r.hdr with
  | some h => pieceOf key zero r h
  | none => { seq := r.seq, bytes := List.replicate full 0, hole := r.hole, bad := true, cad := r.cad, work := true }

/-- A girth of a saddle's own stream as it stands in a caddy: coded as it will be on tape, in clear while it waits for the
coder. -/
def asStored (pol : Policy) (g : Girth) : RGirth :=
  let c := if g.coded then g else codeGirth pol g
  { sad := c.sad, seq := c.seq, dsn := 0, rows := c.rows, hdr := headerBytes c, raw := c.body }

/-- The caddy that holds a girth of a saddle's own stream (R158). -/
def ownCaddy (s : State) (n : SadNo) (g : Nat) : Option Nat :=
  let x := s.sad[n]
  let inDs (d : DataSet) : Option Nat :=
    if d.sad == n && d.girths.any (fun q => q.seq = g && q.kind != .fill) then
      d.cads[(sumL ((d.girths.takeWhile fun q => !(q.seq = g && q.kind != .fill)).map (·.rows))) / 104]?
    else none
  match (s.med.written.map (·.ds) ++ s.med.again.toList.map (·.ds) ++ x.closed ++ x.openDs.toList).findSome? inDs with
  | some c => some c
  | none => (x.acked.find? (·.seq = g)).map (·.caddy)

/-- What a READ finds at one girth number. -/
inductive Found where
  | piece (p : Piece)
  | tape                            -- the tape must bring it
  | locked                          -- a range-lock entry covers it (R160)
  | eod

/-- What a monitor's READ finds (R101-R103, R160). -/
def findMonitor (s : State) (m f : SadNo) (zero : Bool) (g : Nat) : Found :=
  match s.sad[m].monData.find? (·.seq = g) with
  | some q => .piece (deliver none zero (blockOf s f) (asStored (policyOf s f) q))
  | none =>
    if s.sad[m].monData.any (g < ·.seq) then .piece { seq := g, hole := true, skipped := true }
    else if s.med.locks.any fun (n, _, a, b) => n == f && a ≤ g && g ≤ b then .locked
    else .eod

/-- What a READ of the saddle's own stream finds: in its caddies, in READAHEAD, on tape, or nothing (R158, R193). A data set that an
interruption cut short ends the data after its last girth in order (R156). On a
cartridge without end-of-data facts the end lies where the continuity test fails (R385). -/
def findGirth (s : State) (n : SadNo) (zero : Bool) (g : Nat) : Found :=
  let key := sealKey s n
  match findOwn s n g with
  | some (q, _) => .piece { deliver key zero (blockOf s n) (asStored (policyOf s n) q) with
      cad := ownCaddy s n g, work := q.coded, opens := q.isSealed && key.isSome }
  | none =>
    match findStore s n g with
    | some r => .piece { deliver key zero (blockOf s n) r with stored := true }
    | none =>
      if s.cart.readonly && s.cart.source = 2 then (if s.rd.eodSeen then .eod else .tape)
      else if s.sad[n].next ≤ g || (s.rd.ends[n].map fun e => decide (e ≤ g)).getD false then .eod
      else .tape

/-- What a READ finds at a girth. -/
def findFor (s : State) (n : SadNo) (zero : Bool) (g : Nat) : Found :=
  match followOf s n with
  | some f => findMonitor s n f zero g
  | none => findGirth s n zero g

/-- How a READ's collection ended. -/
inductive Ended where
  | full | tape | locked | eod
deriving DecidableEq, Repr

/-- The girths of a READ in order, as far as they can be had, never more than `len` bytes (R193). -/
def collect (s : State) (n : SadNo) (zero : Bool) (len : Nat) : Nat → Nat → Nat → List Piece → List Piece × Ended
  | 0, _, _, acc => (acc.reverse, .full)
  | fuel + 1, g, got, acc =>
    if len ≤ got then (acc.reverse, .full)
    else match findFor s n zero g with
      | .tape => (acc.reverse, .tape)
      | .locked => (acc.reverse, .locked)
      | .eod => (acc.reverse, .eod)
      | .piece p =>
        if len < got + p.bytes.length then (acc.reverse, .full)
        else collect s n zero len fuel (g + 1) (got + p.bytes.length) (p :: acc)

/-- Girths that can be had at most, beyond which a collection never runs. -/
def readFuel (s : State) (n : SadNo) : Nat :=
  let x := s.sad[n]
  x.acked.length + x.monData.length + s.rd.store.length + x.lag + 1 +
    sumL ((s.med.written.map (·.ds) ++ s.med.again.toList.map (·.ds) ++ x.closed ++ x.openDs.toList).map (·.girths.length))

/-- `fill=` of a READ: ZERO or BEST (R193). -/
def fillZero (s : State) (a : ReadArgs) : Bool := a.fill.getD (pnat s .readFill = 1)

/-- The girths of a READ as they stand: those it has taken (R158), and what follows them. -/
def gather (s : State) (n : SadNo) (e : Entry) (a : ReadArgs) : List Piece × Ended :=
  collect s n (fillZero s a) a.len (readFuel s n) (e.girth0 + e.pieces.length) (sumL (e.pieces.map (·.bytes.length))) e.pieces.reverse

/-- The hole map's runs (R194). -/
def holeRuns : List Nat → List (Nat × Nat)
  | [] => []
  | g :: t =>
    match holeRuns t with
    | (h, k) :: r => if g + 1 = h then (g, k + 1) :: r else (g, 1) :: (h, k) :: r
    | [] => [(g, 1)]

/-- `d=` of a console READ: words of 16 hex digits, the last padded (file 06). -/
def wordsOf (b : List Byte) : List String := (parts 8 b).map fun w => hexStr 16 (beVal (padTo 8 0 w))

/-- The outcome of a READ (R193, R194, R248, R249, R252). -/
def readOutcome (s : State) (n : SadNo) (g : Nat) (ps : List Piece) (short : Option Nat) (eod : Bool) : Outc :=
  let got := ps.filter (!·.skipped)
  let bytes := got.flatMap (·.bytes)
  let holes := (ps.filter (·.hole)).map (·.seq)
  let cut := (got.getLast?.map fun p => !p.recEnd).getD false
  let lag := s.sad[n].lag
  { status := if holes.isEmpty then .ok else .holes
    fields := [fnum "girth" g, fnum "n" got.length, fnum "bytes" bytes.length, fnum "k" (maxL (got.map (·.k))),
        fnum "lossy" (got.filter fun p => 0 < p.k).length, fnum "bad" (got.filter (·.bad)).length] ++
      (if cut then [fld "cut" "1"] else []) ++ (if eod then [fld "eod" "1"] else []) ++
      (if lag = 0 then [] else [fnum "lag" lag]) ++ (short.map fun k => fnum "short" k).toList ++
      (if bindOf s n == .console && !bytes.isEmpty then [fld "d" (listStr (wordsOf bytes))] else [])
    more := if holes.isEmpty then [] else [[fld "hmap" (listStr ((holeRuns holes).map fun (g, k) => toString g ++ "+" ++ toString k))]] }

/-- Host writes that put bytes into a scatter list (R444). -/
def scatter (f : FnNo) : List (Nat × Nat) → List Byte → List (FnNo × W64 × List Byte)
  | [], _ => []
  | (a, len) :: t, b => if b.isEmpty then [] else (f, BitVec.ofNat 64 a, b.take len) :: scatter f t (b.drop len)

/-- Bytes of an outbound word of a port. -/
def wordBytes (s : State) (p : PortNo) : Nat := 2 + pnat s .wordBits p.val

/-- Moves a READ's bytes into the outbound FIFO of its port; the READ completes with its last byte there (R145, R460). -/
def fillFifo (s : State) (n : SadNo) (e : Entry) (p : PortNo) : State :=
  let room := 16384 - s.port[p].fifo.length
  let now_ := e.data.take room
  let s := modPort s p fun x => { x with fifo := x.fifo ++ now_ }
  let rest := e.data.drop room
  match rest, e.res with
  | [], some o => complete (modEntry s (.sad n) e.tag fun e => { e with data := [], res := none }) (.sad n) e.tag o
  | _, _ => modEntry s (.sad n) e.tag fun e => { e with data := rest, why := .outbound }

/-- Delivers a READ (R145, R193): into the host buffer, the reply, or the port's FIFO. -/
def readFinish (s : State) (n : SadNo) (e : Entry) (ps : List Piece) (short : Option Nat) (eod : Bool) : State :=
  let o := readOutcome s n e.girth0 ps short eod
  let bytes := ps.flatMap (·.bytes)
  let holes := (ps.filter fun p => p.hole && !p.skipped).length
  let bads := (ps.filter (·.bad)).length
  let skips := ps.filter (·.noKey)
  let next := e.girth0 + ps.length
  let hit := ps.any (·.stored) && !e.fromTape
  let s := { s with rd := { s.rd with raHit := if hit then inc s.rd.raHit else s.rd.raHit } }
  let s := modSad s n fun x => { x with
    readPos := next, lag := 0
    monData := x.monData.filter (next ≤ ·.seq), monRefs := x.monRefs.filter (next ≤ ·.1)
    cnt := { x.cnt with malf := incBy x.cnt.malf bads, hole := incBy x.cnt.hole holes, sealSkip := incBy x.cnt.sealSkip skips.length } }
  let s := match skips with
    | p :: _ => logE s .warn n.val 0x0304 [("girth", 5, p.seq)]
    | [] => s
  let s := modEntry s (.sad n) e.tag fun e => { e with got := bytes.length }
  match bindOf s n with
  | .sp p =>
    let w := wordBytes s p
    let data := bytes ++ List.replicate ((w - bytes.length % w) % w) 0
    let s := modEntry s (.sad n) e.tag fun e => { e with data := data, res := some o }
    match entryOf s (.sad n) e.tag with
    | some e => fillFifo s n e p
    | none => s
  | .vf =>
    let s := complete s (.sad n) e.tag o
    { s with out := { s.out with dma := s.out.dma ++ scatter (vfOf n) e.segs bytes, hostBuf := bytes } }
  | _ => { complete s (.sad n) e.tag o with out := { s.out with hostBuf := bytes } }

/-- The READ of a saddle whose turn it is to transfer: the first that executes, once no earlier one still delivers (R142, R143). -/
def readEntry (s : State) (n : SadNo) : Option (Entry × ReadArgs) :=
  match s.sad[n].q.entries.find? fun e => e.ended.isNone && runKind e.verb = 2 with
  | some e => match e.verb with
    | .read a => if e.phase == .executing && e.begun && e.res.isNone then some (e, a) else none
    | _ => none
  | none => none

/-- The tape may run for a READ (R348, R360): nothing waits to be written, and the position and its servo are known. -/
def mayRead (s : State) : Bool :=
  s.pw.mode == .stream && s.cart.loaded && s.cart.motion.isNone && !s.srv.lost && bandUsable s && s.rein.bh == .none &&
    s.med.lane == .idle && s.med.written.isEmpty && s.med.again.isNone && !s.med.flush && allSads.all fun n => !servable s n

/-- Whether a READ waits for the tape at a girth that nothing holds. -/
def tapeWanted (s : State) (n : SadNo) : Bool :=
  match readEntry s n with
  | some (e, a) => decide ((gather s n e a).2 = .tape)
  | none => false

/-- The data set of a girth where arithmetic or the index cache tells it (R291-R293). -/
def dsOfGirth (s : State) (n : SadNo) (g : Nat) : Option Nat :=
  match arithDsn s n g with
  | some d => some d
  | none => (s.med.index.find? fun r => r.kind == .data && r.sad == n && r.firstSeq ≤ g && g < r.firstSeq + r.girths).map (·.dsn)

/-- The data set that the first READ waiting for the tape goes on with. -/
def wantedDs (s : State) : Option Nat := allSads.findSome? fun n =>
  match readEntry s n with
  | some (e, a) => match gather s n e a with
    | (ps, .tape) => dsOfGirth s n (e.girth0 + ps.length)
    | _ => none
  | none => none

/-- The wrap that reading starts on (R323): that of the wanted data set, else the one under the head. -/
def wantedWrap (s : State) : Nat := ((wantedDs s).map (wrapOfDsn s)).getD s.rd.wrap

/-- Starts the tape for a READ that waits for it (R371). -/
def readTape (s : State) : State :=
  if !s.rd.reading && mayRead s && allSads.any (tapeWanted s) then
    let w := wantedWrap s
    let t := { s with rd := { s.rd with reading := true, stopped := false }, med := { s.med with positioned := false } }
    if w = s.rd.wrap then t else startRead t w
  else s

/-- Reading turns to the next wrap where the tape leaves the data zone in the wrap's direction (R260, R261). -/
def readTurn (s : State) : State :=
  let w := s.rd.wrap
  let out := if wrapRev w then decide (s.srv.pos ≤ 0) else decide ((zoneNm3 : Int) ≤ s.srv.pos)
  if s.rd.reading && !s.med.positioned && s.cart.loaded && w < 191 && out then startRead s (w + 1) else s

/-- The caddies that a READ needs references to beside those it holds (R158). -/
def refsWanted (e : Entry) (ps : List Piece) : List Nat := ((ps.filterMap (·.cad)).filter fun c => !e.refs.contains c).dedup

/-- How many of a READ's girths it can take now: those whose caddies it references or can reference, in order (R220, R225). -/
def takeable (s : State) (e : Entry) (ps : List Piece) : Nat :=
  let ok := (refsWanted e ps).take s.pool.ops
  (ps.takeWhile fun p => (p.cad.map fun c => e.refs.contains c || (ok.contains c && refReady s c)).getD true).length

/-- What a READ's collection waits for. -/
def whyOf (w : Ended) : WaitWhy :=
  match w with
  | .tape => .tape
  | .locked => .lock
  | _ => .none

/-- The READ in turn goes on (R143, R158, R160): its first girth is settled, the girths that the buffer holds are taken with a
reference to each caddy, and what it waits for is noted, a range lock with the tick from which it waits. -/
def readOn (s : State) (n : SadNo) : State :=
  match readEntry s n with
  | none => s
  | some (e, a) =>
    let e := if e.placed then e else { e with placed := true, girth0 := a.girth.getD s.sad[n].readPos }
    let (ps, why) := gather s n e a
    if why = .tape && !s.cart.loaded then complete s (.sad n) e.tag { status := .notape }
    else
      let own := (followOf s n).isNone
      let ts := if own then ps.take (takeable s e ps) else e.pieces
      let new := refsWanted e ts
      let lock := if why = .locked then some (e.lockAt.getD s.clk.ptc) else none
      let w := if own && ts.length < ps.length then .pool else whyOf why
      let s := new.foldl (fun s c => takeRef s c (.reader n)) s
      modEntry s (.sad n) e.tag fun x => { x with
        placed := true, girth0 := e.girth0, pieces := ts, refs := e.refs ++ new, fromTape := e.fromTape || why = .tape, lockAt := lock
        why := if x.why == .engine && w == .none then .engine else w }

/-- The READs in turn of every saddle go on at a boundary. -/
def readsOn (s : State) : State := allSads.foldl readOn s

/-- READ's effect as it starts (R158, R160, R349). -/
def readBegin (n : SadNo) (_a : ReadArgs) (_t : Nat) (s : State) : State :=
  readTape (readOn (modSad s n fun x => { x with lastRead := some s.clk.ptc }) n)

/-- READ. -/
def execRead (n : SadNo) (tag : Option Nat) (a : ReadArgs) (s : State) : Host.Outcome State Fault Refusal :=
  verbRow (.sad n) tag (.read a) (readBegin n a) s

/-- Every girth of a READ has passed the coder and the sealing engine (R19, R20). -/
def allDecoded (e : Entry) : Bool := (e.pieces.drop e.dec).all fun p => !(p.work || p.opens)

/-- Bytes that a READ in turn has decoded and not yet sent. -/
def unsentOf (s : State) (n : SadNo) : Nat :=
  match readEntry s n with
  | some (e, _) => if bindOf s n == .vf && allDecoded e then sumL (e.pieces.map (·.bytes.length)) - e.sent else 0
  | none => 0

/-- Bytes that host DMA may still carry to hosts in the tick for a saddle (R19): what RATE saddles wait for is kept for them (R21). -/
def dmaOutRoom (s : State) (n : SadNo) : Nat :=
  let left := budget s 1048576 - s.used.dmaOut
  if classOf s n == .rate then left else left - sumL ((allSads.filter fun m => classOf s m == .rate).map (unsentOf s))

/-- Whether a READ's bytes have all gone, and the state after host DMA has carried what the tick's budget lets it (R19, R20). -/
def sendRead (s : State) (n : SadNo) (e : Entry) (bytes : Nat) : State × Bool :=
  if bindOf s n != .vf then (s, true)
  else
    let k := min (dmaOutRoom s n) (bytes - e.sent)
    let s := { s with used := { s.used with dmaOut := s.used.dmaOut + k } }
    let whole := decide (bytes ≤ e.sent + k)
    (modEntry s (.sad n) e.tag fun x => { x with sent := x.sent + k, why := if whole then .none else .engine }, whole)

/-- The READ in turn delivers, once the engines have done its work and host DMA has carried its bytes (R19, R20, R145). -/
def deliverRead (s : State) (n : SadNo) (e : Entry) (ps : List Piece) (short : Option Nat) (eod : Bool) : State :=
  if !allDecoded { e with pieces := ps } then modEntry s (.sad n) e.tag fun x => { x with why := .engine }
  else
    match sendRead s n e (sumL (ps.map (·.bytes.length))) with
    | (s, true) => readFinish s n e ps short eod
    | (s, false) => s

/-- READ_DELIVERED (R145, R193): every byte asked for, or up to the end of data, has been delivered. -/
def readDelivered (n : SadNo) (s : State) : State :=
  let s := readOn s n
  match readEntry s n with
  | none => s
  | some (e, a) =>
    match gather s n e a with
    | (ps, .full) => if ps.length = e.pieces.length || (followOf s n).isSome then deliverRead s n e ps none false else s
    | (ps, .eod) => if ps.length = e.pieces.length || (followOf s n).isSome then deliverRead s n e ps none true else s
    | (_, .tape) => readTape s
    | (_, .locked) => s

/-- READ_DELIVERED. -/
def execReadDelivered (n : SadNo) (s : State) : Host.Outcome State Fault Refusal := act s (readDelivered n)

/-- LOCK_WAIT_EXPIRY (R160): under BOUNDED a monitor READ ends with the girths before the first locked one; `short=` counts the
girths that the rest of `len=` would have taken (log 24). -/
def lockExpiry (n : SadNo) (s : State) : State :=
  match readEntry s n with
  | none => s
  | some (e, a) =>
    match gather s n e a, e.lockAt with
    | (ps, .locked), some t =>
      if pnat s .lockMode = 1 && t.toNat + pnat s .lockMaxTicks ≤ now s then
        let full := max 1 (blockOf s ((followOf s n).getD n))
        let left := a.len - sumL (ps.map (·.bytes.length))
        deliverRead s n e ps (some ((left + full - 1) / full)) false
      else s
    | _, _ => s

/-- LOCK_WAIT_EXPIRY. -/
def execLockWaitExpiry (n : SadNo) (s : State) : Host.Outcome State Fault Refusal := act s (lockExpiry n)

/-- A port's FIFO has room again: the READ that fills it goes on (R145, R460). -/
def refillFifo (s : State) (n : SadNo) (p : PortNo) : State :=
  match s.sad[n].q.entries.find? fun e => e.ended.isNone && e.res.isSome with
  | some e => fillFifo s n e p
  | none => s

/-- References that nothing uses any more are given back (R98, R158, R224). -/
def sweepRefs (s : State) : State :=
  allSads.foldl (fun s n =>
    let x := s.sad[n]
    let keep := monCaddies x ++ (x.q.entries.filter (·.ended.isNone)).flatMap (·.refs)
    let held := (s.pool.caddies.filter fun c => c.holders.contains (.reader n)).map (·.idx)
    let asked := (s.pool.releases.filter fun r => r.holder == .reader n).map fun r => r.addr / 65536
    (held.filter fun i => !keep.contains i && !asked.contains i).foldl (fun s i => askRelease s i (.reader n)) s) s

end Sys2Proof.Machine
end

