-- ==== Sys2Proof/Machine/Ring.lean ====
section
/-! DEFINITION. Interrupts and replies on their transports (R79-R81, R128, R139, R433-R435, R441, R442, R446, R447). -/

namespace Sys2Proof.Machine

open Sys2Proof

/-! ### MSI-X (R446, R447) -/

/-- Signals a vector: posted, held in the PBA while masked, or seen only in the cause registers while MSI-X is off. -/
def postVec (s : State) (f : FnNo) (v : Nat) : State :=
  let x := s.pcie.fn[f]
  if !x.msixOn then s
  else if x.masked.toList.getD v true then modFn s f fun x => { x with pba := x.pba.setIfInBounds v true }
  else { s with out := { s.out with msix := s.out.msix ++ [(f, v)] } }

/-- Posts a saddle's cause on its vector (R79, R446); a saddle bound to nothing has none. -/
def postCause (s : State) (n : SadNo) (k : Nat) : State :=
  match bindOf s n with
  | .sp _ | .console => postVec s 0 (8 + n.val)
  | .vf => postVec s (vfOf n) k
  | .none => s

/-- Whether a coalesced cause is due at the boundary that closes a tick (R80). The tick of the first event counts among the ticks
that have ended since (DESIGN CHOICE, log 122). -/
def coalDue (q : Irq) (closed : Nat) (c : Nat × W64) : Bool :=
  decide (q.count ≤ c.1) || decide (c.2.toNat + q.ticks ≤ closed + 1)

/-- Takes the thresholds that wait for the boundary into force (R80). -/
def applyCoal (q : Irq) : Irq :=
  match q.pendTicks with
  | some (t, c) => { q with ticks := t, count := c, pendTicks := none }
  | none => q

/-- Posts a saddle's due causes at a boundary (R18, R80, R81). -/
def postSaddle (closed : Nat) (s : State) (n : SadNo) : State :=
  let q := s.sad[n].irq
  if q.masked then s
  else
    let ready := q.cnt.filter fun (_, c) => coalDue q closed c
    let s := modSad s n fun x => { x with irq := { x.irq with due := [], cnt := x.irq.cnt.filter fun (_, c) => !coalDue q closed c } }
    (q.due ++ ready.map (·.1)).foldl (fun s k => postCause s n k) s

/-- Posts the messages that are due at a boundary (R18, R442). -/
def postIrqs (closed : Nat) (s : State) : State :=
  let s := allSads.foldl (postSaddle closed) s
  let q := s.pcie.irq
  let ready := q.cnt.filter fun (_, c) => coalDue q closed c
  let s := { s with pcie := { s.pcie with irq := { q with due := [], cnt := q.cnt.filter fun (_, c) => !coalDue q closed c } } }
  (q.due ++ ready.map (·.1)).foldl (fun s k => postVec s 0 k) s

/-! ### Writing reply lines (R128, R139, R433, R441, R462, R467) -/

/-- The function of a ring transport. -/
def fnOf : Transport → Option FnNo
  | .pf0 => some 0
  | .vf n => some (vfOf n)
  | _ => none

/-- Whether a line finds room on its transport. -/
def lineRoom (s : State) (tr : Transport) (len : Nat) : Bool :=
  match tr with
  | .console => true
  | .sp p => s.port[p].ses.out.length + len + 2 ≤ 8192
  | _ => match fnOf tr with
    | some f => let x := s.pcie.fn[f]; x.en && (x.rplProd + 65536 - x.cSeen) % 65536 < 64
    | none => false

/-- A reply slot (R433). -/
def slotBytes (seq : Nat) (last : Bool) (text : String) : List Byte :=
  padTo 128 0 (leBytes 2 text.length ++ leBytes 2 seq ++ leBytes 2 (if last then 1 else 0) ++ leBytes 2 0 ++ ascii text)

/-- Tags of a channel are free again: FLOW latches where it had none left (R79, R446). -/
def tagsFreed (s : State) (ch : Chan) : State :=
  match ch with
  | .adm => if s.pcie.flowAdm then latchPf { s with pcie := { s.pcie with flowAdm := false } } 2 else s
  | .sad n => if s.sad[n].flowQueue then latch (modSad s n fun x => { x with flowQueue := false }) n 2 else s

/-- A freed tag (R139): its entry goes. -/
def freeTag (s : State) (ch : Chan) (tag : Nat) : State := tagsFreed (modQ s ch fun l => l.filter (·.tag != tag)) ch

/-- The reply to a HELLO with `session=` has been sent: the first line taken in after it is in the new mode (R118; log 97). -/
def sesModeTurn (s : State) (l : OutLine) : State :=
  match l.ses with
  | some m => modSes s l.tr fun x => { x with mode := m, next := if x.next = some m then none else x.next }
  | none => s

/-- Writes one reply line (R433, R462, R467; R128 in typed mode). A control channel without a saddle has no queue and no interrupt
(R119). -/
def writeLine (s : State) (l : OutLine) : State :=
  let s := match fnOf l.tr with
    | some f =>
      let x := s.pcie.fn[f]
      let a := x.rplBase + BitVec.ofNat 64 (128 * (x.rplProd % 64))
      let s := { s with out := { s.out with dma := s.out.dma ++ [(f, a, slotBytes x.rplProd l.last l.text)] } }
      modFn s f fun x => { x with rplProd := (x.rplProd + 1) % 65536, idxDirty := true }
    | none =>
      let typed := sesModeOf s l.tr == .typed
      let part := ((sessionOf s l.tr).map (·.line)).getD []
      emit s l.tr ((if typed && l.first then crlf else []) ++ ascii l.text ++ crlf ++
        (if typed && l.last then ascii (promptOf s l.tr) ++ part else []))
  let s := if l.last && l.rate then
      { s with fil := { s.fil with baudLeft := some (if l.tr == .console then s.fil.con.out.length else 0) } } else s
  let s := if l.last then sesModeTurn s l else s
  if !l.last || (chanOf s l.tr).isNone then s
  else
    let s := match l.tag with
      | .q t => if l.frees && (entryOf s l.ch t).any (·.posted) then freeTag s l.ch t else s
      | _ => s
    match l.tag, l.ch with
    | .unsol, _ => s
    | _, .adm => latchPf s 0
    | _, .sad n => latch s n 0

/-- Writes the lines that find room, in order on each transport; a line that waits holds back those behind it (R128, R441). -/
def writeLines : List OutLine → List OutLine → State → State
  | [], kept, s => { s with fil := { s.fil with lines := kept.reverse } }
  | l :: t, kept, s =>
    if kept.any (fun k => k.tr == l.tr) || !lineRoom s l.tr l.text.length then writeLines t (l :: kept) s
    else writeLines t kept (writeLine s l)

/-- The lines of a reply. -/
def replyLines (r : Reply) : List OutLine :=
  let ls := renderReply r
  let line (x : String) (i : Nat) : OutLine :=
    { tr := r.tr, ch := r.ch, tag := r.tag, first := i = 0, last := i + 1 = ls.length, text := x, rate := r.rate, ses := r.ses
      frees := r.frees }
  ls.zipIdx.map fun (x, i) => line x i

/-- The index area (R434). -/
def indexArea (s : State) (f : FnNo) : List Byte :=
  let x := s.pcie.fn[f]
  leBytes 2 x.cmdCons ++ leBytes 2 0 ++ leBytes 2 x.rplProd ++ leBytes 2 0 ++ leBytes 8 (now s) ++ List.replicate 48 0

/-- Every function. -/
def allFns : List FnNo := List.finRange 9

/-- Writes the index areas that have changed (R442). -/
def writeIndices (s : State) : State :=
  allFns.foldl (fun s f =>
    let x := s.pcie.fn[f]
    if x.idxDirty && x.en then
      modFn { s with out := { s.out with dma := s.out.dma ++ [(f, x.idxBase, indexArea s f)] } } f fun x => { x with idxDirty := false }
    else s) s

/-- Every waiting tick of a ring's lines counts in RPL_WAIT (R441). -/
def countRplWait (s : State) : State :=
  allFns.foldl (fun s f =>
    if s.fil.lines.any fun l => fnOf l.tr == some f then modFn s f fun x => { x with rplWait := inc x.rplWait } else s) s

/-- Whether an answered line set the console's rate (R138). -/
def setsRate (v : Verb) (st : Status) : Bool :=
  match v with
  | .set l => st == .ok && l.any fun (p, _) => p.id == .consoleBaud
  | _ => false

/-- The session mode that an answered HELLO brings (R118). -/
def setsMode (v : Verb) (st : Status) : Option SesMode :=
  match v with
  | .hello m => if st == .ok then m else none
  | _ => none

/-- The reply of a completed command (R126): `wait=` first. -/
def completionReply (ch : Chan) (e : Entry) (o : Outc) : Reply :=
  { tr := e.tr, ch := ch, tag := .q e.tag, status := o.status, fields := fnum "wait" e.wait :: o.fields, more := o.more
    rate := setsRate e.verb o.status, ses := setsMode e.verb o.status }

/-- A saddle's command that is answered BUSY.MODE: FLOW tells when what refused it has cleared (R79). -/
def noteBusy (s : State) (ch : Chan) (v : Verb) (st : Option Status) : State :=
  match ch, st with
  | .sad n, some .busyMode => modSad s n fun x => { x with flowMode := some v }
  | _, _ => s

/-- Posts the completions at the head of a channel's queue, in intake order (R142); after a tick that overran, those that the tick
before it decided (R23, R24). -/
def postChannel (ovr : Bool) (s : State) (ch : Chan) : State :=
  let l := (queueOf s ch).entries.takeWhile fun e => e.ended.isSome && (!ovr || e.late)
  let rs := (l.filter (!·.posted)).filterMap fun e => e.ended.map (completionReply ch e)
  let s := (l.filter (!·.posted)).foldl (fun s e => noteBusy s ch e.verb (e.ended.map (·.status))) s
  rs.foldl reply (modQ s ch fun es =>
    es.map fun e => if l.any (·.tag == e.tag) then { e with posted := true } else e)

/-- Posts every channel's completions. -/
def postCompletions (ovr : Bool) (s : State) : State := allChans.foldl (postChannel ovr) s

/-- The reply step of a boundary (R16 step 4, R442). -/
def replyStep (closed : Nat) (s : State) : State :=
  let new := s.fil.outq.flatMap replyLines
  let s := { s with fil := { s.fil with outq := [] } }
  let s := writeLines (s.fil.lines ++ new) [] s
  postIrqs closed (writeIndices (countRplWait s))

/-! ### Ring state -/

/-- What a saddle reset does to its ring block (R96, "Kept over"). -/
def ringRestart (s : State) (f : FnNo) : State :=
  modFn s f fun x => { x with
    cmdCons := 0, rplProd := 0, pSeen := 0, cSeen := 0, fetched := 0, retry := false, badIdx := false, enBusy := false, seqErr := false
    idxDirty := x.idxDirty || x.cmdCons ≠ 0 || x.rplProd ≠ 0 }

/-- A channel has no tag in use and no reply line waiting (R435). -/
def channelQuiet (s : State) (f : FnNo) : Bool :=
  let ch : Chan := if h : 1 ≤ f.val then .sad ⟨f.val - 1, by omega⟩ else .adm
  (queueOf s ch).entries.isEmpty && !(s.fil.lines.any fun l => fnOf l.tr == some f) && !(s.fil.outq.any fun r => fnOf r.tr == some f)

/-- A change of EN takes effect at the boundary (R435). -/
def applyEn (s : State) (f : FnNo) : State :=
  let x := s.pcie.fn[f]
  match x.enPend with
  | none => s
  | some v =>
    if v == x.en then modFn s f fun x => { x with enPend := none }
    else if v then
      modFn s f fun x => { x with
        en := true, enPend := none, cmdCons := 0, rplProd := 0, pSeen := 0, cSeen := 0, fetched := 0, retry := false, idxDirty := true }
    else if channelQuiet s f then modFn s f fun x => { x with en := false, enPend := none }
    else modFn s f fun x => { x with enPend := none, enBusy := true }

end Sys2Proof.Machine
end

