-- ==== Sys2Proof/Machine/Control.lean ====
section
/-! DEFINITION. ABORT, QRESET, SRESET, CLEAR and DISCARD, and the reset of a saddle (R95-R100, R154, R161-R165, R182, R200). -/

namespace Sys2Proof.Machine

open Sys2Proof

/-! ### Ending a command without effect (R161, R162) -/

/-- Whether an executing command's effect can still be withheld: it has not committed (R145, R161). A saddle reset that has been
applied is past withholding. -/
def withholdable (s : State) (ch : Chan) (e : Entry) : Bool :=
  match e.verb with
  | .sreset _ => e.phase == .queued || !e.begun || ((actsOn ch e.verb).map fun n => s.sad[n].resetReq).getD false
  | _ => true

/-- The fields with which a caught command completes (R162). -/
def caughtFields (e : Entry) : List Fld :=
  match e.verb with
  | .locate .. | .space .. => [fld "pos" "lost"]
  | _ => []

/-- A transition is withdrawn (R162): the mode in force stays, and writing goes on where it was to stop for it. -/
def stayMode (s : State) (t : Trans) : State :=
  let s := if t.source == .stream then { s with med := { s.med with stopAfter := false, fillOwed := false } } else s
  { s with pw := { s.pw with trans := none, target := s.pw.mode } }

/-- Catches a command that has not committed (R161): it completes CAUGHT in its place. A DEFERRED reply that it held goes to the next
line that R151 names. -/
def catchEntry (s : State) (ch : Chan) (e : Entry) : State :=
  let s := match e.ended, ch with
    | some o, .sad n => if o.status == .deferred then modSad s n fun x => { x with owesDeferred := true } else s
    | _, _ => s
  modEntry s ch e.tag fun x => { x with ended := some { status := .caught, fields := caughtFields e }, data := [] }

/-- What a command leaves behind when it ends without effect: its range lock and its data go (R162), the tape stops where it
is and the position of the saddle it acts on is lost, a MODE is withdrawn and leaves the mode that is in force, and what a LOG has staged goes. -/
def cutCommand (s : State) (ch : Chan) (e : Entry) : State :=
  let tag := e.tag
  let mine (c : Chan) (t : Option Nat) : Bool := c == ch && t == some tag
  let s := { s with pw := { s.pw with reqs := s.pw.reqs.filter fun r => !mine r.ch r.tag } }
  let s := match s.pw.trans with
    | some t => if mine t.ch t.tag then stayMode s t else s
    | none => s
  match ch, e.verb with
  | .sad n, .write _ | .sad n, .mark _ | .sad n, .time .. =>
    trimCaddies (modEntry (unlock s n tag) ch tag fun e => { e with data := [], segs := [] }) n (blockOf s n)
  | _, .locate .. | _, .space .. =>
    let s := match actsOn ch e.verb with
      | some n => modSad s n fun x => { x with posLost := true }
      | none => s
    if s.cart.motion == some (.seek ch (some tag)) then endMotion s else s
  | _, .load => if e.begun && s.cart.motion == some .load then endMotion s else s
  | _, .unload => if e.begun && s.cart.motion == some .unload then endMotion s else s
  | _, .logText _ => { s with evt := { s.evt with staging := s.evt.staging.filter fun r => r.own != some (ch, tag) } }
  | _, .sreset _ => match actsOn ch e.verb with
    | some n => if e.begun then modSad s n fun x => { x with resetReq := false } else s
    | none => s
  | _, .cal .. | _, .testDram _ | _, .testFlash _ | _, .testLoop _ | _, .testPattern _ =>
    if e.phase == .executing && e.begun && s.diag.running then { s with diag := { s.diag with cut := true, tag := none } } else s
  | _, _ => s

/-- Bytes that a command has transferred (`moved=`). -/
def movedBytes (e : Entry) : Nat :=
  match e.verb with
  | .write a => a.len
  | _ => e.got

/-- A channel that takes no ABORT: that of a saddle bound to a sample port (R164). -/
def abortBarred (s : State) (from_ : Chan) : Bool :=
  match from_ with
  | .sad n => (match bindOf s n with
    | .sp _ => true
    | _ => false)
  | .adm => false

/-- ABORT at its boundary (R161, R164, R165): its reply, and the target caught. -/
def doAbort (s : State) (tr : Transport) (from_ : Chan) (target : Nat) (sad : Option SadNo) : State :=
  let ch : Chan := match from_, sad with
    | .adm, some n => .sad n
    | c, _ => c
  let answer (s : State) (st : Status) (fs : List Fld) : State :=
    reply s { tr := tr, ch := from_, tag := .imm, status := st, fields := fld "tag" (hexStr 2 target) :: fs }
  let resetting := match ch with
    | .sad n => s.sad[n].reset.isSome
    | .adm => false
  if abortBarred s from_ then
    reply s { tr := tr, ch := from_, tag := .imm, status := .denied, fields := [fld "why" "transport"] }
  else match entryOf s ch target with
    | none => answer s .unknown []
    | some e =>
      if resetting then answer s .unknown []
      else if e.phase == .committed || e.posted || !withholdable s ch e then answer s .late [fnum "moved" (movedBytes e)]
      else
        let t := if e.ended.isSome then s else cutCommand s ch e
        answer (catchEntry t ch e) .caught []

/-- ABORT's row: it is untagged and executes at the boundary (R122, R124). -/
def execAbort (ch : Chan) (target : Nat) (sad : Option SadNo) (s : State) : Host.Outcome State Fault Refusal :=
  actIf s (ready s) fun s => immRow s ch (.abort target sad)

/-! ### QRESET (R163-R165) -/

/-- Drops every command of a channel that a test picks, without reply. -/
def dropEntries (s : State) (ch : Chan) (p : Entry → Bool) : State :=
  let gone := (queueOf s ch).entries.filter p
  let s := gone.foldl (fun s e => if e.ended.isSome then s else cutCommand s ch e) s
  let s := modQ s ch fun l => l.filter fun e => !gone.any (·.tag == e.tag)
  let s := if gone.isEmpty then s else tagsFreed s ch
  match ch with
  | .sad n => trimCaddies s n (blockOf s n)
  | .adm => s

/-- Frees every tag of a channel (R163): replies that still wait for room stay, and free nothing more. -/
def freeTags (s : State) (ch : Chan) : State :=
  let s := if (queueOf s ch).entries.isEmpty then s else tagsFreed (modQ s ch fun _ => []) ch
  { s with fil := { s.fil with
      lines := s.fil.lines.map fun l => if l.ch == ch then { l with frees := false } else l
      outq := s.fil.outq.map fun r => if r.ch == ch then { r with frees := false } else r } }

/-- The outbound FIFO and the lead of a saddle's sample port go (R463, R464). -/
def dropPortData (s : State) (n : SadNo) : State :=
  match bindOf s n with
  | .sp p => modPort s p fun x => { x with lead := [], fifo := [] }
  | _ => s

/-- Every acknowledged girth of a saddle that is not on tape goes, and HOLD ends (R163): the next girth number. -/
def dropStream (s : State) (n : SadNo) : State × Nat :=
  let low := lowestUnsync s.sad[n]
  let some_ := !s.sad[n].unsync.isEmpty
  let (s, _) := discardFrom s n low
  let s := modSad s n fun x => { x with
    st := if x.st == .hold then .opened else x.st, cause := .none, g := 0, owesDeferred := false, defPend := []
    next := if some_ then low else x.next, drain := 8 }
  (s, s.sad[n].next)

/-- Whether a saddle's reset holds a QRESET back (R165). -/
def qresetWaits (s : State) (from_ : Chan) (sad : Option SadNo) : Bool :=
  match from_, sad with
  | .adm, none => false
  | .adm, some n => s.sad[n].reset.isSome
  | .sad n, _ => s.sad[n].reset.isSome

/-- QRESET at its boundary (R163). -/
def doQreset (s : State) (tr : Transport) (from_ : Chan) (sad : Option SadNo) : State :=
  let ch : Chan := match from_, sad with
    | .adm, some n => .sad n
    | c, _ => c
  let live := (queueOf s ch).entries.filter fun e => e.phase != .committed && !e.posted
  let s := dropEntries s ch fun e => e.phase != .committed && !e.posted
  let s := freeTags (postChannel false s ch) ch
  let (s, fs) := match ch with
    | .adm => (s, [])
    | .sad n =>
      let (s, g) := dropStream (dropPortData s n) n
      (s, [fnum "girth" g])
  reply s { tr := tr, ch := from_, tag := .imm, status := .ok, fields := fnum "dropped" live.length :: fs }

/-- QRESET's row: it is untagged and executes at the boundary (R122, R124). -/
def execQreset (ch : Chan) (sad : Option SadNo) (s : State) : Host.Outcome State Fault Refusal :=
  actIf s (ready s) fun s => immRow s ch (.qreset sad)

/-! ### CLEAR and DISCARD (R154, R182) -/

/-- The saddle that a saddle-acting verb acts on. -/
def targetOf (ch : Chan) (sad : Option SadNo) : Option SadNo :=
  match ch with
  | .sad n => some n
  | .adm => sad

/-- CLEAR's effect (R154). -/
def clearVerb (ch : Chan) (sad : Option SadNo) (t : Nat) (s : State) : State :=
  match targetOf ch sad with
  | none => s
  | some n =>
    let (s, k, g) := clearHold s n
    okWith s ch t [fnum "dropped" k, fnum "girth" g]

/-- CLEAR. -/
def execClear (ch : Chan) (tag : Option Nat) (sad : Option SadNo) (s : State) : Host.Outcome State Fault Refusal :=
  verbRow ch tag (.clear sad) (clearVerb ch sad) s

/-- The first girth that DISCARD can drop: the lowest one acknowledged whose data set has sent no row; the next girth when
there is none (R182). -/
def firstDroppable (s : State) (n : SadNo) : Nat :=
  (((s.sad[n].unsync.map (·.1)).filter fun g => !inFlight s n g).min?).getD s.sad[n].next

/-- DISCARD's effect (R182). -/
def discardVerb (ch : Chan) (sad : Option SadNo) (fromG : Option Nat) (t : Nat) (s : State) : State :=
  match targetOf ch sad with
  | none => s
  | some n =>
    let busy := s.sad[n].q.entries.any fun e => e.phase == .executing && e.ended.isNone && runKind e.verb = 1
    let low := firstDroppable s n
    let g := fromG.getD low
    if busy then complete s ch t { status := .busyMode, fields := [fld "held" (heldStr [n])] }
    else if g < low then
      complete s ch t (failWhy .badarg "range" [fld "key" "from", fnum "first" low])
    else
      let gone := s.sad[n].unsync.filter fun u => g ≤ u.1
      let s := dropFrom s n g
      let s := modSad s n fun x => { x with unsync := x.unsync.filter (fun u => u.1 < g), next := g }
      okWith s ch t [fnum "dropped" gone.length, fnum "girth" g]

/-- DISCARD. -/
def execDiscard (ch : Chan) (tag : Option Nat) (sad : Option SadNo) (fromG : Option Nat) (s : State) :
    Host.Outcome State Fault Refusal :=
  verbRow ch tag (.discard sad fromG) (discardVerb ch sad fromG) s

/-! ### Saddle resets (R95-R100) -/

/-- Asks for a reset of a saddle; it is applied at the boundary (R95, R99). -/
def askReset (s : State) (n : SadNo) : State := modSad s n fun x => { x with resetReq := true }

/-- Applies a reset that was asked for, at the boundary (R81, R96); one that runs already absorbs it (R99). -/
def applyReset (n : SadNo) (s : State) : State :=
  modSad s n fun x =>
    if !x.resetReq then x
    else if x.reset.isSome then { x with resetReq := false }
    else { x with
      resetReq := false, reset := some { start := s.clk.ptc }, dropped := none
      irq := { x.irq with masked := true, cause := [], cnt := [], due := [] } }

/-- Whether an entry is the SRESET with which a saddle resets itself (R200). -/
def ownSreset (e : Entry) : Bool :=
  match e.verb with
  | .sreset _ => e.begun && e.ended.isNone
  | _ => false

/-- T+4 of a reset (R96, R464): commands end without reply, what is not acknowledged goes. -/
def resetQueue (s : State) (n : SadNo) : State :=
  dropPortData (dropEntries s (.sad n) fun e => !e.posted && !ownSreset e) n

/-- T+4 to T+12 of a reset (R96): the acknowledged blocks are coded, and the open data set closes with FILL girths once it holds them,
at T+12 at the latest. -/
def resetStream (k : Nat) (s : State) (n : SadNo) : State :=
  let s := closeBlk s n
  if s.sad[n].acked.isEmpty || k = 12 then closeOpen s n
  else modSad s n fun x => { x with openDs := x.openDs.map fun d => { d with force := true } }

/-- A transport starts over with its reset saddle (R96, R117, R464); the console only while it delivers to that saddle. -/
def resetTransport (s : State) (n : SadNo) : State :=
  let own (tr : Transport) (ch : Chan) : Bool := tr == homeOf s (.sad n) && (tr != .console || ch == .sad n)
  let s := { s with fil := { s.fil with
    lines := s.fil.lines.filter (fun l => !own l.tr l.ch), outq := s.fil.outq.filter fun r => !own r.tr r.ch } }
  match bindOf s n with
  | .sp p => modPort s p fun x => { x with ses := {}, last := 0, prevRun := 0, runLen := 0, underrun := false, overrun := false }
  | .console =>
    if chanOf s .console == some (.sad n) then
      modSes s .console fun x => { x with mode := .typed, next := none, line := [], long := false, badChar := false }
    else s
  | _ => ringRestart s (vfOf n)

/-- T+13 to T+16 of a reset (R96, R100): tags are freed, HOLD is cleared and the transport starts over. -/
def resetTags (s : State) (n : SadNo) : State :=
  let s := resetTransport (dropEntries s (.sad n) fun e => !ownSreset e) n
  if s.sad[n].st == .hold then
    let g := s.sad[n].g
    let s := logE s .warn n.val 0x0204 [("girth", 5, g)]
    modSad s n fun x => { x with st := .opened, cause := .none, g := 0, owesDeferred := false, dropped := some g }
  else s

/-- Completes the SRESETs of a saddle (R200). -/
def endSresets (s : State) (n : SadNo) (ticks : Nat) : State :=
  allChans.foldl (fun s ch =>
    ((queueOf s ch).entries.filter fun e => ownSreset e && actsOn ch e.verb == some n).foldl
      (fun s e => okWith s ch e.tag [fnum "ticks" ticks]) s) s

/-- SADDLE_RESET_DONE (R81, R96, R200): the causes are unmasked, RESET_DONE latches and is posted, and SRESET completes. -/
def saddleResetDone (n : SadNo) (s : State) : State :=
  match s.sad[n].reset with
  | none => s
  | some r =>
    let s := modSad s n fun x => { x with reset := none, irq := { x.irq with masked := false } }
    let s := { s with pcie := { s.pcie with flr := s.pcie.flr.filter (· ≠ n.val) } }
    let s := latchPf (latch s n 3) 3
    let s := logE s .info n.val 0x0205 [("ticks", 1, r.ticks)]
    endSresets s n r.ticks

/-- A boundary of a running reset (R96): a tick that ended in overrun holds its firmware steps back. -/
def resetTick (ovr : Bool) (n : SadNo) (s : State) : State :=
  match s.sad[n].reset with
  | none => s
  | some r =>
    let r : ResetRun := { r with ticks := r.ticks + 1, overruns := r.overruns + if ovr then 1 else 0 }
    let s := modSad s n fun x => { x with reset := some r }
    if ovr then s
    else
      let k := r.ticks - r.overruns
      let s := if k = 4 then resetQueue s n else s
      let s := if 4 ≤ k && k ≤ 12 then resetStream k s n else s
      if k = 13 then resetTags s n else if k = 17 then saddleResetDone n s else s

/-- The resets of a boundary: those that run advance, and those asked for are applied (R16 step 3). -/
def resetsTick (ovr : Bool) (s : State) : State :=
  allSads.foldl (fun s n => if s.sad[n].resetReq then applyReset n s else s)
    (allSads.foldl (fun s n => resetTick ovr n s) s)

/-- SADDLE_RESET (R96): the reset that was asked for is applied. -/
def execSaddleReset (n : SadNo) (s : State) : Host.Outcome State Fault Refusal := actIf s s.sad[n].resetReq (applyReset n)

/-- A reset's last step, that of T+16, has run (R96): its end belongs to the tick that the boundary T+17 closes, and that boundary brings
it by itself when nothing else has (DESIGN CHOICE, log 131). -/
def resetOver (s : State) (n : SadNo) : Bool :=
  (s.sad[n].reset.map fun r => decide (16 ≤ r.ticks - r.overruns)).getD false

/-- SADDLE_RESET_DONE. -/
def execSaddleResetDone (n : SadNo) (s : State) : Host.Outcome State Fault Refusal := actIf s (resetOver s n) (saddleResetDone n)

/-- SRESET's effect (R95): the reset is asked for; it completes when RESET_DONE is posted (R200). -/
def sresetVerb (ch : Chan) (sad : Option SadNo) (_t : Nat) (s : State) : State :=
  match targetOf ch sad with
  | none => s
  | some n => askReset s n

/-- SRESET. -/
def execSreset (ch : Chan) (tag : Option Nat) (sad : Option SadNo) (s : State) : Host.Outcome State Fault Refusal :=
  verbRow ch tag (.sreset sad) (sresetVerb ch sad) s

/-- ACKNOWLEDGE (R146). -/
def execAcknowledge (n : SadNo) (s : State) : Host.Outcome State Fault Refusal := act s (acknowledgeOne n)

end Sys2Proof.Machine
end

