-- ==== Sys2Proof/Machine/Pcie.lean ====
section
/-! DEFINITION. PCI Express (file 15): doorbells, command slots, register writes, MSI-X, resets, DMA and link errors.
What a register reads as is in Flags.lean. -/

namespace Sys2Proof.Machine

open Sys2Proof

/-- The saddle of a virtual function. -/
def sadOfFn (f : FnNo) : Option SadNo := if h : 1 ≤ f.val then some ⟨f.val - 1, by omega⟩ else none

/-- The channel of a function's rings (R117). -/
def chanOfFn (f : FnNo) : Chan := ((sadOfFn f).map Chan.sad).getD .adm

/-- The transport of a function's rings. -/
def transOfFn (f : FnNo) : Transport := ((sadOfFn f).map Transport.vf).getD .pf0

/-! ### Doorbells (R436-R438) -/

/-- The indices kept for DEV_READY, with one more. -/
def keepBell (cmd : Bool) (v : Nat) (e : Option (Option Nat × Option Nat)) : Option Nat × Option Nat :=
  let (p, c) := e.getD (none, none)
  if cmd then (some v, c) else (p, some v)

/-- A doorbell write (R436, R438): before DEV_READY the index is kept. -/
def bell (f : FnNo) (cmd : Bool) (value : W32) (s : State) : State :=
  let v := value.toNat % 65536
  if !s.pw.devReady then modFn s f fun x => { x with early := some (keepBell cmd v x.early) }
  else if bellIgnored s f then modFn s f fun x => { x with dbIgn := inc x.dbIgn }
  else ringBell s f cmd v

/-- CMD_DB. -/
def execCmdDb (f : FnNo) (value : W32) (s : State) : Host.Outcome State Fault Refusal := act s (bell f true value)

/-- RPL_DB. -/
def execRplDb (f : FnNo) (value : W32) (s : State) : Host.Outcome State Fault Refusal := act s (bell f false value)

/-! ### Command slots (R432, R440) -/

/-- DMA_STAT's code of an error. -/
def DmaErr.code : DmaErr → Nat
  | .ur => 1
  | .ca => 2
  | .timeout => 3
  | .poison => 4

/-- `dma=` (R445). -/
def DmaErr.name : DmaErr → String
  | .ur => "ur"
  | .ca => "ca"
  | .timeout => "timeout"
  | .poison => "poison"

/-- A failed request in DMA_STAT and DMA_ERR. -/
def countDma (s : State) (f : FnNo) (kind : Nat) (e : DmaErr) (addr : Nat) : State :=
  modFn s f fun x => { x with dmaErr := DmaErr.code e, dmaKind := kind, dmaN := sat 16 (x.dmaN + 1), dmaAddr := BitVec.ofNat 64 addr }

/-- Puts a line behind those that wait in a transport. -/
def pushLine (s : State) (tr : Transport) (r : RawLine) : State :=
  let l := (look tr s.fil.waiting).getD []
  { s with fil := { s.fil with waiting := put tr (l ++ [r]) s.fil.waiting } }

/-- A slot may be fetched (R440): P_seen covers it, and it lies within 8 of the intake; a second fetch is one of the next tick. -/
def fetchable (s : State) (f : FnNo) : Bool :=
  let x := s.pcie.fn[f]
  ready s && x.en && !bellIgnored s f && (!x.retry || decide (x.retryAt ≤ now s)) && (x.pSeen + 65536 - x.fetched) % 65536 ≠ 0 && (x.pSeen + 65536 - x.fetched) % 65536 ≤ 64 &&
    (x.fetched + 65536 - x.cmdCons) % 65536 < 8

/-- CMD_SLOT_FETCH (R432, R440): a slot whose SEQ or fetch fails is fetched once more, and answered when it fails again. -/
def fetchSlot (f : FnNo) (slot : Res DmaErr (List Byte)) (s : State) : State :=
  if !fetchable s f then s
  else
    let x := s.pcie.fn[f]
    let k := x.fetched
    let next (s : State) : State := modFn s f fun x => { x with fetched := (x.fetched + 1) % 65536, retry := false }
    let again (s : State) : State := modFn s f fun x => { x with retry := true, retryAt := now s + 1, seqErr := true }
    let reject (s : State) (o : Outc) : State :=
      next (pushLine s (transOfFn f) { bytes := [], slot := some (k % 64), rej := some o })
    match slot with
    | .ok b =>
      if leVal (slice b 2 2) ≠ k then
        if x.retry then reject s (failWhy .badline "syntax" [fnum "slot" (k % 64)]) else again s
      else
        let len := leVal (slice b 0 2)
        next (pushLine s (transOfFn f) { bytes := slice b 8 (min len 248), long := 200 < len, slot := some (k % 64) })
    | .err e =>
      let s := countDma s f 0 e (x.cmdBase.toNat + 256 * (k % 64))
      if x.retry then reject s (failWhy .fault "internal" [fld "dma" (DmaErr.name e), fnum "slot" (k % 64)]) else again s

/-- CMD_SLOT_FETCH. -/
def execCmdSlotFetch (f : FnNo) (slot : Res DmaErr (List Byte)) (s : State) : Host.Outcome State Fault Refusal :=
  act s (fetchSlot f slot)

/-! ### Register writes (R429, R430, R435) -/

/-- A write of RING_CTL: EN changes at the next boundary (R435). -/
def writeCtl (f : FnNo) (v : Nat) (s : State) : State := modFn s f fun x => { x with enPend := some (v % 2 = 1) }

/-- RING_CTL_WRITE. -/
def execRingCtlWrite (f : FnNo) (value : W32) (s : State) : Host.Outcome State Fault Refusal := act s (writeCtl f value.toNat)

/-- The bits of a word. -/
def setBits (n v : Nat) : List Nat := (List.range n).filter fun i => v.testBit i

/-- Which saddle blocks a function's window shows (R429). -/
def ownsBlock (f : FnNo) (n : SadNo) : Bool := f.val = 0 || f == vfOf n

/-- A write of IRQ_CAUSE: a 1 clears its cause (R79). -/
def writeCause (f : FnNo) (n : SadNo) (v : Nat) (s : State) : State :=
  if ownsBlock f n then
    modSad s n fun x => { x with irq := { x.irq with cause := x.irq.cause.filter fun k => !(setBits 4 v).contains k } }
  else s

/-- IRQ_CAUSE_WRITE. -/
def execIrqCauseWrite (f : FnNo) (n : SadNo) (value : W32) (s : State) : Host.Outcome State Fault Refusal :=
  act s (writeCause f n value.toNat)

/-- The thresholds in a coalescing register: TICKS - 1 in bits 5:0, COUNT - 1 in bits 12:8. -/
def coalOf (v : Nat) : Nat × Nat := (v % 64 + 1, v / 256 % 32 + 1)

/-- A write of IRQ_COAL: the thresholds hold from the next boundary (R80). -/
def writeCoal (f : FnNo) (n : SadNo) (v : Nat) (s : State) : State :=
  if ownsBlock f n then modSad s n fun x => { x with irq := { x.irq with pendTicks := some (coalOf v) } } else s

/-- IRQ_COAL_WRITE. -/
def execIrqCoalWrite (f : FnNo) (n : SadNo) (value : W32) (s : State) : Host.Outcome State Fault Refusal :=
  act s (writeCoal f n value.toNat)

/-- A write of PF_IRQ_CAUSE (R446). -/
def writePfCause (v : Nat) (s : State) : State :=
  { s with pcie := { s.pcie with irq := { s.pcie.irq with cause := s.pcie.irq.cause.filter fun k => !(setBits 5 v).contains k } } }

/-- PF_IRQ_CAUSE_WRITE. -/
def execPfIrqCauseWrite (value : W32) (s : State) : Host.Outcome State Fault Refusal := act s (writePfCause value.toNat)

/-- A write of PF_IRQ_COAL (R446). -/
def writePfCoal (v : Nat) (s : State) : State :=
  { s with pcie := { s.pcie with irq := { s.pcie.irq with pendTicks := some (coalOf v) } } }

/-- PF_IRQ_COAL_WRITE. -/
def execPfIrqCoalWrite (value : W32) (s : State) : Host.Outcome State Fault Refusal := act s (writePfCoal value.toNat)

/-- The vectors of a function's MSI-X table (R429). -/
def vectors (f : FnNo) : Nat := if f.val = 0 then 16 else 4

/-- Unmasks a vector: a message pending in the PBA is posted (R447). -/
def unmaskVec (f : FnNo) (v : Nat) (s : State) : State :=
  if vectors f ≤ v then s
  else
    let pend := s.pcie.fn[f].pba.toList.getD v false
    let s := modFn s f fun x => { x with
      msixOn := true, masked := x.masked.setIfInBounds v false, pba := x.pba.setIfInBounds v false }
    if pend then { s with out := { s.out with msix := s.out.msix ++ [(f, v)] } } else s

/-- MSIX_UNMASK: the host enables MSI-X as it unmasks its first vector (log 47). -/
def execMsixUnmask (f : FnNo) (vec : Fin 16) (s : State) : Host.Outcome State Fault Refusal := act s (unmaskVec f vec.val)

/-- A write to the MSI-X table: bit 0 of the fourth word of an entry masks its vector. -/
def writeMsix (f : FnNo) (off : Nat) (v : Nat) (s : State) : State :=
  let i := (off - 0xE000) / 16
  if vectors f ≤ i then s
  else
    let s := modFn s f fun x => { x with msixTab := put off (BitVec.ofNat 32 v) x.msixTab }
    if off % 16 ≠ 12 then s
    else if v % 2 = 1 then modFn s f fun x => { x with masked := x.masked.setIfInBounds i true }
    else unmaskVec f i s

/-- Half of a base address; the low bits that the register lacks stay 0. -/
def baseHalf (old : W64) (hi : Bool) (v align : Nat) : W64 :=
  if hi then BitVec.ofNat 64 (v * 2 ^ 32 + old.toNat % 2 ^ 32)
  else BitVec.ofNat 64 (old.toNat / 2 ^ 32 * 2 ^ 32 + (v - v % align))

/-- A write to a ring base (R435): ignored while EN is 1. -/
def writeBase (f : FnNo) (off v : Nat) (s : State) : State :=
  modFn s f fun x =>
    if x.en then x
    else
      let hi : Bool := off % 8 = 4
      match (off - 0x800) / 8 with
      | 0 => { x with cmdBase := baseHalf x.cmdBase hi v 4096 }
      | 1 => { x with rplBase := baseHalf x.rplBase hi v 4096 }
      | _ => { x with idxBase := baseHalf x.idxBase hi v 64 }

/-- A 4 B write to a register of BAR0 (R429). -/
def writeReg (f : FnNo) (off v : Nat) (s : State) : State :=
  if 0x800 ≤ off && off < 0x818 then writeBase f off v s
  else if off = 0x818 then writeCtl f v s
  else if off = 0x844 then modFn s f fun x => { x with scratch := BitVec.ofNat 32 v }
  else if 0xE000 ≤ off && off < 0xE100 then writeMsix f off v s
  else
    match sadOfFn f with
    | some n =>
      if off = 0x208 then writeCause f n v s
      else if off = 0x20C then writeCoal f n v s
      else s
    | none =>
      if 0x400 ≤ off && off < 0x600 then
        let n : SadNo := ⟨(off - 0x400) / 64 % 8, Nat.mod_lt _ (by decide)⟩
        if off % 64 = 8 then writeCause f n v s
        else if off % 64 = 12 then writeCoal f n v s
        else s
      else if off = 0x160 then (if v % 16 < 12 then { s with pool := { s.pool with audSel := v % 16 } } else s)
      else if off = 0x1B0 then { s with pcie := { s.pcie with wchSel := v % 64 } }
      else if off = 0x1D4 then { s with pcie := { s.pcie with rchSel := v % 64 } }
      else if off = 0x9C0 then { s with pcie := { s.pcie with spSel := v % 4 } }
      else if off = 0x934 then
        { s with diag := { s.diag with calSel := (if v % 8 < 6 then v % 8 else s.diag.calSel % 8) + v / 8 % 8 * 8 } }
      else if off = 0x898 then writePfCause v s
      else if off = 0x89C then writePfCoal v s
      else s

/-- REGISTER_WRITE (R430): 4 B and aligned, or 8 B at a base pair; any other write is dropped and logged. -/
def registerWrite (f : FnNo) (off len : Nat) (value : W64) (s : State) : State :=
  if len = 4 && off % 4 = 0 then writeReg f off (value.toNat % 2 ^ 32) s
  else if len = 8 && (off = 0x800 || off = 0x808 || off = 0x810) then
    writeReg f (off + 4) (value.toNat / 2 ^ 32) (writeReg f off (value.toNat % 2 ^ 32) s)
  else logE s .warn srcChip 0x0901 [("fn", 1, f.val), ("off", 2, off % 65536)]

/-- REGISTER_WRITE. -/
def execRegisterWrite (f : FnNo) (off len : Nat) (value : W64) (s : State) : Host.Outcome State Fault Refusal :=
  act s (registerWrite f off len value)

/-- A read that is longer than 8 B or crosses an 8 B boundary (R430). -/
def badRead (off len : Nat) : Bool := 8 < len || off / 8 ≠ (off + len - 1) / 8

/-- BAR_BAD_READ (R430): Completer Abort. -/
def execBarBadRead (_f : FnNo) (off len : Nat) (s : State) : Host.Outcome State Fault Refusal :=
  actIf s (badRead off len) fun s => { s with out := { s.out with abort := true } }

/-! ### Resets and the link (R95, R448) -/

/-- A function's ring block, MSI-X table and index state take their reset values; the lines that wait on its rings go. -/
def fnReset (s : State) (f : FnNo) : State :=
  let tr := transOfFn f
  let s := modFn s f fun _ => {}
  { s with fil := { s.fil with
    waiting := s.fil.waiting.filter (·.1 ≠ tr), imm := s.fil.imm.filter (·.tr ≠ tr)
    lines := s.fil.lines.filter (·.tr ≠ tr), outq := s.fil.outq.filter (·.tr ≠ tr) } }

/-- The interrupt registers of a saddle at an FLR: IRQ_CAUSE reads 0, IRQ_COAL follows the parameters. -/
def irqReset (s : State) (n : SadNo) : State :=
  modSad s n fun x => { x with irq := { ticks := pnat s .sadIrqTicks n.val, count := pnat s .sadIrqCount n.val, masked := x.irq.masked } }

/-- A VF goes through a reset: its ring block resets and a saddle bound to it is reset (R95, R448). -/
def vfReset (s : State) (n : SadNo) : State :=
  let s := fnReset s (vfOf n)
  match bindOf s n with
  | .sp _ | .console => s
  | _ => askReset (irqReset s n) n

/-- VF_FLR (R448). -/
def vfFlr (n : SadNo) (s : State) : State :=
  let s := vfReset s n
  { s with pcie := { s.pcie with
    vfFlrs := sat 16 (s.pcie.vfFlrs + 1)
    flr := if s.sad[n].resetReq && !s.pcie.flr.contains n.val then s.pcie.flr ++ [n.val] else s.pcie.flr } }

/-- VF_FLR. -/
def execVfFlr (n : SadNo) (s : State) : Host.Outcome State Fault Refusal := act s (vfFlr n)

/-- The admin channel's reset (R95, R117): its commands end without reply, and a console seated at ADMIN goes back to typed
mode. -/
def admReset (s : State) : State :=
  let s := dropEntries { s with pcie := { s.pcie with admReset := true, flowAdm := false }, med := { s.med with staged := [] } } .adm fun _ => true
  if chanOf s .console == some .adm then
    modSes s .console fun x => { x with mode := .typed, next := none, line := [], long := false, badChar := false }
  else s

/-- PF_RESET (R448): every event but an FLR takes the link down. -/
def pfReset (k : PfResetKind) (s : State) : State :=
  let down := k != .flr
  let s := admReset s
  let s := allSads.foldl (fun s n => if bindOf s n == .vf then askReset (irqReset s n) n else s) s
  let s := (List.finRange 9).foldl fnReset s
  { s with
    pool := { s.pool with audSel := 0 }
    diag := { s.diag with calSel := 0 }
    pcie := { s.pcie with
      up := if down then false else s.pcie.up, speed := if down then 0 else s.pcie.speed, l1 := if down then false else s.pcie.l1
      numVfs := 0, vfEn := false, pfResets := sat 16 (s.pcie.pfResets + 1)
      linkDown := if k == .dlDown then inc s.pcie.linkDown else s.pcie.linkDown
      irq := { ticks := pnat s .admIrqTicks, count := pnat s .admIrqCount }
      wchSel := 0, rchSel := 0, spSel := 0 } }

/-- PF_RESET. -/
def execPfReset (k : PfResetKind) (s : State) : Host.Outcome State Fault Refusal := act s (pfReset k)

/-- VF_ENABLE_CHANGE (R448): every VF that it removes takes its saddle through a reset. -/
def vfEnableChange (enable : Bool) (numVfs : Nat) (s : State) : State :=
  let was := if s.pcie.vfEn then s.pcie.numVfs else 0
  let k := min 8 numVfs
  let now_ := if enable then k else 0
  let s := allSads.foldl (fun s n => if n.val < was && now_ ≤ n.val then vfReset s n else s) s
  { s with pcie := { s.pcie with vfEn := enable, numVfs := k } }

/-- VF_ENABLE_CHANGE. -/
def execVfEnableChange (enable : Bool) (numVfs : Nat) (s : State) : Host.Outcome State Fault Refusal :=
  act s (vfEnableChange enable numVfs)

/-- PCIE_LINK_UP (R448): the link trains to L0 and config space answers; the admin channel's reset ends. -/
def execPcieLinkUp (speed width : Nat) (s : State) : Host.Outcome State Fault Refusal :=
  act s fun s => { s with pcie := { s.pcie with up := true, l1 := false, speed := speed % 16, width := width % 16, admReset := false } }

/-- A correctable error (R450). -/
def AerErr.correctable : AerErr → Bool
  | .receiverError | .badTlp | .badDllp | .replayRollover | .replayTimer | .advisory => true
  | _ => false

/-- TLP_ERROR (R450). -/
def execTlpError (e : AerErr) (s : State) : Host.Outcome State Fault Refusal :=
  act s fun s =>
    if AerErr.correctable e then { s with pcie := { s.pcie with aerCor := inc s.pcie.aerCor } }
    else { s with pcie := { s.pcie with aerUnc := inc s.pcie.aerUnc } }

/-! ### DMA (R444, R445) -/

/-- A DMA failure as a command's outcome (R445). -/
def dmaFault (e : DmaErr) (addr : Nat) : Outc :=
  failWhy .fault "internal" [fld "dma" (DmaErr.name e), fld "addr" (hexVal 4 addr)]

/-- The command of a channel whose scatter table is being fetched: the next to start, with `sgt=`. -/
def tableWanted (s : State) (ch : Chan) : Option Entry :=
  (nextStart (queueOf s ch).entries).filter fun e =>
    match e.verb with
    | .write { src := .sgt .., .. } => true
    | .read { dst := .sgt .., .. } => true
    | _ => false

/-- A scatter table's entries (R444). -/
def tableEntries (b : List Byte) : List (Nat × Nat) := (parts 16 b).map fun e => (leVal (slice e 0 8), leVal (slice e 8 4))

/-- The WRITE of a saddle whose bytes arrive now: the oldest that executes and lacks some. -/
def writeWanted (s : State) (n : SadNo) : Option Entry :=
  s.sad[n].q.entries.find? fun e => e.phase == .executing && e.begun && e.ended.isNone &&
    match e.verb with
    | .write a => decide (e.data.length < a.len)
    | _ => false

/-- Bytes that an executing WRITE still lacks. -/
def lacks (e : Entry) : Nat :=
  match e.verb with
  | .write a => a.len - e.data.length
  | _ => 0

/-- Bytes that host DMA would bring a saddle now, had its engine budget for them. -/
def unreadOf (s : State) (n : SadNo) : Nat :=
  match writeWanted s n with
  | some e => if bindOf s n == .vf && roomFor s n (blockOf s n) 1 then lacks e else 0
  | none => 0

/-- Bytes that host DMA may still bring in the tick for a saddle (R19): what RATE saddles lack is kept for them (R21). -/
def dmaInRoom (s : State) (n : SadNo) : Nat :=
  let left := budget s 1048576 - s.used.dmaIn
  if classOf s n == .rate then left else left - sumL ((allSads.filter fun m => classOf s m == .rate).map (unreadOf s))

/-- Bytes for a saddle's WRITE, as many as it still lacks, as the tick's budget admits (R19, R20) and as its caddies
take (R222). -/
def takeBytes (s : State) (n : SadNo) (b : List Byte) : State :=
  match writeWanted s n with
  | none => s
  | some e =>
    let want := b.take (lacks e)
    let b := want.take (dmaInRoom s n)
    if b.length < want.length && b.isEmpty then setWhy s (.sad n) e.tag .engine
    else if roomFor s n (blockOf s n) b.length then
      let s := { s with used := { s.used with dmaIn := s.used.dmaIn + b.length } }
      modEntry s (.sad n) e.tag fun e => { e with
        data := e.data ++ b, got := e.got + b.length, why := if b.length < want.length then .engine else .none }
    else setWhy s (.sad n) e.tag .pool

/-- Ends a command without effect on a DMA failure (R445). -/
def dmaEnd (s : State) (ch : Chan) (e : Entry) (o : Outc) : State := endWithout (cutCommand s ch e) ch e.tag o

/-- DMA_COMPLETE (R444, R445). A failed posted write is invisible to the part. -/
def dmaComplete (f : FnNo) (kind : DmaKind) (result : Res (DmaErr × Nat) (List Byte)) (s : State) : State :=
  let ch := chanOfFn f
  match kind, result with
  | .slotFetch, .ok b => fetchSlot f (.ok b) s
  | .slotFetch, .err (e, _) => fetchSlot f (.err e) s
  | .tableFetch, .ok b =>
    match tableWanted s ch with
    | some _ => startCmd ch (some (tableEntries b)) s
    | none => s
  | .tableFetch, .err (e, a) =>
    match tableWanted s ch with
    | some c => dmaEnd (countDma s f 1 e a) ch c (dmaFault e a)
    | none => s
  | .writeData, .ok b =>
    match sadOfFn f with
    | some n => if bindOf s n == .vf then takeBytes s n b else s
    | none => s
  | .writeData, .err (e, a) =>
    match sadOfFn f with
    | some n =>
      match writeWanted s n with
      | some c => dmaEnd (countDma s f 2 e a) ch c (dmaFault e a)
      | none => s
    | none => s
  | .updateDma, .ok _ => s
  | .updateDma, .err (e, a) =>
    let hit := s.adm.entries.find? fun c => c.phase == .executing && c.ended.isNone && (match c.verb with
      | .updateDma .. => true
      | _ => false)
    match hit with
    | some c => dmaEnd (countDma s f 3 e a) .adm c (dmaFault e a)
    | none => s
  | .readData, _ => s

/-- DMA_COMPLETE. -/
def execDmaComplete (f : FnNo) (kind : DmaKind) (result : Res (DmaErr × Nat) (List Byte)) (s : State) :
    Host.Outcome State Fault Refusal :=
  act s (dmaComplete f kind result)

end Sys2Proof.Machine
end

