-- ==== Sys2Proof/Machine/Ports.lean ====
section
/-! DEFINITION. Sessions as they receive bytes, the console line, sample ports and the sensor bus (files 04 and 16). -/

namespace Sys2Proof.Machine

open Sys2Proof

/-! ### Bytes into a session (R104-R107) -/

/-- Echo in typed mode. -/
def echo (s : State) (tr : Transport) (b : List Byte) : State := if sesModeOf s tr == .typed then emit s tr b else s

/-- The line so far is complete (R104, R107): it waits for intake, and typed mode echoes CR LF and the prompt. -/
def endLine (s : State) (tr : Transport) (cr : Bool) : State :=
  match sessionOf s tr with
  | none => s
  | some x =>
    let s := pushLine s tr { bytes := x.line, long := x.long, badChar := x.badChar, gen := x.mode == .generated }
    let s := modSes s tr fun x => { x with line := [], long := false, badChar := false, afterCr := cr }
    echo s tr (crlf ++ ascii (promptOf s tr))

/-- BEL. -/
def bel : List Byte := [0x07]

/-- A byte in typed mode (R106). -/
def keyByte (s : State) (tr : Transport) (b : Byte) (bad : Bool) : State :=
  let line := ((sessionOf s tr).map (·.line)).getD []
  let store (c : Byte) : State :=
    if 200 ≤ line.length then emit s tr bel
    else emit (modSes s tr fun x => { x with line := x.line ++ [c] }) tr [c]
  if bad then emit s tr bel
  else if b = 0x09 then store 0x20
  else if b = 0x08 || b = 0x7F then
    if line.isEmpty then emit s tr bel
    else emit (modSes s tr fun x => { x with line := x.line.dropLast }) tr [0x08, 0x20, 0x08]
  else if b = 0x15 then
    let s := modSes s tr fun x => { x with line := [] }
    emit s tr (crlf ++ ascii (promptOf s tr))
  else if 0x20 ≤ b.toNat && b.toNat ≤ 0x7E then store b
  else emit s tr bel

/-- A byte in generated mode (R105, R106). -/
def genByte (s : State) (tr : Transport) (b : Byte) (bad : Bool) : State :=
  modSes s tr fun x =>
    if 200 ≤ x.line.length then { x with long := true }
    else { x with line := x.line ++ [b], badChar := x.badChar || bad }

/-- One byte of a session (R104-R107). -/
def sesByte (s : State) (tr : Transport) (b : Byte) (bad : Bool) : State :=
  match sessionOf s tr with
  | none => s
  | some x =>
    if !bad && b = 0x0A && x.afterCr then modSes s tr fun x => { x with afterCr := false }
    else if !bad && (b = 0x0D || b = 0x0A) then endLine s tr (b = 0x0D)
    else
      let s := modSes s tr fun x => { x with afterCr := false }
      match x.mode with
      | .typed => keyByte s tr b bad
      | .generated => genByte s tr b bad

/-! ### The console line (R135-R138, R466) -/

/-- CONSOLE_RX_BYTE: `bad` says that the byte came with a framing error or a receive overrun (R106). -/
def execConsoleRxByte (b : Byte) (bad : Bool) (s : State) : Host.Outcome State Fault Refusal :=
  actIf s (!s.fil.conIgnore) fun s => sesByte s .console b bad

/-- CONSOLE_BREAK (R135): a low of at least 20 bit times and less than 0.5 s. -/
def execConsoleBreak (bitTimes : Nat) (s : State) : Host.Outcome State Fault Refusal :=
  actIf s (20 ≤ bitTimes && 2 * bitTimes < s.fil.baud && !s.fil.conIgnore) fun s =>
    let s := modSes s .console fun x => { x with line := [], long := false, badChar := false, afterCr := false }
    let s := { s with fil := { s.fil with conBreak := true } }
    echo s .console (crlf ++ ascii (promptOf s .console))

/-- CONSOLE_RESTORE (R136): 115,200 baud, typed mode and seat ADMIN for the session. -/
def execConsoleRestore (s : State) : Host.Outcome State Fault Refusal :=
  act s fun s =>
    let s := modSes s .console fun x => { x with mode := .typed, next := none, line := [], long := false, badChar := false, afterCr := false }
    { s with
      cfg := { s.cfg with session := put { id := .consoleSeat } (.n 0) s.cfg.session }
      fil := { s.fil with baud := 115200, baudPend := none, baudLeft := none, baudHeld := true, conRestored := true } }

/-- Ticks in 2.0 s at the period in force. -/
def faultTicks (s : State) : Nat := 2000000000 / s.tk.periodNs

/-- LINE_FAULT (R136): the low has lasted 2.0 s. -/
def execLineFault (s : State) : Host.Outcome State Fault Refusal :=
  actIf s (!s.fil.conFault) fun s =>
    logE { s with fil := { s.fil with conFault := true, conIgnore := true } } .warn srcChip 0x0902 [("ticks", 4, faultTicks s)]

/-- LINE_FAULT_RECOVERY (R136): CON_RXD has been high for 100 ms. -/
def execLineFaultRecovery (ticks : Nat) (s : State) : Host.Outcome State Fault Refusal :=
  actIf s s.fil.conFault fun s =>
    reply { s with fil := { s.fil with conFault := false, conIgnore := false } }
      { tr := .console, tag := .unsol, status := .fault, fields := [fld "why" "linefault", fnum "ticks" ticks] }

/-! ### Sample ports (R451-R464) -/

/-- Moves the lead of a saddle's port into the WRITEs that wait for it, oldest first (R210, file 16). -/
def claimLead (n : SadNo) (p : PortNo) : Nat → State → State
  | 0, s => s
  | k + 1, s =>
    match writeWanted s n with
    | none => s
    | some e =>
      let need := match e.verb with
        | .write a => a.len - e.data.length
        | _ => 0
      let b := s.port[p].lead.take need
      if b.isEmpty then s
      else
        let s := modPort s p fun x => { x with lead := x.lead.drop need }
        claimLead n p k (modEntry s (.sad n) e.tag fun e => { e with data := e.data ++ b, got := e.got + b.length, why := .none })

/-- The leads of all ports. -/
def claimLeads (s : State) : State :=
  allSads.foldl (fun s n => match bindOf s n with
    | .sp p => claimLead n p 33 s
    | _ => s) s

/-- A READ of a saddle executes. -/
def readRuns (s : State) (n : SadNo) : Bool :=
  s.sad[n].q.entries.any fun e => e.phase == .executing && e.ended.isNone && runKind e.verb = 2

/-- What keeps the data channel from taking a word (R457). -/
def portBlocked (s : State) (p : PortNo) : Bool :=
  match sadOfPort s p with
  | none => true
  | some n =>
    decide (pnat s .leadMax p.val ≤ s.port[p].lead.length) || !roomFor s n (blockOf s n) (wordBytes s p) || pfInForce s ||
      s.sad[n].st == .closed || s.sad[n].reset.isSome

/-- STRETCH holds READY low: a READ executes and no whole new word waits (R461). -/
def portStretch (s : State) (p : PortNo) : Bool :=
  pnat s .outGate p.val = 1 && s.port[p].fifo.length < wordBytes s p && ((sadOfPort s p).map (readRuns s)).getD false

/-- READY of the data channel (R457, R461). Under FREE no condition of R457 but a reset lowers it (R464). -/
def readyData (s : State) (p : PortNo) : Bool :=
  let resetting := ((sadOfPort s p).map fun n => s.sad[n].reset.isSome).getD false
  live s && !resetting && !portStretch s p && (pnat s .portFlow p.val = 1 || !portBlocked s p)

/-- Bytes that the control channel's input buffer holds: the lines that wait for intake and the line being received. -/
def ctlHeld (s : State) (p : PortNo) : Nat :=
  s.port[p].ses.line.length + sumL (((look (.sp p) s.fil.waiting).getD []).map fun r => r.bytes.length + 1)

/-- READY of the control channel (R462, R464). -/
def readyCtl (s : State) (p : PortNo) : Bool :=
  let resetting := ((sadOfPort s p).map fun n => s.sad[n].reset.isSome).getD false
  live s && !resetting && ctlHeld s p < 256

/-- The level of SPn_READY (R456). -/
def portReady (s : State) (p : PortNo) : Bool := if s.port[p].owner = 2 then readyCtl s p else readyData s p

/-- The word that leaves at a transfer (R453, R461). -/
def portOut (p : PortNo) (s : State) : State :=
  let w := wordBytes s p
  let x := s.port[p]
  if w ≤ x.fifo.length then
    let v : W32 := BitVec.ofNat 32 (leVal (x.fifo.take w))
    let s := modPort s p fun x => { x with fifo := x.fifo.drop w, last := v }
    { s with out := { s.out with spOut := some v } }
  else
    let s := modPort s p fun x => { x with underrun := true, rep := inc x.rep }
    { s with out := { s.out with spOut := some x.last } }

/-- The word that arrives at a transfer (R453, R459). -/
def portIn (p : PortNo) (word : W32) (s : State) : State :=
  if portBlocked s p then
    let first := s.port[p].runLen = 0
    let prev := s.port[p].prevRun
    let s := modPort s p fun x => { x with ovr := inc x.ovr, runLen := inc x.runLen, overrun := x.overrun || first }
    if first then
      logE s .warn (((sadOfPort s p).map (·.val)).getD srcChip) 0x0903 [("port", 1, p.val), ("prev", 4, prev)]
    else s
  else
    modPort s p fun x => { x with
      lead := x.lead ++ leBytes (wordBytes s p) (word.toNat % 2 ^ (8 * wordBytes s p))
      prevRun := if x.runLen = 0 then x.prevRun else x.runLen, runLen := 0 }

/-- SP_DATA_WORD: a rising SCLK edge while the data channel owns the port (R451, R455, R459, R461). The channel carries no more than its
budget in a tick (R19). -/
def spDataWord (p : PortNo) (word : W32) (s : State) : State :=
  let s := modPort s p fun x => { x with edge := true }
  if s.port[p].owner ≠ 1 || budget s 20000 < s.used.port[p] + wordBytes s p then s
  else if pnat s .portFlow p.val = 0 && !readyData s p then modPort s p fun x => { x with low := true }
  else
    let s := { s with used := { s.used with port := s.used.port.set p.val (s.used.port[p] + wordBytes s p) p.isLt } }
    let s := modPort s p fun x => { x with inWords := x.inWords + 1 }
    let s := portIn p word (portOut p s)
    match sadOfPort s p with
    | some n => refillFifo (claimLead n p 33 s) n p
    | none => s

/-- SP_DATA_WORD. -/
def execSpDataWord (p : PortNo) (word : W32) (s : State) : Host.Outcome State Fault Refusal := act s (spDataWord p word)

/-- SP_CONTROL_BYTE: a rising SCLK edge while the control channel owns the port (R451, R462). READY gates it under FREE too, for no
control byte is ever dropped (DEDUCED, log 144). -/
def spControlByte (p : PortNo) (b : Byte) (s : State) : State :=
  let s := modPort s p fun x => { x with edge := true }
  if s.port[p].owner ≠ 2 || !readyCtl s p then s
  else
    let o := s.port[p].ses.out.headD 0
    let s := modSes s (.sp p) fun x => { x with out := x.out.drop 1 }
    let s := { s with out := { s.out with spOut := some (o.setWidth 32) } }
    sesByte s (.sp p) b false

/-- SP_CONTROL_BYTE. -/
def execSpControlByte (p : PortNo) (b : Byte) (s : State) : Host.Outcome State Fault Refusal := act s (spControlByte p b)

/-- SP_SELECT (R454): the selects take new levels; true is low, selected. -/
def spSelect (p : PortNo) (d c : Bool) (s : State) : State :=
  modPort s p fun x =>
    let fallD := d && !x.selD
    let fallC := c && !x.selC
    let clash := d && c && (x.both || (fallD && fallC) || ((fallD || fallC) && !x.edge))
    let owner :=
      if clash then 0
      else if !d && !c then 0
      else if x.owner = 1 && d then 1
      else if x.owner = 2 && c then 2
      else if d then 1 else 2
    { x with selD := d, selC := c, both := clash, owner := owner, edge := if fallD || fallC then false else x.edge }

/-- SP_SELECT. -/
def execSpSelect (p : PortNo) (selD selC : Bool) (s : State) : Host.Outcome State Fault Refusal := act s (spSelect p selD selC)

/-- Counts the ticks in which READY was low for a saddle: on its port's data channel (R94, R457, R461), also under a reset, and on the
control channel while that owns the port (R462, R464). -/
def countStretch (s : State) : State :=
  (List.finRange 4).foldl (fun s (p : PortNo) =>
    let low := s.port[p].low || !readyData s p || (s.port[p].owner = 2 && !readyCtl s p)
    let s := modPort s p fun x => { x with low := false }
    match sadOfPort s p with
    | some n => if low then modSad s n fun x => { x with cnt := { x.cnt with stretch := inc x.cnt.stretch } } else s
    | none => s) s

/-! ### Sensor bus (R468-R473) -/

/-- What one poll's attempts on a device gave: the device, the bytes of a good read, failed attempts, bus clears, whether the
bus stayed low. -/
structure Tried where
  dev : Dev
  data : Option (List Byte) := none
  errs : Nat := 0
  clears : Nat := 0
  low : Bool := false
deriving DecidableEq, Repr

/-- The attempts of a poll on a device (R471, R472): four for a present device, one for an absent one. -/
def tryDev : List I2cObs → Tried → Tried
  | [], t => t
  | .good b cleared :: _, t =>
    let d := t.dev
    let clears := t.clears + if cleared then 1 else 0
    if d.absent && d.goods + 1 < 16 then { t with dev := { d with fails := 0, goods := d.goods + 1 }, clears := clears, low := false }
    else
      { t with
        dev := { d with present := true, absent := false, fails := 0, goods := 0 }, data := some b
        clears := clears, low := false }
  | .fail low :: rest, t =>
    let d := t.dev
    let t := { t with errs := t.errs + 1, clears := t.clears + (if low then 1 else 0), low := low }
    if d.absent then { t with dev := { d with goods := 0 } }
    else if d.fails + 1 < 4 then tryDev rest { t with dev := { d with fails := d.fails + 1, goods := 0 } }
    else { t with dev := { d with present := false, absent := true, fails := 0, goods := 0 } }

/-- The counters and the bus state after attempts (R472). -/
def busAfter (s : State) (t : Tried) (any : Bool) : State :=
  let told := s.sens.busLow
  let s := { s with sens := { s.sens with
    errs := sat 16 (s.sens.errs + t.errs), clears := sat 16 (s.sens.clears + t.clears), busLow := if any then t.low else s.sens.busLow } }
  if t.low && !told then logE s .warn srcChip 0x0906 else s

/-- The vector of a shock reading less the mean of the readings before it, scaled by their number, and its squared length
(R470). -/
def shockSq (w : List (Int × Int × Int)) (r : Int × Int × Int) : Nat × Nat :=
  let k := w.length
  if k = 0 then (1, 0)
  else
    let dx := r.1 * k - (w.map (·.1)).foldl (· + ·) 0
    let dy := r.2.1 * k - (w.map (·.2.1)).foldl (· + ·) 0
    let dz := r.2.2 * k - (w.map (·.2.2)).foldl (· + ·) 0
    (k, (dx * dx + dy * dy + dz * dz).toNat)

/-- A good shock reading (R311, R470). -/
def shockRead (s : State) (b : List Byte) : State :=
  let r : Int × Int × Int := (signed 16 (leVal (slice b 0 2)), signed 16 (leVal (slice b 2 2)), signed 16 (leVal (slice b 4 2)))
  let (k, sq) := shockSq s.sens.window r
  let lsb := pnat s .shockLsb
  let hit := decide ((pnat s .shockG * 100000 * k) ^ 2 ≤ sq * lsb ^ 2)
  let mg := min 65535 (Nat.sqrt (sq * lsb ^ 2) / (1000 * k))
  { s with
    sens := { s.sens with window := (r :: s.sens.window).take 1024, mg := mg, peak := max s.sens.peak mg }
    med := { s.med with inh := { s.med.inh with shockBus := hit && k ≠ 0 } } }

/-- The pairs of `sensor.shock.init` go to the shock sensor before its first read of a session, and before its first after a
return to present (R469). -/
def shockInit (s : State) : State :=
  if !s.sens.initDue then s
  else
    let l := match cfgVal s { id := .shockInit } with
      | .p l => l.map fun (x : Int × Int) => (pnat s .shockAddr, x.1.toNat, x.2.toNat)
      | _ => []
    { s with out := { s.out with i2c := s.out.i2c ++ l }, sens := { s.sens with initDue := false } }

/-- A poll of the shock sensor. -/
def pollShock (obs : List I2cObs) (s : State) : State :=
  let s := shockInit s
  let back := s.sens.shock.absent
  let t := tryDev obs { dev := s.sens.shock, low := s.sens.busLow }
  let s := busAfter { s with sens := { s.sens with shock := t.dev, initDue := back && !t.dev.absent } } t (!obs.isEmpty)
  let s := { s with med := { s.med with inh := { s.med.inh with sensor := t.dev.absent } } }
  match t.data with
  | some b => shockRead s b
  | none => s

/-- A temperature sensor of the two. -/
def tempDev (s : State) (i : Nat) : Dev := if i = 0 then s.sens.t0 else s.sens.t1

/-- A poll of a temperature sensor (R469, R471). -/
def pollTemp (i : Nat) (obs : List I2cObs) (s : State) : State :=
  let old := tempDev s i
  let t := tryDev obs { dev := old, low := s.sens.busLow }
  let d : Dev := match t.data with
    | some b => { t.dev with value := signed 16 (beVal (b.take 2)) }
    | none => t.dev
  let s := if i = 0 then { s with sens := { s.sens with t0 := d } } else { s with sens := { s.sens with t1 := d } }
  let s := busAfter s t (!obs.isEmpty)
  if d.absent && !old.absent then
    logE s .warn srcChip 0x0905 [("addr", 1, pnat s (if i = 0 then .temp0Addr else .temp1Addr))]
  else s

/-- A temperature sensor is fitted. -/
def tempFitted (s : State) (i : Nat) : Bool := pnat s (if i = 0 then .temp0Addr else .temp1Addr) ≠ 0

/-- The temperature sensor whose turn it is (R470). -/
def tempNext (s : State) : Option Nat :=
  let a := if s.sens.tempTurn then 1 else 0
  if s.sens.lastTemp.toNat ≠ 0 && now s < s.sens.lastTemp.toNat + pnat s .tempPeriod then none
  else if tempFitted s a then some a
  else if tempFitted s (1 - a) then some (1 - a)
  else none

/-- SENSOR_POLL (R470, R471): the shock sensor, the temperature sensor whose turn it is, and one attempt on each that is
absent. -/
def sensorPoll (shock temp0 temp1 : List I2cObs) (s : State) : State :=
  let gone := [0, 1].filter fun i => tempFitted s i && (tempDev s i).absent
  let turn := tempNext s
  let s := pollShock shock { s with sens := { s.sens with lastPoll := s.clk.ptc } }
  let obs (i : Nat) : List I2cObs := if i = 0 then temp0 else temp1
  let s := match turn with
    | some i => pollTemp i (obs i) { s with sens := { s.sens with lastTemp := s.clk.ptc, tempTurn := i = 0 } }
    | none => s
  guardScan ((gone.filter fun i => some i ≠ turn).foldl (fun s i => pollTemp i (obs i) s) s)

/-- A poll is due (R470). -/
def pollDue (s : State) : Bool :=
  s.sens.lastPoll.toNat = 0 || decide (1000 * pnat s .pollUs ≤ (now s - s.sens.lastPoll.toNat) * s.tk.periodNs)

/-- SENSOR_POLL. -/
def execSensorPoll (shock temp0 temp1 : List I2cObs) (s : State) : Host.Outcome State Fault Refusal :=
  actIf s (ready s && pollDue s) (sensorPoll shock temp0 temp1)

end Sys2Proof.Machine
end

