-- ==== Sys2Proof/Machine/Diag.lean ====
section
/-! DEFINITION. The event log, LOG and EVENTS, diagnostics with CAL and TEST, and CHAN (R178, R183, R190, R202, R320,
R493-R505). -/

namespace Sys2Proof.Machine

open Sys2Proof

/-! ### Records (R493-R497) -/

/-- The names of the record codes (R494). -/
def evtNames : List (Nat × String) :=
  [(0x0101, "TICK_SLEW"), (0x0102, "TICK_FLYWHEEL"), (0x0103, "TICK_OVERRUN"), (0x0104, "HALT"), (0x0105, "MODE"), (0x0106, "START"),
   (0x0107, "POWER_FAIL"), (0x0108, "REG_MISMATCH"), (0x0109, "AVS_CEIL"), (0x010A, "PMB_LOST"), (0x010B, "AVS_OFF"),
   (0x010C, "THERM_WARN"), (0x0201, "SLOT_MISS"), (0x0202, "DEFERRED"), (0x0203, "DEFERRED_AGAIN"), (0x0204, "DEFERRED_DROPPED"),
   (0x0205, "SADDLE_RESET"), (0x0206, "NOTE"), (0x0207, "TIME"), (0x0301, "POOL_BADRET"), (0x0302, "POOL_LEAK"), (0x0303, "POOL_AGE"),
   (0x0304, "SEAL_SKIP"), (0x0401, "WRITE_INHIBIT"), (0x0402, "IDENT_MISMATCH"), (0x0403, "CHAN_FAIL"), (0x0404, "VERIFY_FAIL"),
   (0x0405, "WPL_SAT"), (0x0406, "PCL_LOST"), (0x0501, "READ_IDENT"), (0x0502, "LEADER_LOST"), (0x0503, "KIND_RESERVED"),
   (0x0504, "SERVO_LOST"), (0x0601, "REIN_SAT"), (0x0602, "MDL_WARN"), (0x0701, "CM_WRITE_FAIL"), (0x0702, "CM_MULTI"),
   (0x0703, "CART_LIFE"), (0x0801, "FLASH_FAIL"), (0x0802, "FLASH_ACCESS"), (0x0803, "FLASH_REERASE"), (0x0804, "FLASH_LOG"),
   (0x0805, "CFG_FALLBACK"), (0x0806, "KEK_LOST"), (0x0807, "FW_TRIAL_EXPIRED"), (0x0808, "FW_CONFIRMED"), (0x0809, "FW_FALLBACK"),
   (0x0901, "BAR_ACCESS"), (0x0902, "LINE_FAULT"), (0x0903, "SP_OVERRUN"), (0x0904, "CON_DROP"), (0x0905, "SEN_ABSENT"),
   (0x0906, "SEN_BUS_LOW"), (0x0907, "SHOCK_STUCK"), (0x0A01, "EVT_LOST"), (0x0A02, "DIAG_DONE")]

/-- A record's name. -/
def Evt.name (e : Evt) : String := (look e.code evtNames).getD ""

/-- A severity's name. -/
def Sev.name : Sev → String
  | .info => "INFO"
  | .warn => "WARN"
  | .error => "ERROR"

/-- POWER_FAIL's fields: each saddle that lost girths, and `partial=1` (R497). -/
def pfFields : List (String × Nat × Nat) → Nat → List Fld
  | (_, _, first) :: (_, _, count) :: t, n =>
    (if count = 0 then [] else [fld ("s" ++ toString n) (toString first ++ "+" ++ toString count)]) ++ pfFields t (n + 1)
  | [(_, _, complete_)], _ => if complete_ = 0 then [fld "partial" "1"] else []
  | [], _ => []

/-- A record's body fields in a line (R497). -/
def bodyFields (e : Evt) : List Fld :=
  (if e.code = 0x0107 then pfFields e.body 0 else e.body.map fun (k, _, v) => fnum k v) ++
    (e.text.map fun t => fld "text" ("\"" ++ t ++ "\"")).toList ++ (if e.code = 0x0207 then [fld "asserted" "host"] else [])

/-- The fields of a record line (R497); an unsolicited line has its name first and no `code=` (R129). -/
def evtFields (s : State) (e : Evt) (unsol : Bool) : List Fld :=
  (if unsol then [fld "event" (Evt.name e)] else []) ++ [fnum "seq" e.seq, fnum "ptc" e.ptc.toNat, fld "sev" (Sev.name e.sev)] ++
    (if unsol then [] else [fld "code" (Evt.name e)]) ++
    (if e.session = s.clk.session then [] else [fld "sid" (sidStr e.session)]) ++
    (if e.src < 8 then [fnum "saddle" e.src] else []) ++ bodyFields e

/-- The console's level admits a record (R129). -/
def consoleWants (s : State) (e : Evt) : Bool :=
  let l := pnat s .consoleEventLevel
  l ≠ 0 && decide (l ≤ Sev.rank e.sev + 1) &&
    (match chanOf s .console with
     | some (.sad n) => e.src == n.val
     | _ => true)

/-- A control channel gets the record that caused its saddle's ATTENTION (R79, R129); start-up's own MODE latches none. -/
def portWants (s : State) (n : SadNo) (e : Evt) : Bool :=
  (e.code = 0x0105 && e.body.head? != some ("from", 1, Mode.code .starting)) || (e.code = 0x0401 && !s.sad[n].unsync.isEmpty) || (e.src == n.val && e.sev != .info)

/-- The unsolicited lines of a record (R129, R467): with more than 4 KiB waiting the console drops them, and CON_DROP closes the
stretch. -/
def unsolLines (s : State) (e : Evt) : State :=
  let line (tr : Transport) : Reply := { tr := tr, tag := .unsol, status := .ok, fields := evtFields s e true }
  let s :=
    if !consoleWants s e then s
    else if 4096 < s.fil.con.out.length then { s with fil := { s.fil with conDrops := s.fil.conDrops + 1 } }
    else
      let k := s.fil.conDrops
      let s := if k = 0 then s else logE { s with fil := { s.fil with conDrops := 0 } } .info srcChip 0x0904 [("count", 4, k)]
      reply s (line .console)
  allSads.foldl (fun s n => match bindOf s n with
    | .sp p => if portWants s n e then reply s (line (.sp p)) else s
    | _ => s) s

/-- Records that the RAM ring keeps (R496). -/
abbrev ringSize : Nat := 262144

/-- A record is written: it takes the next SEQ (R495), and the LOG that waits for it completes (R190). -/
def writeEvt (s : State) (e : Evt) : State :=
  let q := s.evt.next
  let e := { e with seq := q }
  let r := s.evt.ring ++ [{ e with own := none }]
  let s := { s with evt := { s.evt with
    ring := if ringSize < r.length then r.drop 1 else r, next := (q + 1) % 2 ^ 32, newest := q
    warn := if e.sev == .warn then inc s.evt.warn else s.evt.warn, error := if e.sev == .error then inc s.evt.error else s.evt.error } }
  let s := unsolLines s e
  match e.own with
  | some (ch, t) => okWith s ch t [fnum "seq" q]
  | none => s

/-- The intake of a boundary (R495): at most 32 records, in order; then EVT_LOST where room is left after drops. -/
def evtIntake (s : State) : State :=
  let k := budget s 32
  let s1 := (s.evt.staging.take k).foldl writeEvt { s with evt := { s.evt with staging := s.evt.staging.drop k } }
  let lost := s1.evt.lostSince
  if 0 < lost && s1.evt.staging.length < 256 then
    logE { s1 with evt := { s1.evt with lostSince := 0 } } .warn srcChip 0x0A01 [("count", 4, lost)]
  else s1

/-! ### The flash copy (R498) -/

/-- Records that the flash ring holds. -/
abbrev flashRing : Nat := 65504

/-- A SEQ at or after another, modulo 2^32. -/
def seqFrom (a b : Nat) : Bool := (b + 2 ^ 32 - a) % 2 ^ 32 < 2 ^ 31

/-- A record is due for the flash copy: not yet considered, and at or above `event.flash_level`. -/
def copyDue (s : State) (e : Evt) : Bool :=
  seqFrom s.evt.copied e.seq && decide (pnat s .flashLevel ≤ Sev.rank e.sev)

/-- The sector of the flash ring that a record lies in (R401, R498). -/
def ringSector (q : Nat) : Nat := q % 65536 / 32

/-- Writes a record into the flash ring, and has the sector ahead of it erased, journaled, where it holds records (R498). -/
def copyEvt (s : State) (e : Evt) : State :=
  let ahead := (ringSector e.seq + 1) % 2048
  let r := s.fl.ring ++ [e]
  let s := { s with
    fl := { s.fl with
      ring := r.filter fun x => ringSector x.seq ≠ ahead, ringAt := some s.clk.ptc
      ringBad := s.fl.ringBad.filter fun q => ringSector q ≠ ahead && q ≠ e.seq }
    evt := { s.evt with flashed := e.seq, copied := (e.seq + 1) % 2 ^ 32 } }
  if r.any fun x => ringSector x.seq = ahead then startErase s (0x200 + ahead) else s

/-- The sectors of power-fail records are erased once every POWER_FAIL record has been copied (R406, R499). -/
def pfErases (s : State) : State :=
  if (s.evt.ring.any fun e => e.code = 0x0107 && copyDue s e) || s.evt.staging.any (·.code = 0x0107) then s
  else s.fl.pfErase.foldl startErase { s with fl := { s.fl with pfErase := [] } }

/-- The copy at a boundary (R498): `event.flash_per_s` records a second, evenly; POWER_FAIL goes without pacing (R499). Programs wait
for an erase to end. -/
def copyStep (s : State) : State :=
  if pfInForce s || s.fl.erasing.isSome || s.evt.copied = s.evt.next then s
  else
    let gap := 1000000000 / max 1 (pnat s .flashPerS)
    let credit := min gap (s.evt.credit + s.tk.periodNs)
    let s := { s with evt := { s.evt with credit := credit } }
    match s.evt.ring.find? (copyDue s) with
    | none => { s with evt := { s.evt with copied := s.evt.next } }
    | some e =>
      if e.code = 0x0107 then copyEvt s e
      else if gap ≤ credit then copyEvt { s with evt := { s.evt with credit := credit - gap } } e
      else s

/-- The flash copy of the event log at a boundary. -/
def flashCopy (s : State) : State := pfErases (copyStep s)

/-- Every record not yet copied goes to flash, at most the newest 65,504 (R498). -/
def saveAll (s : State) : State :=
  let l := s.evt.ring.filter fun e => seqFrom s.evt.copied e.seq
  let s := (l.drop (l.length - flashRing)).foldl copyEvt s
  { s with evt := { s.evt with copied := s.evt.next } }

/-! ### LOG and EVENTS -/

/-- LOG `text=`: its record is staged once there is room, and LOG completes once the record has its SEQ (R190). -/
def logText (ch : Chan) (text : String) (t : Nat) (s : State) : State :=
  if s.evt.staging.length < 288 then
    modEntry { s with evt := { s.evt with staging := s.evt.staging ++
      [{ ptc := s.clk.ptc, session := s.clk.session, sev := .info, src := srcOf ch, code := 0x0206, body := [], text := some text,
         own := some (ch, t) }] } } ch t fun e => { e with awaitSeq := true, why := .none }
  else setWhy s ch t .engine

/-- LOG `text=`. -/
def execLogText (ch : Chan) (tag : Option Nat) (text : String) (s : State) : Host.Outcome State Fault Refusal :=
  verbRow ch tag (.logText text) (logText ch text) s

/-- LOG `op=SAVE`: it waits while PWR_FAIL_N's effects last or an erase runs, then copies and completes (R190, R395, R498). -/
def logSave (t : Nat) (s : State) : State :=
  if pfInForce s then setWhy s .adm t .power
  else if s.fl.erasing.isSome then setWhy s .adm t .engine
  else
    let s := saveAll s
    okWith s .adm t [fnum "seq" s.evt.flashed]

/-- LOG `op=SAVE`. -/
def execLogSave (tag : Option Nat) (s : State) : Host.Outcome State Fault Refusal := verbRow .adm tag .logSave logSave s

/-- The LOG commands that wait are tried again at the boundary (R190). -/
def logsTick (s : State) : State :=
  allChans.foldl (fun s ch => (queueOf s ch).entries.foldl (fun s e =>
    if e.phase == .executing && e.begun && e.ended.isNone && !e.awaitSeq then
      match e.verb with
      | .logText text => logText ch text e.tag s
      | .logSave => logSave e.tag s
      | _ => s
    else s) s) s

/-- EVENTS (R183, R496, R497). -/
def eventsReply (s : State) (ch : Chan) (after : Option Nat) (n : Nat) (level : Sev) : List Fld × List (List Fld) :=
  let inScope (e : Evt) : Bool := match ch with
    | .adm => true
    | .sad k => e.src == k.val
  let past (e : Evt) : Bool := match after with
    | none => true
    | some a => let d := (e.seq + 2 ^ 32 - a) % 2 ^ 32; 1 ≤ d && d ≤ 2 ^ 31
  let l := (s.evt.ring.filter fun e => decide (Sev.rank level ≤ Sev.rank e.sev) && inScope e && past e).take n
  let gap := match after, s.evt.ring.head? with
    | some a, some o => let d := (o.seq + 2 ^ 32 - (a + 1)) % 2 ^ 32; if 1 ≤ d && d < 2 ^ 31 then d else 0
    | _, _ => 0
  ([fnum "count" l.length, fnum "last" s.evt.newest] ++ (if gap = 0 then [] else [fnum "gap" gap]),
   l.map fun e => evtFields s e false)

/-- EVENTS' effect. -/
def eventsVerb (ch : Chan) (after : Option Nat) (n : Nat) (level : Sev) (t : Nat) (s : State) : State :=
  let (fs, more) := eventsReply s ch after n level
  okWith s ch t fs more

/-- EVENTS. -/
def execEvents (ch : Chan) (tag : Option Nat) (after : Option Nat) (n : Nat) (level : Sev) (s : State) :
    Host.Outcome State Fault Refusal :=
  verbRow ch tag (.events after n level) (eventsVerb ch after n level) s

/-! ### CHAN (R178) -/

/-- CHAN's reply fields. -/
def chanFields (s : State) : List Fld := [fld "out" (natsStr (mapOut s)), fld "failed" (natsStr s.med.failed)]

/-- CHAN `op=LIST`. -/
def execChanList (tag : Option Nat) (s : State) : Host.Outcome State Fault Refusal :=
  verbRow .adm tag .chanList (fun t s => okWith s .adm t (chanFields s)) s

/-- Stores `chan.map_out`. -/
def putMapOut (s : State) (l : List Nat) : State := cfgPut s { id := .chanMapOut } (.l (l.map Int.ofNat))

/-- CHAN `op=OUT`: at most two channels are mapped out. -/
def chanOutVerb (c : ChNo) (t : Nat) (s : State) : State :=
  let l := mapOut s
  if l.contains c.val then okWith s .adm t (chanFields s)
  else if 2 ≤ l.length then complete s .adm t (failWhy .badarg "range" [fld "key" "ch"])
  else
    let s := putMapOut s (l ++ [c.val])
    okWith s .adm t (chanFields s)

/-- CHAN `op=OUT`. -/
def execChanOut (tag : Option Nat) (c : ChNo) (s : State) : Host.Outcome State Fault Refusal :=
  verbRow .adm tag (.chanOut c) (chanOutVerb c) s

/-- CHAN `op=IN`: a failed channel is written again for the session (R178); writing that failed channels stopped may go on once at
most two are out (R322). -/
def chanInVerb (c : ChNo) (t : Nat) (s : State) : State :=
  let s := putMapOut s ((mapOut s).filter (· ≠ c.val))
  let s := { s with med := { s.med with
    failed := s.med.failed.filter (· ≠ c.val)
    written := s.med.written.map fun w => { w with failsOn := w.failsOn.filter fun f => f.1 ≠ c } } }
  let s := modWCh s c fun x => { x with chsRun := 0 }
  let s := { s with med := { s.med with stopped := s.med.stopped && 3 ≤ (chansOut s).length } }
  okWith s .adm t (chanFields s)

/-- CHAN `op=IN`. -/
def execChanIn (tag : Option Nat) (c : ChNo) (s : State) : Host.Outcome State Fault Refusal :=
  verbRow .adm tag (.chanIn c) (chanInVerb c) s

/-! ### CAL (R177, R502, R503) -/

/-- The fixed order of the items (R503). -/
def calOrder : List CalItem := [.adc, .tension, .servo, .heads, .write, .eq]

/-- An item's name. -/
def CalItem.name : CalItem → String
  | .adc => "ADC"
  | .tension => "TENSION"
  | .servo => "SERVO"
  | .heads => "HEADS"
  | .write => "WRITE"
  | .eq => "EQ"

/-- CAL_SEL's code of an item. -/
def CalItem.code : CalItem → Nat
  | .adc => 0
  | .tension => 1
  | .servo => 2
  | .heads => 3
  | .write => 4
  | .eq => 5

/-- Items that need a cartridge (R177, R503). -/
def CalItem.needsTape : CalItem → Bool
  | .tension | .servo | .heads | .write => true
  | _ => false

/-- The parameters that an item sets (R503). -/
def calSets (i : CalItem) : List PId :=
  match i with
  | .adc => [.adcTrim]
  | .tension => [.tensionKt]
  | .servo => [.servoGain, .wedgeScale]
  | .heads => []
  | .write => [.seedCur, .seedPc, .seedOfs, .latScale]
  | .eq => [.eqSeedTaps]

/-- A value within a parameter's range. -/
def valIn (k : PKind) (v : PVal) : Bool :=
  match k, v with
  | .int lo hi step, .n x => lo ≤ x && x ≤ hi && x % (step : Int) = 0
  | .hex _ lo hi z, .n x => (z && x = 0) || ((lo : Int) ≤ x && x ≤ hi)
  | .size lo hi z, .n x => (z && x = 0) || ((lo : Int) ≤ x && x ≤ hi)
  | .fixed _ step lo hi, .n x => lo ≤ x && x ≤ hi && x % (step : Int) = 0
  | .enum ns, .n x => 0 ≤ x && x < ns.length
  | .bool, .n x => x = 0 || x = 1
  | .list lo hi a b _, .l xs => a ≤ xs.length && xs.length ≤ b && xs.all fun x => lo ≤ x && x ≤ hi
  | .flist _ lo hi n, .l xs => xs.length = n && xs.all fun x => lo ≤ x && x ≤ hi
  | .pair lo hi, .p [(a, b)] => lo ≤ a && a ≤ hi && lo ≤ b && b ≤ hi
  | _, _ => false

/-- A diagnostic begins (R502). -/
def diagBegin (s : State) (w : DiagWhat) (passes : Nat) (items : List CalItem) (band : Option (Fin 4)) (t : Nat) : State :=
  { s with diag := { s.diag with
    what := w, running := true, fail := false, pass := if w == .cal then 0 else 1, passes := passes, errors := 0, addr := 0, ticks := 0
    tag := some t, start := s.clk.ptc, items := items, band := band, cut := false } }

/-- CAL's effect: it commits as it starts (R502). -/
def calVerb (items : List CalItem) (band : Option (Fin 4)) (t : Nat) (s : State) : State :=
  let l := calOrder.filter items.contains
  if l.any CalItem.needsTape && !s.cart.threaded then complete s .adm t { status := .notape }
  else diagBegin s .cal 0 l band t

/-- CAL. -/
def execCal (tag : Option Nat) (items : List CalItem) (band : Option (Fin 4)) (s : State) : Host.Outcome State Fault Refusal :=
  verbRow .adm tag (.cal items band) (calVerb items band) s

/-- WRITE and EQ run on the bands of `band=`, all of them by default (R177, R503): a value of another band stays. -/
def inCalBand (s : State) (p : Param) : Bool :=
  match p.id with
  | .seedCur | .seedPc | .seedOfs | .eqSeedTaps => (s.diag.band.map fun b => decide (b.val = p.i)).getD true
  | _ => true

/-- What a passing item applies (R503): the values that it found; EQ without a cartridge loads the built-in seeds. -/
def calApply (s : State) (r : CalResult) : State :=
  if r.item == .eq && !s.cart.threaded then
    (allParams.filter fun p => p.id == .eqSeedTaps && inCalBand s p).foldl (fun s p => cfgPut s p (pspec p.id).default) s
  else
    let s := (r.sets.filter fun x => (calSets r.item).contains x.1.id && inCalBand s x.1 && valIn (pspec x.1.id).kind x.2).foldl
      (fun s x => cfgPut s x.1 x.2) s
    if r.item == .eq then
      r.sigma.foldl (fun s x => modRCh s x.1 fun c => { c with
        var := x.2.map fun (v : Nat) => (v : Rat) / 4096, floor := x.2.map fun (v : Nat) => (v : Rat) / 65536 }) s
    else s

/-- The channel values of an item in CAL_CH; an item keeps those of the bands that it has run on. -/
def calKeep (s : State) (r : CalResult) : State :=
  let ran (k : Nat) : Bool := match r.item, s.diag.band with
    | .write, some b | .eq, some b => k % 4 = b.val
    | _, _ => true
  { s with diag := { s.diag with
    calCh := (r.perCh.filter fun x => ran x.1).foldl (fun l x => put (CalItem.code r.item + 8 * (x.1 % 8)) x.2 l) s.diag.calCh } }

/-- A diagnostic ends: DIAG_DONE (R502). -/
def diagEnd (s : State) (errors ticks : Nat) : State :=
  let code : DiagWhat → Nat
    | .none => 0
    | .cal => 1
    | .dram => 2
    | .flash => 3
    | .loop => 4
    | .pattern => 5
  let s := { s with diag := { s.diag with running := false, fail := 0 < errors, errors := sat 32 errors, ticks := sat 32 ticks, cut := false } }
  logE s .info srcChip 0x0A02 [("what", 1, code s.diag.what), ("errors", 4, s.diag.errors), ("ticks", 4, s.diag.ticks)]

/-- Whether an item passes (R503): by the limit on its value; EQ by what every channel seeded from tape reached, and with no
cartridge it seeds none. -/
def calPass (s : State) (r : CalResult) : Bool :=
  match r.item with
  | .adc => r.value ≤ 2
  | .tension => r.value ≤ 50
  | .servo => r.value ≤ 30
  | .heads | .write => r.value = 0
  | .eq => r.pass || !s.cart.threaded

/-- CAL_COMPLETE (R502, R503): the items' results apply and CAL completes; one that a queue reset ended changes no value. -/
def calComplete (results : List CalResult) (ticks : Nat) (s : State) : State :=
  let rs := s.diag.items.filterMap fun i => results.find? (·.item == i)
  let ok := rs.filter (calPass s)
  let fails := rs.length - ok.length
  if s.diag.cut then diagEnd s fails ticks
  else
    let s := rs.foldl calKeep s
    let s := ok.foldl calApply s
    let tag := s.diag.tag
    let s := diagEnd s fails ticks
    match tag with
    | some t => okWith s .adm t [fnum "ticks" ticks, fnum "fail" fails]
        (rs.map fun r => [fld "item" (CalItem.name r.item), fld "result" (if ok.contains r then "PASS" else "FAIL"), fld "value" (toString r.value)])
    | none => s

/-- CAL_COMPLETE: it brings a result for every item, unless a queue reset has ended the CAL (R502). -/
def execCalComplete (results : List CalResult) (ticks : Nat) (s : State) : Host.Outcome State Fault Refusal :=
  actIf s (s.diag.running && s.diag.what == .cal && (s.diag.cut || s.diag.items.all fun i => results.any (·.item == i))) (calComplete results ticks)

/-! ### TEST (R202, R502, R504, R505) -/

/-- TEST's effect: it commits as it starts; PATTERN needs a threaded cartridge. -/
def testVerb (w : DiagWhat) (pass : Nat) (t : Nat) (s : State) : State :=
  if w == .pattern && !s.cart.threaded then complete s .adm t { status := .notape } else diagBegin s w pass [] none t

/-- TEST `what=DRAM`. -/
def execTestDram (tag : Option Nat) (pass : Nat) (s : State) : Host.Outcome State Fault Refusal :=
  verbRow .adm tag (.testDram pass) (testVerb .dram pass) s

/-- TEST `what=FLASH`. -/
def execTestFlash (tag : Option Nat) (pass : Nat) (s : State) : Host.Outcome State Fault Refusal :=
  verbRow .adm tag (.testFlash pass) (testVerb .flash pass) s

/-- TEST `what=LOOP`. -/
def execTestLoop (tag : Option Nat) (pass : Nat) (s : State) : Host.Outcome State Fault Refusal :=
  verbRow .adm tag (.testLoop pass) (testVerb .loop pass) s

/-- TEST `what=PATTERN`. -/
def execTestPattern (tag : Option Nat) (pass : Nat) (s : State) : Host.Outcome State Fault Refusal :=
  verbRow .adm tag (.testPattern pass) (testVerb .pattern pass) s

/-- The bytes that a caddy's data have become (R504). -/
def overwritten (f : DramFill) (caddy : Nat) (l : List Byte) : List Byte :=
  (List.range l.length).map fun i => fillByte f (65536 * caddy + i)

/-- A girth in an overwritten caddy. -/
def spoilt (f : DramFill) (g : Girth) : Girth := { g with content := overwritten f g.caddy g.content, body := overwritten f g.caddy g.body }

/-- DRAM has overwritten every caddy (R202, R504): what saddles, ports' leads and monitors' references held there is gone, and
read-ahead's caddies go back. What lies beyond the caddies stands (R213). -/
def dramTested (s : State) (cut : Bool) : State :=
  let f : DramFill := if cut then .cut s.free else .pattern
  let ds (d : DataSet) : DataSet := { d with girths := d.girths.map (spoilt f) }
  let s := (s.pool.caddies.filter fun c => c.owner == some ownRa).foldl (fun s c => askRelease s c.idx (.owner ownRa)) s
  let s := mapSad s fun _ x => { x with
    blk := { x.blk with bytes := overwritten f x.blk.caddy x.blk.bytes }, acked := x.acked.map (spoilt f)
    openDs := x.openDs.map ds, closed := x.closed.map ds, monData := x.monData.map (spoilt f) }
  let lead (p : PortNo) : List Byte :=
    let k := ((sadOfPort s p).bind fun n => s.sad[n].caddies.getLast?.map (·.1)).getD 0
    overwritten f k s.port[p].lead
  { s with
    port := Vector.ofFn fun p => { s.port[p] with lead := lead p }
    med := { s.med with written := s.med.written.map fun w => { w with ds := ds w.ds }, again := s.med.again.map fun w => { w with ds := ds w.ds } }
    dram := { cells := s.dram.cells.filter fun c => decide (s.pool.total * 65536 ≤ c.1) }, dramFill := f, free := s.free + 1
    rd := { s.rd with store := [], cur := none, recon := [] } }

/-- FLASH has run its rounds on the test sectors (R504): they hold the last pattern. -/
def flashTested (s : State) (passes : Nat) : State :=
  let n := s.fl.erases
  let s := eraseSector (eraseSector s 0x4A) 0x4B
  let s := programBytes s 0x4A000 ((List.range 8192).map fun i => if i % 4 < 2 then 0x5A else 0xA5)
  { s with fl := { s.fl with erases := incBy n (max 2 (8 * passes)) } }

/-- The data set under the head, or the next one at the position where the tape rests. -/
def dsnHere (s : State) : Nat :=
  match s.rd.dsNow with
  | some d => d
  | none =>
    let cands := (List.range (s.med.append + 1)).filter fun d => wrapOfDsn s d = s.rd.wrap
    let ahead (d : Nat) : Int :=
      let m : Int := 3000000 * ((mmOf s.rd.wrap (estOfDsn s d) : Nat) : Int)
      if wrapRev s.rd.wrap then s.srv.pos - m else m - s.srv.pos
    (cands.find? fun d => 0 ≤ ahead d).getD s.med.append

/-- PATTERN has written 100 FILL data sets a pass (R505): the end of data lies behind them. -/
def patternWritten (s : State) (passes : Nat) : State :=
  let d := dsnHere s
  let s := openMark s
  { s with
    med := { s.med with
      append := d + 100 * passes, wroteSinceLoad := true, x := estBits (100 * passes), eom := false
      index := s.med.index.filter (·.dsn < d), epochs := s.med.epochs.filter (·.dsn < d)
      wrapFirst := match s.med.wrapFirst.filter (· ≤ d) with
        | [] => [0]
        | l => l }
    rd := { s.rd with dsNow := none, cur := none, recon := [], eodSeen := false } }

/-- TEST_COMPLETE (R502, R504, R505). -/
def testComplete (r : TestResult) (s : State) : State :=
  let w := s.diag.what
  let cut := s.diag.cut
  let passes := if cut then r.partialPass else s.diag.passes
  let s := match w with
    | .dram => dramTested s cut
    | .flash => flashTested s passes
    | .pattern => patternWritten s passes
    | _ => s
  let chs := r.perCh.foldl (fun (v : Vector Nat 64) (c : ChNo × Nat) => v.set c.1.val (sat 8 c.2) c.1.isLt) (Vector.replicate 64 0)
  let s := { s with diag := { s.diag with
    pass := passes, addr := r.addr, ch := if w == .loop || w == .pattern then chs else s.diag.ch } }
  let tag := s.diag.tag
  let s := diagEnd s r.errors r.ticks
  let name : DiagWhat → String
    | .dram => "DRAM"
    | .flash => "FLASH"
    | .loop => "LOOP"
    | .pattern => "PATTERN"
    | _ => ""
  match tag, cut with
  | some t, false => okWith s .adm t [fld "what" (name w), fnum "pass" passes, fnum "errors" r.errors, fnum "ticks" r.ticks]
  | _, _ => s

/-- TEST_COMPLETE. -/
def execTestComplete (r : TestResult) (s : State) : Host.Outcome State Fault Refusal :=
  actIf s (s.diag.running && s.diag.what != .cal) (testComplete r)

end Sys2Proof.Machine
end

