-- ==== Sys2Proof/Machine/Firmware.lean ====
section
/-! DEFINITION. The verbs of flash, firmware and confirmation windows: ACTIVATE, ARM, COMMIT, CONFIGS, CONFIRM, UPDATE (R175,
R176, R180, R181, R205-R209, R400, R408, R412-R417). -/

namespace Sys2Proof.Machine

open Sys2Proof

/-- An update target's name. -/
def targetName : Target → String
  | .a => "A"
  | .b => "B"
  | .stage1 => "STAGE1"

/-- A firmware slot's name. -/
def slotName : Slot → String
  | .a => "A"
  | .b => "B"

/-- BADARG `key=image` with `hdr=` (R175, R207, R413). -/
def imageBad (hdr : String) : Outc := failWhy .badarg "form" [fld "key" "image", fld "hdr" hdr]

/-! ### Images (R412, R413) -/

/-- The header's CRC, MAGIC and HDR_VER. -/
def hdrCrcOk (h : List Byte) : Bool :=
  beField h 508 4 == (crc32 (h.take 508)).toNat && beField h 0 4 == 0x54463634 && beField h 4 1 == 1

/-- TARGET, MIN_REV and KEY_ID. -/
def hdrTargetOk (h : List Byte) (t : Target) : Bool :=
  beField h 5 1 == (if t == .stage1 then 2 else 1) && decide (beField h 7 1 ≤ 0xB1) && decide (beField h 6 1 ≤ 1)

/-- BODY_LEN and ENTRY. -/
def hdrSizeOk (h : List Byte) (len : Nat) : Bool :=
  beField h 16 4 + 512 == len && decide (beField h 20 4 < beField h 16 4)

/-- The first check of R413 that a header fails; `sigOk` is the signature's verdict. -/
def hdrFails (h : List Byte) (t : Target) (len : Nat) (sigOk : Bool) : Option String :=
  if !hdrCrcOk h then some "crc"
  else if !hdrTargetOk h t then some "target"
  else if !hdrSizeOk h len then some "size"
  else if !sigOk then some "sig"
  else none

/-- The body's digest. -/
def digestOk (img : List Byte) : Bool := sha256 (img.drop 512) == slice img 24 32

/-- Replaces the image of a region. -/
def putImage (s : State) (t : Target) (i : Image) : State :=
  match t with
  | .a => { s with fl := { s.fl with a := i } }
  | .b => { s with fl := { s.fl with b := i } }
  | .stage1 => { s with fl := { s.fl with stage1 := i } }

/-- The slot as an update target. -/
def slotTarget : Slot → Target
  | .a => .a
  | .b => .b

/-! ### ACTIVATE (R175, R417) -/

/-- The first check that a slot fails for ACTIVATE; a factory image passes those of its bytes (log 6). -/
def slotFails (s : State) (x : Slot) (sigOk : Bool) : Option String :=
  let i := imageOf s x
  if !targetValid s (slotNo x) then some "empty"
  else if i.factory then (if sigOk then none else some "sig")
  else if i.bytes.length < 512 then some "empty"
  else if !hdrCrcOk (i.bytes.take 512) then some "crc"
  else if !digestOk i.bytes then some "digest"
  else if !sigOk then some "sig"
  else none

/-- ACTIVATE's effect: once flash work has ended, SELECT is appended and the core restarts at the next boundary. -/
def activateVerb (x : Slot) (sigOk : Bool) (t : Nat) (s : State) : State :=
  match slotFails s x sigOk with
  | some h => complete s .adm t (imageBad h)
  | none =>
    if flashBusy s then modEntry s .adm t fun e => { e with begun := false }
    else
      let v := imgVersion (imageOf s x) (slotNo x)
      let trial := if slotConfirmed s x then 0 else 2
      let s := appendLog s .boot { type := 0x10, arg := slotNo x + trial, value := v }
      okWith { s with pw := { s.pw with restartPend := true } } .adm t [fld "slot" (slotName x), fld "fw" (fwStr v)]

/-- ACTIVATE. -/
def execActivate (tag : Option Nat) (slot : Slot) (sigOk : Bool) (s : State) : Host.Outcome State Fault Refusal :=
  verbRow .adm tag (.activate slot) (activateVerb slot sigOk) s

/-! ### ARM and CONFIRM (R176, R180, R181) -/

/-- An action's name. -/
def ArmAction.name : ArmAction → String
  | .stage1 => "STAGE1"
  | .kek => "KEK"

/-- The characters of a code. -/
def codeChars : List Char := "ABCDEFGHIJKLMNOPQRSTUVWXYZ23456789".toList

/-- Six characters from the entropy source. -/
def drawCode (s : State) : String × State :=
  (String.ofList ((List.range 6).map fun i => codeChars.getD (Config.entropy (s.free + i) % 34) 'A'), { s with free := s.free + 6 })

/-- ARM's effect: a later ARM replaces an earlier one. -/
def armVerb (a : ArmAction) (t : Nat) (s : State) : State :=
  let (code, s) := drawCode s
  let w := pnat s .armTicks
  okWith { s with svc := { s.svc with arm := some (a, code, s.clk.ptc + BitVec.ofNat 64 w) } } .adm t
    [fld "action" (ArmAction.name a), fld "code" code, fnum "ticks" w]

/-- ARM. -/
def execArm (tag : Option Nat) (action : ArmAction) (s : State) : Host.Outcome State Fault Refusal :=
  verbRow .adm tag (.arm action) (armVerb action) s

/-- A window that has lapsed. -/
def lapsed (s : State) (till : W64) : Bool := decide (till.toNat ≤ now s)

/-- ARM_EXPIRY (R176, R181): what has been open for `service.arm_ticks` ticks lapses. -/
def armExpiry (s : State) : State :=
  { s with svc := { s.svc with
      arm := s.svc.arm.filter fun a => !lapsed s a.2.2
      confirm := s.svc.confirm.filter fun c => !lapsed s c.2 } }

/-- ARM_EXPIRY. -/
def execArmExpiry (s : State) : Host.Outcome State Fault Refusal := act s armExpiry

/-- The window that CONFIRM has enabled for an action is open (R181). -/
def windowOpen (s : State) (a : ArmAction) : Bool :=
  match s.svc.confirm with
  | some (b, till) => a == b && !lapsed s till
  | none => false

/-- The action's first use closes the window (R181). -/
def useWindow (s : State) : State := { s with svc := { s.svc with confirm := none } }

/-- CONFIRM's effect. -/
def confirmVerb (a : ArmAction) (code : String) (t : Nat) (s : State) : State :=
  if (entryOf s .adm t).all (·.tr != .console) then complete s .adm t (failWhy .denied "transport")
  else
    let good := match s.svc.arm with
      | some (b, c, till) => a == b && c == code && !lapsed s till
      | none => false
    let s := { s with svc := { s.svc with arm := none } }
    if good then
      let w := pnat s .armTicks
      okWith { s with svc := { s.svc with confirm := some (a, s.clk.ptc + BitVec.ofNat 64 w) } } .adm t
        [fld "action" (ArmAction.name a), fnum "ticks" w]
    else complete s .adm t (failWhy .denied "confirm")

/-- CONFIRM. -/
def execConfirm (tag : Option Nat) (action : ArmAction) (code : String) (s : State) : Host.Outcome State Fault Refusal :=
  verbRow .adm tag (.confirm action code) (confirmVerb action code) s

/-! ### COMMIT and CONFIGS (R408, R409) -/

/-- COMMIT. -/
def execCommit (tag : Option Nat) (note : String) (s : State) : Host.Outcome State Fault Refusal :=
  verbRow .adm tag (.commit note) (fun _ s => commitStart s) s

/-- Puts a record in descending order of version. -/
def insVersion (c : CfgRec) : List CfgRec → List CfgRec
  | [] => [c]
  | d :: t => if d.version < c.version then c :: d :: t else d :: insVersion c t

/-- One version's fields. -/
def configFields (s : State) (c : CfgRec) : List Fld :=
  [fnum "cfg" c.version, fnum "parent" c.parent, fld "fw" (fwStr c.fw), fnum "ptc" c.ptc.toNat, fld "sid" (sidStr c.session),
   fnum "cur" (if c.version = s.cfg.version then 1 else 0)]

/-- CONFIGS' effect: one line a version, newest first. -/
def configsVerb (ch : Chan) (t : Nat) (s : State) : State :=
  match s.fl.cfgs.foldr insVersion [] with
  | [] => okWith s ch t []
  | c :: l => okWith s ch t (configFields s c) (l.map (configFields s))

/-- CONFIGS. -/
def execConfigs (ch : Chan) (tag : Option Nat) (s : State) : Host.Outcome State Fault Refusal :=
  verbRow ch tag .configs (configsVerb ch) s

/-! ### UPDATE (R205-R209, R414) -/

/-- Ends the session in failure; the target stays invalid. -/
def updateFails (s : State) (t : Nat) (hdr : String) : State :=
  complete { s with svc := { s.svc with upd := none, updState := 2 } } .adm t (imageBad hdr)

/-- Sectors of a target's region that BEGIN erases (R414). -/
def beginSectors (t : Target) : List Nat :=
  if t == .stage1 then List.range 64 else [targetBase t / 4096]

/-- The bytes of a target's region are gone, and every bit that a program had cleared there is set again. -/
def emptyTarget (s : State) (t : Target) : State :=
  let lo := targetBase t
  let hi := lo + (if t == .stage1 then 0x40000 else 0x1000000)
  let s := putImage s t { factory := false }
  { s with fl := { s.fl with cells := { cells := s.fl.cells.cells.filter fun c => c.1 < lo || hi ≤ c.1 }
                             blank := s.fl.blank.filter fun k => 4096 * k < lo || hi ≤ 4096 * k } }

/-- A target that is the running slot or the one held for fallback (R208, R415). -/
def slotInUse (s : State) (x : Target) : Bool :=
  [runningSlot s, heldSlot s].any fun o => (o.map slotTarget) == some x

/-- UPDATE `op=BEGIN` (R208, R414, R415): it completes when the erases that it asks for have ended. -/
def updateBegin (x : Target) (len : Nat) (t : Nat) (s : State) : State :=
  if slotInUse s x then complete s .adm t (failWhy .badarg "range" [fld "key" "target"])
  else if x == Target.stage1 && !windowOpen s .stage1 then complete s .adm t (failWhy .denied "confirm")
  else
    let s := if x == Target.stage1 then useWindow s else s
    let s := appendLog s .boot { type := 0x16, arg := targetNo x, value := 0 }
    let s := emptyTarget s x
    let s := { s with svc := { s.svc with upd := some { target := x, len := len }, updState := 1, nextOff := 0 } }
    (beginSectors x).foldl startErase s

/-- UPDATE `op=BEGIN`. -/
def execUpdateBegin (tag : Option Nat) (target : Target) (len : Nat) (s : State) : Host.Outcome State Fault Refusal :=
  verbRow .adm tag (.updateBegin target len) (updateBegin target len) s

/-- The parts of an address range that lie in one sector each: first address and length. -/
def sectorParts : Nat → Nat → Nat → List (Nat × Nat)
  | 0, _, _ => []
  | fuel + 1, lo, hi =>
    if hi ≤ lo then []
    else
      let e := min hi ((lo / 4096 + 1) * 4096)
      (lo, e - lo) :: sectorParts fuel e hi

/-- Where an image's bytes are staged in DRAM: 128 MiB beyond the pool (log 31). -/
def stageBase (s : State) : Nat := s.pool.total * 65536 + 0x8000000

/-- The descriptors that program an image from `lo` to `hi`: every later sector is erased before its first word (R400, R414). -/
def imageDescs (s : State) (x : Target) (lo hi : Nat) : List Desc :=
  (sectorParts (hi / 4096 + 2) lo hi).flatMap fun (a, n) =>
    let f := targetBase x + a
    let p : Desc := { op := 2, faddr := f, daddr := stageBase s + a, len := n }
    if x != .stage1 && a % 4096 = 0 && a ≠ 0 then [{ op := 3, faddr := f, daddr := 0, len := 1 }, p] else [p]

/-- Appends bytes to the image (R206, R207): they are staged, the header is checked once it is whole, and the descriptors that
program them are queued. -/
def updateAppend (key : String) (off : Nat) (d : List Byte) (sigOk : Bool) (t : Nat) (s : State) : State :=
  match s.svc.upd with
  | none => complete s .adm t (failWhy .badarg "range" [fld "key" "off", fnum "next" s.svc.nextOff])
  | some u =>
    if off ≠ s.svc.nextOff then complete s .adm t (failWhy .badarg "range" [fld "key" "off", fnum "next" s.svc.nextOff])
    else if u.len < off + d.length then complete s .adm t (failWhy .badarg "range" [fld "key" key])
    else
      let u := { u with bytes := u.bytes ++ d }
      let whole := !u.hdrOk && 512 ≤ u.bytes.length
      match if whole then hdrFails (u.bytes.take 512) u.target u.len sigOk else none with
      | some h => updateFails s t h
      | none =>
        let hi := off + d.length
        let u := { u with hdrOk := u.hdrOk || whole, work := u.work ++ imageDescs s u.target (off / 4 * 4) (hi / 4 * 4) }
        let s := dramWrite s (stageBase s + off) d
        updateProgress (refillQueue { s with svc := { s.svc with upd := some u, nextOff := hi } })

/-- UPDATE `op=DATA`. -/
def execUpdateData (tag : Option Nat) (off : Nat) (d : List Byte) (sigOk : Bool) (s : State) : Host.Outcome State Fault Refusal :=
  verbRow .adm tag (.updateData off d) (updateAppend "d" off d sigOk) s

/-- UPDATE `op=DMA`: from the PF0 rings only; it acts once the DMA has brought its bytes. -/
def updateDma (off len : Nat) (d : List Byte) (sigOk : Bool) (t : Nat) (s : State) : State :=
  if (entryOf s .adm t).all (·.tr != .pf0) then complete s .adm t (failWhy .denied "transport")
  else if d.length ≠ len then modEntry s .adm t fun e => { e with begun := false }
  else updateAppend "sg" off d sigOk t s

/-- UPDATE `op=DMA`. -/
def execUpdateDma (tag : Option Nat) (off addr len : Nat) (d : List Byte) (sigOk : Bool) (s : State) :
    Host.Outcome State Fault Refusal :=
  verbRow .adm tag (.updateDma off addr len) (updateDma off len d sigOk) s

/-- UPDATE `op=END` (R413, R414): VALID is appended once every check passes. -/
def updateEnd (sigOk : Bool) (t : Nat) (s : State) : State :=
  match s.svc.upd with
  | none => complete s .adm t (imageBad "size")
  | some u =>
    if u.bytes.length ≠ u.len then updateFails s t "size"
    else if !digestOk u.bytes then updateFails s t "digest"
    else if !sigOk then updateFails s t "sig"
    else
      let v := beField u.bytes 8 4
      let s := putImage s u.target { factory := false, bytes := u.bytes, version := v, schema := beField u.bytes 12 4 }
      let s := appendLog s .boot { type := 0x17, arg := targetNo u.target, value := v }
      okWith { s with svc := { s.svc with upd := none, updState := 3 } } .adm t
        [fld "target" (targetName u.target), fld "fw" (fwStr v)]

/-- UPDATE `op=END`. -/
def execUpdateEnd (tag : Option Nat) (sigOk : Bool) (s : State) : Host.Outcome State Fault Refusal :=
  verbRow .adm tag .updateEnd (updateEnd sigOk) s

/-- UPDATE `op=CANCEL`: the session ends and the target stays invalid; a stage-1 update that is cancelled leaves a unit that no later
command can make boot (R209). -/
def updateCancel (t : Nat) (s : State) : State :=
  let lost := (s.svc.upd.map fun u => u.target == .stage1).getD false
  okWith { s with svc := { s.svc with upd := none, updState := 0 }, fl := { s.fl with noBoot := s.fl.noBoot || lost } } .adm t []

/-- UPDATE `op=CANCEL`. -/
def execUpdateCancel (tag : Option Nat) (s : State) : Host.Outcome State Fault Refusal :=
  verbRow .adm tag .updateCancel updateCancel s

end Sys2Proof.Machine
end

