-- ==== Sys2Proof/Machine/Keys.lean ====
section
/-! DEFINITION. KEY and SEAL (R185-R188, R197, R255, R256, R416). -/

namespace Sys2Proof.Machine

open Sys2Proof

/-- Changes what is staged for a key slot. -/
def modStage (s : State) (k : Fin 16) (f : List (Nat × W64) → List (Nat × W64)) : State :=
  { s with keys := { s.keys with stage := s.keys.stage.set k.val (f s.keys.stage[k]) k.isLt } }

/-- Replaces a key slot. -/
def putSlot (s : State) (k : Fin 16) (v : Option (List Byte)) : State :=
  { s with keys := { s.keys with slots := s.keys.slots.set k.val v k.isLt } }

/-- The bytes of staged parts `0` to `n - 1`, first byte first; none when one is missing. -/
def partsBytes (n : Nat) (l : List (Nat × W64)) : Option (List Byte) :=
  ((List.range n).mapM fun i => look i l).map fun ws => ws.flatMap fun w => beBytes 8 w.toNat

/-- The sealed saddles bound to a key slot that hold girths waiting for sealing (R188). -/
def slotHolders (s : State) (k : Fin 16) : List SadNo :=
  allSads.filter fun n =>
    sealedOn s n && pnat s .sealSlot n.val == k.val && !(s.sad[n].acked.isEmpty && s.sad[n].blk.bytes.isEmpty)

/-- KEY `op=PART` (R185). -/
def keyPart (k : Fin 16) (seq : Fin 9) (w : W64) (t : Nat) (s : State) : State :=
  okWith (modStage s k (put seq.val w)) .adm t [fnum "slot" k.val, fnum "seq" seq.val]

/-- KEY `op=PART`. -/
def execKeyPart (tag : Option Nat) (slot : Fin 16) (seq : Fin 9) (w : W64) (s : State) : Host.Outcome State Fault Refusal :=
  verbRow .adm tag (.keyPart slot seq w) (keyPart slot seq w) s

/-- A usable pair: its unwrap passes and its halves differ (R186, R255). -/
def loadedPair (s : State) (wrapped : List Byte) : Option (List Byte) :=
  match s.keys.kek with
  | some kek => (unwrap kek wrapped).filter fun p => p.take 32 != p.drop 32
  | none => none

/-- KEY `op=LOAD` (R185, R186, R188, R255); without a KEK the unwrap cannot pass (R416). -/
def keyLoad (k : Fin 16) (t : Nat) (s : State) : State :=
  match slotHolders s k with
  | [] =>
    match partsBytes 9 s.keys.stage[k] with
    | none => complete s .adm t (failWhy .badarg "missing" [fld "key" "seq"])
    | some b =>
      let s := modStage s k fun _ => []
      match loadedPair s b with
      | some p => okWith (putSlot s k (some p)) .adm t [fnum "slot" k.val, fld "kcv" (kcv p)]
      | none => complete s .adm t (failWhy .badarg "form" [fld "key" "w"])
  | l => complete s .adm t (busyMode l)

/-- KEY `op=LOAD`. -/
def execKeyLoad (tag : Option Nat) (slot : Fin 16) (s : State) : Host.Outcome State Fault Refusal :=
  verbRow .adm tag (.keyLoad slot) (keyLoad slot) s

/-- KEY `op=ZERO` (R185, R188). -/
def keyZero (k : Fin 16) (t : Nat) (s : State) : State :=
  match slotHolders s k with
  | [] => okWith (putSlot (modStage s k fun _ => []) k none) .adm t [fnum "slot" k.val]
  | l => complete s .adm t (busyMode l)

/-- KEY `op=ZERO`. -/
def execKeyZero (tag : Option Nat) (slot : Fin 16) (s : State) : Host.Outcome State Fault Refusal :=
  verbRow .adm tag (.keyZero slot) (keyZero slot) s

/-- The loaded key slots. -/
def loadedSlots (s : State) : List Nat := (List.range 16).filter fun k => (s.keys.slots.toList.getD k none).isSome

/-- KEY `op=LIST` (R185). -/
def keyList (t : Nat) (s : State) : State :=
  okWith s .adm t [fld "loaded" (natsStr (loadedSlots s)), fnum "kek" (if s.keys.kek.isSome then 1 else 0)]

/-- KEY `op=LIST`. -/
def execKeyList (tag : Option Nat) (s : State) : Host.Outcome State Fault Refusal := verbRow .adm tag .keyList keyList s

/-- KEY `op=KEK` (R187, R416): part 3 installs the KEK once, in both copies, and uses the window up. -/
def keyKek (seq : Fin 4) (w : W64) (t : Nat) (s : State) : State :=
  if s.keys.kek.isSome || s.fl.locked then complete s .adm t (failWhy .denied "readonly")
  else if !windowOpen s .kek then complete s .adm t (failWhy .denied "confirm")
  else
    let s := { s with keys := { s.keys with kekStage := put seq.val w s.keys.kekStage } }
    if seq.val < 3 then okWith s .adm t [fnum "seq" seq.val, fnum "kek" 0]
    else match partsBytes 4 s.keys.kekStage with
      | none => complete s .adm t (failWhy .badarg "missing" [fld "key" "seq"])
      | some b =>
        let s := useWindow { s with
          keys := { s.keys with kek := some b, kekStage := [] }
          fl := { s.fl with keyA := some b, keyB := some b, locked := true } }
        okWith s .adm t [fnum "seq" seq.val, fnum "kek" 1]

/-- KEY `op=KEK`. -/
def execKeyKek (tag : Option Nat) (seq : Fin 4) (w : W64) (s : State) : Host.Outcome State Fault Refusal :=
  verbRow .adm tag (.keyKek seq w) (keyKek seq w) s

end Sys2Proof.Machine
end

