-- ==== Sys2Proof/Machine/Settings.lean ====
section
/-! DEFINITION. SET and the verbs that change what parameters hold: SADDLE, PLAIT, SEAL and ROLLBACK (R72, R73, R83-R87, R101,
R123-R125, R133, R191, R192, R195-R198, R217, R218, R236, R411, R458). -/

namespace Sys2Proof.Machine

open Sys2Proof

/-! ### Checks of values -/

/-- A saddle is idle (R195); `own` is the command that asks. -/
def sadIdle (s : State) (n : SadNo) (own : Option Nat) : Bool :=
  let x := s.sad[n]
  x.q.entries.all (fun e => e.ended.isSome || own == some e.tag) && x.unsync.isEmpty && x.openDs.isNone && x.closed.isEmpty

/-- The parameters on which admission rests (R82-R84, R196). -/
def qosParam (i : PId) : Bool :=
  match i with
  | .sadClass | .sadRate | .codePolicy | .codeRatio | .plaitMode | .plaitFreeSlots | .plaitHeadroom | .plaitCoder => true
  | _ => false

/-- The coding parameters of a saddle (R196). -/
def codeParam (i : PId) : Bool :=
  match i with
  | .codePolicy | .codeRatio | .codeFormat | .codeLanes => true
  | _ => false

/-- The saddle of an instance number. -/
def sadNo (i : Nat) : SadNo := ⟨i % 8, Nat.mod_lt _ (by decide)⟩

/-- A window or a lead of a saddle that its cap would not hold (R218, R458). -/
def capBroken (s : State) (n : SadNo) : Bool :=
  let c := pnat s .poolCap n.val * 65536
  decide (c < window s n) || (match bindOf s n with
    | .sp p => decide (c < window s n + pnat s .leadMax p.val)
    | _ => false)

/-- The saddles on whose cap, window or lead a parameter bears (R218, R458). -/
def capSads (s : State) (p : Param) : List SadNo :=
  match p.id with
  | .ackWindow => allSads
  | .leadMax => allSads.filter fun n => match bindOf s n with
    | .sp q => q.val = p.i
    | _ => false
  | _ => [sadNo p.i]

/-- The floors and what they take of the shared pool (R217): `t` holds the new ones. A floor that goes down gives back what it held
in reserve. -/
def floorsBroken (s t : State) : Bool :=
  let most (u : State) (o : Fin 12) : Nat := max (heldBy s o) (floorOf u o)
  decide ((s.pool.total : Int) - 16384 < (sumL (owners.map (floorOf t)) : Nat)) ||
    decide (sharedFree s + (sumL (owners.map (most s)) : Nat) < (sumL (owners.map (most t)) : Nat))

/-- What is wrong with one new value, `t` holding all of a line's new values: a rule of R72, R73, R101, R217, R218, R236 or
R458. `own` is the command that asks. -/
def valueBad (s t : State) (own : Option Nat) (p : Param) : Option Outc :=
  let n := sadNo p.i
  let name := paramName p
  let range : Option Outc := some (failWhy .badarg "range" [fld "key" name])
  let rangeKey (k : String) : Option Outc := some (failWhy .badarg "range" [fld "key" k])
  if cfgVal s p = cfgVal t p then none
  else match p.id with
    | .sadBind =>
      let b := bindOf t n
      let taken := match b with
        | .sp _ | .console => allSads.any fun m => m != n && bindOf t m == b
        | _ => false
      let x := s.sad[n]
      if taken then range
      else if !x.unsync.isEmpty || x.q.entries.any (·.ended.isNone) || x.admitted ≠ 0 then some (busyMode [n])
      else none
    | .sadFollow =>
      match followOf t n with
      | some m => if m == n || (followOf t m).isSome || followed t n then range else none
      | none => none
    | .poolFloor | .mediaFloor => if floorsBroken s t then range else none
    | .poolCap => if pnat t .poolCap p.i < pnat t .poolFloor p.i || (capSads t p).any (capBroken t) then rangeKey name else none
    | .sadWindow | .ackWindow | .leadMax => if (capSads t p).any (capBroken t) then rangeKey name else none
    | .avsFloor | .avsCeiling => if pnat t .avsCeiling < pnat t .avsFloor then range else none
    | .codePolicy | .codeRatio | .codeFormat | .codeLanes =>
      if !sadIdle s n own then some (busyMode [n])
      else if !comboOk (policyOf t n) (fmtOf t n) (pnat t .codeRatio n.val) then rangeKey "ratio"
      else none
    | _ => none

/-- The new values in place; `pool.audit.run` is an order and not a value (R228). -/
def withValues (s : State) (l : List (Param × PVal)) : State :=
  l.foldl (fun s (p, v) => if p.id == .auditRun then s else cfgPut s p v) s

/-! ### What a new value does at once -/

/-- A change that reaches state beside the value: `s` is the state before, `t` the state with the values. A monitor's reading begins at
the next girth of the saddle that it comes to follow (DESIGN CHOICE, log 130). -/
def valueEffect (s : State) (t : State) (pv : Param × PVal) : State :=
  let p := pv.1
  let n := sadNo p.i
  match p.id with
  | .tickSource => selectSource t (pnat t .tickSource == 1)
  | .sadIrqTicks | .sadIrqCount =>
    modSad t n fun x => { x with irq := { x.irq with ticks := pnat t .sadIrqTicks n.val, count := pnat t .sadIrqCount n.val, pendTicks := none } }
  | .admIrqTicks | .admIrqCount =>
    { t with pcie := { t.pcie with irq := { t.pcie.irq with ticks := pnat t .admIrqTicks, count := pnat t .admIrqCount, pendTicks := none } } }
  | .sadFollow =>
    if followOf s n == followOf t n then t
    else match followOf t n with
      | some m => modSad t n fun x => { x with readPos := t.sad[m].next, monRefs := [], monData := [], lag := 0 }
      | none => modSad t n fun x => { x with monRefs := [], monData := [], lag := 0 }
  | .consoleBaud =>
    { t with fil := { t.fil with baudLeft := none, baudPend :=
        [9600, 19200, 38400, 57600, 115200, 230400, 460800, 921600, 1000000, 1500000, 2000000, 3000000][pnat t .consoleBaud]? } }
  | .sadLagMax => dropLagging t n
  | .auditRun => if PVal.toInt pv.2 == 1 then { t with pool := { t.pool with audRun := true } } else t
  | _ => t

/-- A refusal that names the argument it fails on (R133). -/
def nameArg (p : Param) (o : Outc) : Outc := if o.status == .busyMode then { o with fields := o.fields ++ [fld "key" (paramName p)] } else o

/-- Changes of values with their admission (R83, R87, R196): what came of it, with the new epoch where the plait changes. `name` names
the argument of a refusal. -/
def changeValues (name : Param → Outc → Outc) (s : State) (own : Option Nat) (l : List (Param × PVal)) :
    Except Outc (State × Option Nat) :=
  let t := withValues s l
  match l.findSome? fun (p, _) => (valueBad s t own p).map (name p) with
  | some o => .error o
  | none =>
    if l.any fun (p, _) => qosParam p.id && cfgVal s p != cfgVal t p then
      match admitPlait t with
      | none => .error { status := .deniedQos }
      | some pl =>
        let (t, ep) := takePlait t pl t.clk.ptc
        .ok (l.foldl (valueEffect s) t, ep)
    else .ok (l.foldl (valueEffect s) t, none)

/-- The saddles whose figures a refused admission names; each counts the DENIED.QOS reply (R94). -/
def countDenied (s : State) (l : List (Param × PVal)) : State :=
  (allSads.filter fun n => l.any fun (p, _) => sadParam p && p.i == n.val).foldl countDeny s

/-- The `epoch=` of a changed plait. -/
def epochField : Option Nat → List Fld
  | some e => [fnum "epoch" e]
  | none => []

/-! ### SET (R123-R125, R131, R133) -/

/-- A mode in which a parameter may be changed. -/
def changeable (m : Mode) (c : Changeable) : Bool :=
  match c with
  | .ro => false
  | .all => true
  | .modes l => l.contains m

/-- What refuses a SET outside the modes of a parameter (R72, R133): BUSY.MODE for a binding, DENIED for any other. -/
def modeBad (s : State) (p : Param) : Outc :=
  if p.id == .sadBind then nameArg p (busyMode [sadNo p.i])
  else failWhy .denied "mode" [fld "key" (paramName p), fld "mode" (Mode.name s.pw.mode)]

/-- SET at its boundary: the state after, and the outcome. -/
def doSet (s : State) (ch : Chan) (own : Option Nat) (l : List (Param × PVal)) : State × Outc :=
  match setScope ch own.isNone l with
  | .error (st, fs) => (s, { status := st, fields := fs })
  | .ok () =>
    match l.find? fun (p, _) => !changeable s.pw.mode (pspec p.id).modes with
    | some (p, _) => (s, modeBad s p)
    | none => match changeValues nameArg s own l with
      | .error o => (if o.status == .deniedQos then countDenied s l else s, o)
      | .ok (t, ep) => (t, { status := .ok, fields := epochField ep })

/-- A tagged SET executes: it applies at the boundary, in intake order with the untagged ones (R125). -/
def askSet (ch : Chan) (v : Verb) (t : Nat) (s : State) : State :=
  match entryOf s ch t with
  | some e => { s with fil := { s.fil with imm := s.fil.imm ++ [{ ch := ch, tr := e.tr, verb := v, seq := e.seq, tag := some t }] } }
  | none => s

/-- SET. -/
def execSet (ch : Chan) (tag : Option Nat) (pairs : List (Param × PVal)) (s : State) : Host.Outcome State Fault Refusal :=
  eitherRow ch tag (.set pairs) (askSet ch (.set pairs)) s

/-! ### SADDLE (R77, R195-R197) -/

/-- SADDLE `op=SET`'s arguments as parameters. -/
def sadSetPairs (n : SadNo) (a : SadSetArgs) : List (Param × PVal) :=
  let one (i : PId) (v : Option Int) : List (Param × PVal) := match v with
    | some x => [({ id := i, i := n.val }, .n x)]
    | none => []
  one .sadClass (a.cls.map fun
    | .rate => 0
    | .share => 1
    | .idle => 2) ++
  one .sadRate (a.rate.map Int.ofNat) ++ one .sadWeight (a.weight.map Int.ofNat) ++
  one .codePolicy (a.policy.map fun
    | .pass => 0
    | .bound => 1
    | .fit => 2) ++
  one .codeRatio (a.ratio.map Int.ofNat) ++
  one .codeFormat (a.format.map fun
    | .none => 0
    | .s16 => 1
    | .s24 => 2
    | .s32 => 3) ++
  one .codeLanes (a.lanes.map Int.ofNat)

/-- A saddle state's name. -/
def SadState.name : SadState → String
  | .closed => "CLOSED"
  | .opened => "OPEN"
  | .hold => "HOLD"

/-- A class's name. -/
def QosClass.name : QosClass → String
  | .rate => "RATE"
  | .share => "SHARE"
  | .idle => "IDLE"

/-- SADDLE's reply fields. -/
def saddleFields (s : State) (n : SadNo) (ep : Option Nat) : List Fld :=
  [fld "state" (SadState.name s.sad[n].st), fld "class" (QosClass.name (classOf s n)), fnum "rate" (pnat s .sadRate n.val)] ++ epochField ep

/-- A class or coding change at its boundary. -/
def doSaddleSet (s : State) (ch : Chan) (own : Option Nat) (n : SadNo) (a : SadSetArgs) : State × Outc :=
  let mine := if ch == .sad n then own else none
  match changeValues (fun _ o => o) s mine (sadSetPairs n a) with
  | .error o => (if o.status == .deniedQos then countDeny s n else s, o)
  | .ok (t, ep) => (t, { status := .ok, fields := saddleFields t n ep })

/-- SADDLE `op=SET`: all its changes apply at one boundary, or none. -/
def execSaddleSet (ch : Chan) (tag : Option Nat) (n : SadNo) (a : SadSetArgs) (s : State) : Host.Outcome State Fault Refusal :=
  verbRow ch tag (.saddleSet n a) (askSet ch (.saddleSet n a)) s

/-- A saddle opens, with every credit at 0 (R91), or closes: the plait follows by admission, and a refusal leaves everything as it was. -/
def moveSaddle (s : State) (n : SadNo) (st : SadState) (t : Nat) : State :=
  let u := modSad s n fun x =>
    if st == .opened then { x with st := st, credits := Vector.replicate 8 0, freeCredit := 0 } else { x with st := st }
  match admitPlait u with
  | none => complete (countDeny s n) .adm t { status := .deniedQos }
  | some p =>
    let (u, ep) := takePlait u p u.clk.ptc
    okWith u .adm t (saddleFields u n ep)

/-- SADDLE `op=OPEN` (R197). -/
def saddleOpen (n : SadNo) (t : Nat) (s : State) : State :=
  if bindOf s n == .none then complete s .adm t (failWhy .denied "unbound")
  else if s.sad[n].st != .closed then okWith s .adm t (saddleFields s n none)
  else moveSaddle s n .opened t

/-- SADDLE `op=OPEN`. -/
def execSaddleOpen (tag : Option Nat) (n : SadNo) (s : State) : Host.Outcome State Fault Refusal :=
  verbRow .adm tag (.saddleOpen n) (saddleOpen n) s

/-- SADDLE `op=CLOSE` (R197): the saddle must be idle; its owned slots are released. -/
def saddleClose (n : SadNo) (t : Nat) (s : State) : State :=
  if !sadIdle s n none then complete s .adm t (busyMode [n])
  else moveSaddle s n .closed t

/-- SADDLE `op=CLOSE`. -/
def execSaddleClose (tag : Option Nat) (n : SadNo) (s : State) : Host.Outcome State Fault Refusal :=
  verbRow .adm tag (.saddleClose n) (saddleClose n) s

/-! ### SEAL (R198) -/

/-- SEAL's effect: the binding and the switch, for an idle saddle. An empty slot's `kcv=` reads none (DESIGN CHOICE, log 132). -/
def sealVerb (n : SadNo) (on : Bool) (slot : Option (Fin 16)) (t : Nat) (s : State) : State :=
  let loaded (k : Fin 16) : Bool := s.keys.slots[k].isSome
  if !sadIdle s n none then complete s .adm t (busyMode [n])
  else if on && !(slot.map loaded).getD false then complete s .adm t (failWhy .badarg "range" [fld "key" "slot"])
  else
    let s := cfgPut s { id := .sealOn, i := n.val } (.n (if on then 1 else 0))
    let s := match slot with
      | some k => cfgPut s { id := .sealSlot, i := n.val } (.n k.val)
      | none => s
    let k := pnat s .sealSlot n.val
    okWith s .adm t ([fnum "sealed" (if on then 1 else 0), fnum "slot" k] ++ (match s.keys.slots.toList.getD k none with
      | some p => [fld "kcv" (kcv p)]
      | none => [fld "kcv" "none"]))

/-- SEAL. -/
def execSeal (tag : Option Nat) (n : SadNo) (on : Bool) (slot : Option (Fin 16)) (s : State) : Host.Outcome State Fault Refusal :=
  verbRow .adm tag (.seal n on slot) (sealVerb n on slot) s

/-! ### PLAIT (R191, R192) -/

/-- A slot element as PLAIT writes it. -/
def elName : SlotEl → String
  | .owner n => toString n.val
  | .free => "F"
  | .fill => "X"

/-- PLAIT `op=SHOW`. -/
def plaitShow (ch : Chan) (start n t : Nat) (s : State) : State :=
  let p := s.med.plait
  let l := (p.slots.drop start).take n
  okWith s ch t [fnum "epoch" p.epoch, fnum "length" p.slots.length, fld "mode" (if p.manual then "MANUAL" else "AUTO")]
    ((parts 32 l).zipIdx.map fun (x, i) => [fnum "at" (start + 32 * i), fld "slots" (listStr (x.map elName))])

/-- PLAIT `op=SHOW`. -/
def execPlaitShow (ch : Chan) (tag : Option Nat) (start n : Nat) (s : State) : Host.Outcome State Fault Refusal :=
  verbRow ch tag (.plaitShow start n) (plaitShow ch start n) s

/-- PLAIT `op=PUT`: a list that runs past position 255 is out of range. -/
def plaitPut (pos : Nat) (els : List SlotEl) (t : Nat) (s : State) : State :=
  if 256 < pos + els.length then complete s .adm t (failWhy .badarg "range" [fld "key" "list"])
  else
    let l := els.zipIdx.foldl (fun l (e, i) => put (pos + i) e l) s.med.staged
    okWith { s with med := { s.med with staged := l } } .adm t [fnum "staged" l.length]

/-- PLAIT `op=PUT`. -/
def execPlaitPut (tag : Option Nat) (pos : Nat) (els : List SlotEl) (s : State) : Host.Outcome State Fault Refusal :=
  verbRow .adm tag (.plaitPut pos els) (plaitPut pos els) s

/-- The staged list, when it runs contiguously from 0. -/
def stagedList (s : State) : Option (List SlotEl) :=
  let l := s.med.staged
  if l.isEmpty then none else (List.range l.length).mapM fun i => look i l

/-- Puts an admitted plait in force with its mode; the staged slots go. -/
def adoptPlait (s : State) (manual : Bool) (p : Plait) : State × Nat :=
  let s := cfgPut s { id := .plaitMode } (.n (if manual then 1 else 0))
  let (s, ep) := takePlait { s with med := { s.med with staged := [] } } p s.clk.ptc
  (s, ep.getD (lastPlait s).epoch)

/-- PLAIT `op=APPLY`. -/
def plaitApply (t : Nat) (s : State) : State :=
  match stagedList s with
  | none => complete s .adm t (failWhy .badarg "missing" [fld "key" "list"])
  | some l =>
    match manualPlait s l with
    | none => complete s .adm t { status := .deniedQos }
    | some p =>
      let (s, ep) := adoptPlait s true p
      okWith s .adm t [fnum "epoch" ep, fnum "length" p.slots.length]

/-- PLAIT `op=APPLY`. -/
def execPlaitApply (tag : Option Nat) (s : State) : Host.Outcome State Fault Refusal := verbRow .adm tag .plaitApply plaitApply s

/-- PLAIT `op=AUTO`. -/
def plaitAuto (t : Nat) (s : State) : State :=
  match autoPlait s with
  | none => complete s .adm t { status := .deniedQos }
  | some p =>
    let (s, ep) := adoptPlait s false p
    okWith s .adm t [fnum "epoch" ep, fld "v_plan" (fixedStr 2 (vPlan p))]

/-- PLAIT `op=AUTO`. -/
def execPlaitAuto (tag : Option Nat) (s : State) : Host.Outcome State Fault Refusal := verbRow .adm tag .plaitAuto plaitAuto s

/-! ### ROLLBACK (R411) -/

/-- Every parameter that COMMIT stores, at its value in a record or at its default. -/
def recordPairs (c : CfgRec) : List (Param × PVal) :=
  (allParams.filter fun p => (pspec p.id).persist == .commit).map fun p => (p, (look p c.body).getD (pspec p.id).default)

/-- The values of a record in force, no uncommitted one left. -/
def withRecord (s : State) (c : CfgRec) : State :=
  { s with cfg := { s.cfg with committed := c.body, uncommitted := [], version := c.version, parent := c.parent } }

/-- The kept record that a ROLLBACK names, when the running image can read it. -/
def rollbackRec (s : State) (v : Nat) : Option CfgRec :=
  let run := (runningSlot s).getD .a
  s.fl.cfgs.find? fun c => c.version == v && decide (c.schema ≤ imgSchema (imageOf s run) (slotNo run))

/-- ROLLBACK at its boundary (R6, R411): the state after, and the outcome. -/
def doRollback (s : State) (target : Option Nat) : State × Outc :=
  let v := target.getD s.cfg.parent
  match rollbackRec s v with
  | none => (s, failWhy .badarg "range" [fld "key" "to"])
  | some c =>
    let u := withRecord s c
    let l := (recordPairs c).filter fun (p, _) => cfgVal s p != cfgVal u p
    match l.findSome? fun (p, _) => valueBad s u none p with
    | some o => (s, o)
    | none =>
      match admitPlait u with
      | none => (countDenied s l, { status := .deniedQos })
      | some pl =>
        let u := l.foldl (valueEffect s) (takePlait u pl u.clk.ptc).1
        (appendLog u .select { type := 0x20, arg := 1, value := v }, { status := .ok, fields := [fnum "cfg" v] })

/-- ROLLBACK executes: a record that is not kept is refused, and any other applies at the boundary, in order with the SETs. -/
def rollbackVerb (target : Option Nat) (t : Nat) (s : State) : State :=
  if (rollbackRec s (target.getD s.cfg.parent)).isNone then complete s .adm t (failWhy .badarg "range" [fld "key" "to"])
  else askSet .adm (.rollback target) t s

/-- ROLLBACK. -/
def execRollback (tag : Option Nat) (target : Option Nat) (s : State) : Host.Outcome State Fault Refusal :=
  verbRow .adm tag (.rollback target) (rollbackVerb target) s

end Sys2Proof.Machine
end

