-- ==== Sys2Proof/Machine/Flags.lean ====
section
/-! DEFINITION. What the status registers and the read-only parameters show: every field of every register of BAR0 (R429, R501
and the register tables of files 01 to 18). -/

namespace Sys2Proof.Machine

open Sys2Proof

/-- A bit as a number. -/
def b2n (b : Bool) : Nat := if b then 1 else 0

/-- A register from its fields: lowest bit and value. -/
def fields (l : List (Nat × Nat)) : Nat := l.foldl (fun a (lo, v) => a + v * 2 ^ lo) 0

/-- A register that is a set of bits. -/
def bitSet (l : List Nat) : Nat := l.eraseDups.foldl (fun a k => a + 2 ^ k) 0

/-- Two halves, each saturating at 0xFFFF. -/
def halves (lo hi : Nat) : Nat := fields [(0, sat 16 lo), (16, sat 16 hi)]

/-! ### File 01: the tick -/

/-- TICK_STAT. -/
def tickStat (s : State) : Nat :=
  fields [(0, b2n s.tk.ftick), (1, b2n s.tk.locked), (2, b2n s.tk.flywheel), (3, b2n s.tk.range), (4, b2n s.tk.slewing),
    (8, min 2 s.tk.ovrRun)]

/-! ### File 02: modes and power -/

/-- MODE_STAT; while the part is held in reset it reads its reset value. -/
def modeStat (s : State) : Nat :=
  if s.clk.porst || s.clk.uv then 1 else
  fields [(0, Mode.code s.pw.mode), (4, Mode.code s.pw.target), (8, b2n s.pw.devReady), (16, HaltCause.code s.pw.cause)]

/-- DOMAIN_STAT: a bit for every domain with power. -/
def domainStat (s : State) : Nat :=
  let d := s.pw.dom
  fields ([d.aon, d.host, d.dram, d.codec, d.write, d.read, d.motion, d.flash].zipIdx.map fun (x, i) => (i, b2n (x != .off)))

/-- AVS_STAT. -/
def avsStat (s : State) : Nat :=
  fields [(0, s.pw.avs.vset), (12, s.pw.clk), (15, b2n (s.pw.avs.offBit || s.pw.avs.frozen)), (16, b2n s.pw.avs.ceil)]

/-- PWR_STAT. -/
def pwrStat (s : State) : Nat :=
  fields [(0, b2n s.pw.pf.recognised), (1, b2n s.pw.pf.flushDone), (2, b2n s.pw.pf.pfRecord), (3, b2n (flashBusy s))]

/-! ### Files 03, 05 and 08: a saddle's blocks -/

/-- SAD_CFG. -/
def sadCfg (s : State) (n : SadNo) : Nat :=
  fields [(0, pnat s .sadBind n.val), (4, pnat s .sadClass n.val), (6, pnat s .codePolicy n.val), (8, pnat s .codeRatio n.val),
    (11, b2n (pbool s .sealOn n.val)), (12, pnat s .sealSlot n.val), (16, match followOf s n with
      | some m => m.val
      | none => 15)]

/-- SAD_STAT's STATE. -/
def sadState (x : Saddle) : Nat :=
  if x.reset.isSome then 3
  else match x.st with
    | .closed => 0
    | .opened => 1
    | .hold => 2

/-- SAD_STAT. -/
def sadStat (s : State) (n : SadNo) : Nat :=
  let x := s.sad[n]
  fields [(0, sadState x), (3, b2n x.winFull), (4, b2n (x.admitted ≠ 0)), (5, x.q.entries.length), (16, WaitWhy.code x.why)]

/-- A coalescing register (R80). -/
def coalReg (q : Irq) : Nat := fields [(0, q.ticks - 1), (8, q.count - 1)]

/-- Q_STAT. -/
def qStat (s : State) (n : SadNo) : Nat :=
  let x := s.sad[n]
  let head := oldest s (.sad n)
  fields [(0, b2n (x.st == .hold)), (1, DefCause.code x.cause), (4, b2n (x.drain ≠ 0)), (5, (head.map (·.tag)).getD 0),
    (10, b2n head.isSome)]

/-- CODE_STAT. -/
def codeStat (x : Saddle) : Nat := fields [(0, x.maxK), (4, b2n x.sealWait)]

/-- The 64-bit counters of a saddle, by the offset of their low half. -/
def sadPair (s : State) (n : SadNo) (o : Nat) : Option Nat :=
  let x := s.sad[n]
  match o with
  | 0x210 => some x.cnt.wait
  | 0x218 => some x.cnt.slots
  | 0x238 => some (unsyncBytes x)
  | 0x240 => some x.cnt.lossy
  | _ => none

/-- A saddle's 4 B registers that are no half of a pair, by their offset in a VF window. -/
def sadReg (s : State) (n : SadNo) (o : Nat) : Nat :=
  let x := s.sad[n]
  match o with
  | 0x200 => sadCfg s n
  | 0x204 => sadStat s n
  | 0x208 => bitSet x.irq.cause
  | 0x20C => coalReg x.irq
  | 0x220 => x.cnt.miss
  | 0x224 => halves x.cnt.refQ x.cnt.refP
  | 0x228 => x.cnt.deny
  | 0x22C => x.cnt.stretch
  | 0x230 => bitSet (x.q.entries.map (·.tag))
  | 0x234 => qStat s n
  | 0x248 => x.cnt.fitpass
  | 0x24C => x.cnt.malf
  | 0x250 => x.cnt.sealSkip
  | 0x254 => codeStat x
  | 0x258 => x.cnt.hole
  | _ => 0

/-- Which saddle block a function's window shows at an offset (R429), and the offset in the VF window. -/
def sadAt (f : FnNo) (off : Nat) : Option (SadNo × Nat) :=
  match sadOfFn f with
  | some n => if 0x200 ≤ off && off < 0x260 then some (n, off) else none
  | none =>
    if 0x400 ≤ off && off < 0x600 then some (sadNo ((off - 0x400) / 0x40), 0x200 + (off - 0x400) % 0x40)
    else if 0x600 ≤ off && off < 0x700 then some (sadNo ((off - 0x600) / 0x20), 0x240 + (off - 0x600) % 0x20)
    else none

/-! ### Files 04 to 11: the chip's registers below 0x0200 -/

/-- CON_STAT. -/
def conStat (s : State) : Nat :=
  fields [(0, b2n s.fil.conFault), (1, b2n s.fil.conBreak), (2, b2n s.fil.conRestored), (3, b2n (s.fil.con.mode == .generated))]

/-- POOL_STAT. -/
def poolStat (s : State) : Nat :=
  fields [(0, b2n s.pool.audRun), (1, b2n s.pool.audDone), (2, b2n s.pool.leak), (3, b2n s.pool.audCont),
    (4, b2n (sharedFree s ≤ 0 && s.pool.total ≠ 0))]

/-- KEY_STAT. -/
def keyStat (s : State) : Nat := bitSet (loadedSlots s) + 65536 * b2n s.keys.kek.isSome

/-- The data set under the head, where it is known: the frame on the lanes, the append point, or the one being read. -/
def tapeDs (s : State) : Option Nat :=
  match s.med.lane with
  | .frame d => some d
  | .idle => if s.med.positioned then some s.med.append else s.rd.dsNow

/-- TAPE_WRAP. -/
def tapeWrap (s : State) : Nat := fields [(0, wrapNow s), (8, b2n (wrapRev (wrapNow s)))]

/-- LOC_STAT. -/
def locStat (s : State) : Nat := fields [(0, s.rd.locMethod), (8, sat 8 s.rd.locProbes)]

/-- WR_STAT. -/
def wrStat (s : State) : Nat :=
  fields [(0, bitSet ((List.range 4).filter fun g => s.med.gates.toList.getD g false)), (4, bitSet (s.med.inh.holds.map (·.1))),
    (9, min 3 (chansOut s).length), (11, b2n s.med.stopped), (12, s.med.qLast)]

/-- WR_MAP0 and WR_MAP1. -/
def wrMap (s : State) (hi : Bool) : Nat :=
  bitSet ((s.med.mapShown.filter fun c => if hi then 32 ≤ c else c < 32).map (· % 32))

/-- The channel that WCH_SEL or RCH_SEL names. -/
def chNo (i : Nat) : ChNo := ⟨i % 64, Nat.mod_lt _ (by decide)⟩

/-- WCH_LOOP. -/
def wchLoop (s : State) (c : ChNo) : Nat :=
  let w := s.med.ch[c].wpl
  fields [(0, w.cur), (8, w.pc), (12, b2n w.sat), (14, b2n (s.med.failed.contains c.val)), (15, b2n ((mapOut s).contains c.val))]

/-- RD_STAT. -/
def rdStat (s : State) : Nat :=
  fields [(0, b2n s.rd.reading), (1, b2n s.rd.wedge), (2, b2n (s.rd.recon.any (·.waits))), (3, min 2048 (storeRows s))]

/-- RCH_LOOP. -/
def rchLoop (s : State) (c : ChNo) : Nat :=
  let x := s.rd.ch[c]
  fields [(0, x.gain), (7, b2n x.agcSat), (8, sat 8 x.snrQ), (16, min 12 x.iterMean), (20, b2n x.locked),
    (21, b2n x.eqSat), (22, b2n (ignored s c))]

/-- The PF window below 0x0200, but for the halves of pairs. -/
def chipReg (s : State) (o : Nat) : Nat :=
  let w := s.med.ch[chNo s.pcie.wchSel]
  let r := s.rd.ch[chNo s.pcie.rchSel]
  let (cnt, age) := s.pool.aud.toList.getD s.pool.audSel (0, 0)
  match o with
  | 0x110 => tickStat s
  | 0x114 => s.tk.periodNs
  | 0x118 => s.tk.ovr
  | 0x120 => modeStat s
  | 0x124 => domainStat s
  | 0x128 => avsStat s
  | 0x12C => pwrStat s
  | 0x130 => s.fil.lineOk
  | 0x134 => s.fil.badsum
  | 0x138 => s.fil.badline
  | 0x13C => conStat s
  | 0x140 => bitSet (s.adm.entries.map (·.tag))
  | 0x144 => s.med.locks.length
  | 0x150 => s.pool.total
  | 0x154 => (sharedFree s).toNat
  | 0x158 => poolStat s
  | 0x15C => s.pool.badret
  | 0x160 => s.pool.audSel
  | 0x164 => s.pool.live.toList.getD s.pool.audSel 0
  | 0x168 => cnt
  | 0x16C => sat 32 age
  | 0x170 => s.pool.audHeld
  | 0x178 => keyStat s
  | 0x180 => (tapeDs s).getD 0xFFFFFFFF
  | 0x184 => tapeWrap s
  | 0x188 => locStat s
  | 0x190 => wrStat s
  | 0x194 => wrMap s false
  | 0x198 => wrMap s true
  | 0x19C => s.med.inh.cnt
  | 0x1A0 => s.med.inh.ticks
  | 0x1A4 => s.med.inh.abandons
  | 0x1B0 => s.pcie.wchSel
  | 0x1B4 => sat 32 w.rows
  | 0x1B8 => halves w.failRows w.weakRows
  | 0x1BC => wchLoop s (chNo s.pcie.wchSel)
  | 0x1C0 => fields [(0, twos 8 s.med.ofs.floor), (8, sat 8 s.med.skew)]
  | 0x1C4 => fields (s.med.pclErr.toList.zipIdx.map fun (e, g) => (8 * g, sat 8 e))
  | 0x1D0 => rdStat s
  | 0x1D4 => s.pcie.rchSel
  | 0x1D8 => sat 32 r.rows
  | 0x1DC => halves r.erased r.rescued
  | 0x1E0 => rchLoop s (chNo s.pcie.rchSel)
  | 0x1EC => sat 32 s.rd.c2fail
  | 0x1F0 => halves s.rd.c3n s.rd.holesN
  | 0x1F4 => sat 32 s.rd.rescue
  | 0x1F8 => sat 32 s.rd.lockLoss
  | 0x1FC => sat 32 s.rd.raHit
  | _ => 0

/-! ### Files 12 to 14: servo, cartridge and flash -/

/-- SRV_STAT. -/
def srvStat (s : State) : Nat :=
  let x := s.srv
  fields [(0, b2n x.bandLo), (1, b2n x.bandHi), (2, b2n x.follow), (3, b2n x.wedgeMode), (4, b2n x.ffOn), (5, b2n x.coarse),
    (6, b2n x.lost), (16, bitSet x.readers)]

/-- LINDEX. -/
def lindexReg (s : State) : Nat :=
  match s.srv.lindex with
  | some (i, b) => fields [(0, i), (24, b), (31, 1)]
  | none => 0

/-- REIN_STAT. -/
def reinStat (s : State) : Nat :=
  let r := s.rein
  let st := if r.bh != .none then 2 else if r.stopped then 3 else b2n r.pad
  fields [(0, r.step), (7, st), (9, b2n r.hiSat), (10, b2n r.dither), (11, b2n r.frozen),
    (16, (min 1000 (max 0 (r.fill * 1000).floor)).toNat)]

/-- The tension setpoint in force: the MOTION domain holds it. -/
def tensionSet (s : State) : Nat := if s.pw.dom.motion == .off then 0 else pnat s .tensionMn

/-- CART_STAT. -/
def cartStat (s : State) : Nat :=
  fields [(0, b2n s.cart.loaded), (1, b2n s.cart.readonly), (2, s.cart.source), (4, b2n s.cart.opened), (5, b2n s.med.eom)]

/-- FW_STAT. -/
def fwStat (s : State) : Nat :=
  let x := s.fw
  fields [(0, x.run), (2, b2n x.trial), (3, min 3 x.boots), (5, min 10 x.marks), (9, b2n x.expired), (10, b2n x.fellback),
    (11, x.reason), (13, b2n (targetValid s 0)), (14, b2n (targetValid s 1)), (15, b2n (slotConfirmed s .a)),
    (16, b2n (slotConfirmed s .b))]

/-- FW_VER_A and FW_VER_B. -/
def fwVer (s : State) (x : Slot) : Nat := if targetValid s (slotNo x) then imgVersion (imageOf s x) (slotNo x) else 0

/-- FLASH_STAT. -/
def flashStat (s : State) : Nat :=
  fields [(0, b2n (flashBusy s)), (1, b2n s.fl.suspended), (2, b2n s.fl.queueOpen),
    (3, (s.fl.queue.filter (·.status = 0xFF)).length), (8, b2n s.fl.reerased)]

/-- The registers from 0x0700 on. -/
def driveReg (s : State) (o : Nat) : Nat :=
  match o with
  | 0x700 => srvStat s
  | 0x704 => fields [(0, twos 16 s.srv.pes), (16, sat 16 s.srv.pesRms)]
  | 0x708 => lindexReg s
  | 0x70C => fields [(0, sat 16 s.srv.speed), (16, b2n s.srv.dirRev)]
  | 0x710 => halves s.srv.tension (tensionSet s)
  | 0x714 => reinStat s
  | 0x718 => sat 32 s.rein.bhCnt
  | 0x71C => sat 32 s.rein.padDs
  | 0x720 => sat 16 s.srv.mdlErr
  | 0x730 => cartStat s
  | 0x734 => s.cart.loads
  | 0x738 => s.cart.rem
  | 0x73C => s.cart.res
  | 0x740 => fwStat s
  | 0x744 => fwVer s .a
  | 0x748 => fwVer s .b
  | 0x74C => s.cfg.version
  | 0x750 => flashStat s
  | 0x754 => sat 32 s.fl.erases
  | 0x758 => sat 32 s.fl.fails
  | 0x75C => sat 32 s.fl.reerase
  | _ => 0

/-! ### File 15: PCI Express -/

/-- RING_STAT. -/
def ringStat (x : Fn) : Nat := fields [(0, b2n x.en), (1, b2n x.badIdx), (2, b2n x.enBusy), (3, b2n x.seqErr)]

/-- HALF_STAT. -/
def halfStat (x : Fn) : Nat := fields [(0, x.halfOff), (16, b2n x.stale)]

/-- DMA_STAT. -/
def dmaStat (x : Fn) : Nat := fields [(0, x.dmaErr), (8, x.dmaKind), (16, sat 16 x.dmaN)]

/-! The identities of configuration space (R425 to R427). -/

/-- Vendor ID. -/
def pcieVendor : Nat := 0x1E6B

/-- Device ID. -/
def pcieDevice (f : FnNo) : Nat := if f.val = 0 then 0x7064 else 0x7065

/-- Revision ID. -/
def pcieRevision : Nat := 0xB1

/-- Class code: other mass storage controller. -/
def pcieClass : Nat := 0x018000

/-- Subsystem vendor and subsystem IDs. -/
def pcieSubsys (s : State) : Nat × Nat := (pnat s .subsysVendor, pnat s .subsysId)

/-- The Device Serial Number capability: bits 47:0 carry the serial of INFO DEV, bits 63:48 read 0. -/
def pcieSerial : Nat := Config.deviceSerial % 2 ^ 48

/-- TotalVFs, First VF Offset and VF Stride. -/
def pcieSriov : Nat × Nat × Nat := (8, 1, 1)

/-- Sizes of BAR0 and BAR2, of PF0 and of every VF. -/
def barSize : Nat × Nat := (65536, 4096)

/-- FN_ID. -/
def fnId (f : FnNo) : Nat :=
  fields [(0, f.val), (4, if f.val = 0 then 15 else f.val - 1), (8, pcieRevision), (16, pcieDevice f)]

/-- Half of a 64-bit value. -/
def halfOf (v : Nat) (hi : Bool) : Nat := if hi then v / 2 ^ 32 % 2 ^ 32 else v % 2 ^ 32

/-- The ring block. -/
def ringReg (s : State) (f : FnNo) (o : Nat) : Nat :=
  let x := s.pcie.fn[f]
  match o with
  | 0x800 => halfOf x.cmdBase.toNat false
  | 0x804 => halfOf x.cmdBase.toNat true
  | 0x808 => halfOf x.rplBase.toNat false
  | 0x80C => halfOf x.rplBase.toNat true
  | 0x810 => halfOf x.idxBase.toNat false
  | 0x814 => halfOf x.idxBase.toNat true
  | 0x818 => b2n (x.enPend.getD x.en)
  | 0x81C => ringStat x
  | 0x820 => fields [(0, x.cmdCons), (16, x.rplProd)]
  | 0x824 => fields [(0, x.pSeen), (16, x.cSeen)]
  | 0x828 => sat 32 x.dbCnt
  | 0x82C => sat 32 x.dbIgn
  | 0x830 => dmaStat x
  | 0x83C => halfStat x
  | 0x840 => fnId f
  | 0x844 => x.scratch.toNat
  | 0x848 => sat 32 x.rplWait
  | _ => 0

/-- LINK_STAT. -/
def linkStat (s : State) : Nat :=
  let p := s.pcie
  if p.up then fields [(0, p.speed), (4, p.width), (8, 1), (9, b2n p.l1), (10, p.numVfs)] else fields [(10, p.numVfs)]

/-- VF_STAT. -/
def vfStat (s : State) : Nat :=
  bitSet ((List.range 8).filter fun n => s.pcie.vfEn && n < s.pcie.numVfs) + 256 * bitSet s.pcie.flr

/-- The link and PF block. -/
def linkReg (s : State) (o : Nat) : Nat :=
  match o with
  | 0x880 => linkStat s
  | 0x884 => sat 32 s.pcie.linkDown
  | 0x888 => sat 32 s.pcie.aerCor
  | 0x88C => sat 32 s.pcie.aerUnc
  | 0x890 => halves s.pcie.vfFlrs s.pcie.pfResets
  | 0x894 => vfStat s
  | 0x898 => bitSet s.pcie.irq.cause
  | 0x89C => coalReg s.pcie.irq
  | 0x8A0 => fields [(0, pnat s .maxGts + 1), (4, [1, 2, 4, 8].getD (pnat s .maxWidth) 0)]
  | _ => 0

/-! ### Files 16 and 18: ports, sensors, events and diagnostics -/

/-- The port that SP_SEL names. -/
def portNo (i : Nat) : PortNo := ⟨i % 4, Nat.mod_lt _ (by decide)⟩

/-- SP_STAT. -/
def spStat (s : State) (p : PortNo) : Nat :=
  let x := s.port[p]
  let n := sadOfPort s p
  fields [(0, b2n n.isSome), (1, (n.map (·.val)).getD 0), (4, b2n (portReady s p)), (5, b2n x.selD), (6, b2n x.selC), (7, b2n x.both),
    (8, b2n x.underrun), (9, b2n x.overrun), (10, pnat s .wordBits p.val), (12, b2n (pnat s .portFlow p.val == 1)),
    (13, b2n (pnat s .outGate p.val == 1))]

/-- SEN_STAT. -/
def senStat (s : State) : Nat :=
  fields [(0, b2n s.sens.shock.present), (1, b2n s.sens.t0.present), (2, b2n s.sens.t1.present), (3, b2n s.sens.busLow),
    (4, b2n s.sens.pinLow)]

/-- SHOCK_MG. -/
def shockMg (s : State) : Nat := halves s.sens.mg s.sens.peak

/-- Records that wait for the flash copy. -/
def evtPend (s : State) : Nat := (s.evt.ring.filter (copyDue s)).length

/-- EVT_STAT. -/
def evtStat (s : State) : Nat :=
  fields [(0, b2n (evtPend s ≠ 0)), (1, b2n s.evt.drop), (2, b2n s.evt.loaded), (8, sat 8 s.evt.crcbad)]

/-- DIAG_STAT's WHAT. -/
def DiagWhat.code : DiagWhat → Nat
  | .none => 0
  | .cal => 1
  | .dram => 2
  | .flash => 3
  | .loop => 4
  | .pattern => 5

/-- DIAG_STAT. -/
def diagStat (s : State) : Nat :=
  fields [(0, DiagWhat.code s.diag.what), (4, b2n s.diag.running), (5, b2n s.diag.fail), (16, s.diag.pass)]

/-- Four bytes of a table of 64. -/
def fourBytes (l : List Nat) (k : Nat) : Nat := fields ((List.range 4).map fun j => (8 * j, l.getD (4 * k + j) 0 % 256))

/-- The registers from 0x0900 on, but for the halves of pairs. -/
def evtReg (s : State) (o : Nat) : Nat :=
  let p := portNo s.pcie.spSel
  if 0x940 ≤ o && o < 0x980 then
    fourBytes ((look (s.diag.calSel % 64) s.diag.calCh).getD []) ((o - 0x940) / 4)
  else if 0x980 ≤ o && o < 0x9C0 then fourBytes s.diag.ch.toList ((o - 0x980) / 4)
  else match o with
  | 0x900 => s.evt.newest
  | 0x904 => (s.evt.ring.head?.map (·.seq)).getD 0
  | 0x908 => s.evt.flashed
  | 0x90C => evtStat s
  | 0x910 => sat 32 s.evt.lost
  | 0x914 => sat 32 s.evt.warn
  | 0x918 => sat 32 s.evt.error
  | 0x91C => evtPend s
  | 0x920 => diagStat s
  | 0x924 => sat 32 s.diag.errors
  | 0x930 => s.diag.ticks
  | 0x934 => s.diag.calSel
  | 0x9C0 => s.pcie.spSel
  | 0x9C4 => spStat s p
  | 0x9D0 => sat 32 s.port[p].rep
  | 0x9D4 => sat 32 s.port[p].ovr
  | 0x9D8 => senStat s
  | 0x9DC => halves s.sens.errs s.sens.clears
  | 0x9E0 => shockMg s
  | _ => 0

/-! ### A function's window (R429) -/

/-- What a VF window shows of the chip registers. -/
def vfSees (off : Nat) : Bool := (0x100 ≤ off && off < 0x118) || off = 0x120

/-- A read-only pair of halves at its low offset (R431): its 64-bit value. -/
def pairAt (s : State) (f : FnNo) (off : Nat) : Option Nat :=
  let pf := f.val = 0
  match sadAt f off with
  | some (n, o) => sadPair s n o
  | none =>
    match off with
    | 0x100 => some s.clk.ptc.toNat
    | 0x108 => some s.clk.session.toNat
    | 0x834 => some s.pcie.fn[f].dmaAddr.toNat
    | 0x1A8 => if pf then some s.med.rwr else none
    | 0x1E4 => if pf then some s.rd.c2 else none
    | 0x928 => if pf then some s.diag.addr else none
    | 0x9C8 => if pf then some s.port[portNo s.pcie.spSel].inWords else none
    | _ => none

/-- The MSI-X table's words (R447): the fourth word of an entry holds its mask bit. -/
def msixReg (s : State) (f : FnNo) (off : Nat) : Nat :=
  let v := (off - 0xE000) / 16
  if off % 16 = 12 then b2n (s.pcie.fn[f].masked.toList.getD v true)
  else ((look (off / 4 * 4) s.pcie.fn[f].msixTab).getD 0).toNat

/-- The word at an offset of a function's window as a 4 B read gives it, its effects apart; 0 where there is no register. -/
def regRead (s : State) (f : FnNo) (off : Nat) : Nat :=
  let pf := f.val = 0
  match pairAt s f off, pairAt s f (off - 4) with
  | some v, _ => halfOf v false
  | none, some v => if 4 ≤ off then halfOf v true else 0
  | none, none =>
    match sadAt f off with
    | some (n, o) => sadReg s n o
    | none =>
      if 0x100 ≤ off && off < 0x200 then (if pf || vfSees off then chipReg s off else 0)
      else if 0x700 ≤ off && off < 0x800 then (if pf then driveReg s off else 0)
      else if 0x800 ≤ off && off < 0x850 then ringReg s f off
      else if 0x880 ≤ off && off < 0x8A4 then (if pf then linkReg s off else 0)
      else if 0x900 ≤ off && off < 0xA00 then (if pf then evtReg s off else 0)
      else if 0xE000 ≤ off && off < 0xE000 + 16 * vectors f then msixReg s f off
      else if off = 0xF000 then bitSet ((List.range 16).filter fun v => s.pcie.fn[f].pba.toList.getD v false)
      else 0

/-! ### Parameters (R132, R501, R506, R507) -/

/-- A number as a value. -/
def pn (v : Nat) : PVal := .n v

/-- A bit as a value. -/
def pb (b : Bool) : PVal := .n (b2n b : Nat)

/-- A list as a value. -/
def pl (l : List Nat) : PVal := .l (l.map Int.ofNat)

/-- One value per saddle. -/
def perSad (f : SadNo → Nat) : PVal := pl (allSads.map f)

/-- `tick.state`. -/
def tickState (s : State) : Nat :=
  if !s.tk.ftick then 0 else if s.tk.flywheel then 3 else if s.tk.slewing then 4 else if s.tk.locked then 2 else 1

/-- `power.mode`; a part that is starting is in no mode that GET can meet. -/
def modeIndex : Mode → Nat
  | .starting => 0
  | .park => 0
  | .stage => 1
  | .stream => 2
  | .service => 3
  | .halt => 4

/-- A fraction in hundredths, rounded down. -/
def hundredths (r : Rat) : PVal := .n (max 0 (r * 100).floor)

/-- The value of a parameter as GET reads it. -/
def paramNow (s : State) (p : Param) : PVal :=
  let n := sadNo p.i
  let reg (o : Nat) : PVal := pn (regRead s 0 o)
  let wch (f : WCh → Nat) : PVal := pl (s.med.ch.toList.map f)
  let rch (f : RCh → Nat) : PVal := pl (s.rd.ch.toList.map f)
  let fns (f : Fn → Nat) : PVal := pl (s.pcie.fn.toList.map f)
  match p.id with
  | .tickPeriodNs => pn s.tk.periodNs
  | .tickState => pn (tickState s)
  | .tickOverruns => pn s.tk.ovr
  | .tickPtc => pn (now s)
  | .tickSession => pn s.clk.session.toNat
  | .powerMode => pn (modeIndex s.pw.mode)
  | .powerHaltCause => pn (HaltCause.code s.pw.cause)
  | .powerVcore => pn s.pw.avs.vset
  | .clkMhz => pn (600 + 150 * s.pw.clk)
  | .powerTj => .n s.pw.tj
  | .plaitEpoch => pn s.med.plait.epoch
  | .plaitLength => pn s.med.plait.slots.length
  | .plaitVPlan => pn (vPlan s.med.plait)
  | .seqNext => pn s.sad[n].next
  | .seqDeferred => pn (if s.sad[n].st == .hold then s.sad[n].g else s.sad[n].dropped.getD 0)
  | .locksUsed => pn s.med.locks.length
  | .updateState => pn s.svc.updState
  | .updateNextOff => pn s.svc.nextOff
  | .poolHeld => pn (heldBy s (ownSad n))
  | .poolCaddies => pn s.pool.total
  | .poolSharedFree => pn (sharedFree s).toNat
  | .auditRun => pb s.pool.audRun
  | .codeFBytes => pn (blockOf s n)
  | .tapeDs => pn ((tapeDs s).getD 0)
  | .tapeWrap => pn (wrapNow s)
  | .tapeQLast => pn s.med.qLast
  | .indexEntries => pn s.med.index.length
  | .chanFailed => pl s.med.failed
  | .motionSpeed => pn (s.srv.speed / 10)
  | .motionTension => pn s.srv.tension
  | .reinVff => hundredths s.rein.vff
  | .reinVtarget => hundredths s.rein.vtarget
  | .fwRun => pn s.fw.run
  | .fwTrial => pb s.fw.trial
  | .cfgVersion => pn s.cfg.version
  | .cfgParent => pn s.cfg.parent
  | .cfgDirty => pb (!s.cfg.uncommitted.isEmpty)
  | .pcieLink => pb s.pcie.up
  | .portLead => pn s.port[portNo p.i].lead.length
  | .shockPresent => pb s.sens.shock.present
  | .temp0C => .n (s.sens.t0.value * 100 / 256)
  | .temp1C => .n (s.sens.t1.value * 100 / 256)
  | .eventSeq => pn s.evt.newest
  | .eventLost => pn s.evt.lost
  | .diagState => pn (diagStat s)
  | .diagErrors => pn s.diag.errors
  | .diagTicks => pn s.diag.ticks
  | .diagPass => pn s.diag.pass
  | .stLineOk => reg 0x130
  | .stLineBadsum => reg 0x134
  | .stLineBadline => reg 0x138
  | .stPoolBadret => reg 0x15C
  | .stInhCnt => reg 0x19C
  | .stInhTicks => reg 0x1A0
  | .stAbandon => reg 0x1A4
  | .stRwr => pn s.med.rwr
  | .stC2 => pn s.rd.c2
  | .stC2Failcol => reg 0x1EC
  | .stC3Cnt => reg 0x1F0
  | .stRescue => reg 0x1F4
  | .stLockLoss => reg 0x1F8
  | .stRaHit => reg 0x1FC
  | .stBhCnt => reg 0x718
  | .stPadDs => reg 0x71C
  | .stMdlErr => reg 0x720
  | .stFlashErases => reg 0x754
  | .stFlashFails => reg 0x758
  | .stFlashReerase => reg 0x75C
  | .stLinkDown => reg 0x884
  | .stAerCor => reg 0x888
  | .stAerUnc => reg 0x88C
  | .stFlrCnt => reg 0x890
  | .stSenErr => reg 0x9DC
  | .stPclErr => reg 0x1C4
  | .stEvtLost => reg 0x910
  | .stEvtWarn => reg 0x914
  | .stEvtError => reg 0x918
  | .stSpIn => pn s.port[portNo p.i].inWords
  | .stSpRepeat => pn s.port[portNo p.i].rep
  | .stSpOvr => pn s.port[portNo p.i].ovr
  | .stHoleCnt => pn s.sad[n].cnt.hole
  | .stWait => perSad fun n => s.sad[n].cnt.wait
  | .stSlots => perSad fun n => s.sad[n].cnt.slots
  | .stMiss => perSad fun n => s.sad[n].cnt.miss
  | .stRefuse => perSad fun n => sadReg s n 0x224
  | .stDeny => perSad fun n => s.sad[n].cnt.deny
  | .stStretch => perSad fun n => s.sad[n].cnt.stretch
  | .stLossy => perSad fun n => s.sad[n].cnt.lossy
  | .stFitpass => perSad fun n => s.sad[n].cnt.fitpass
  | .stMalf => perSad fun n => s.sad[n].cnt.malf
  | .stSealSkip => perSad fun n => s.sad[n].cnt.sealSkip
  | .stWchRows => wch (·.rows)
  | .stWchBad => wch fun w => halves w.failRows w.weakRows
  | .stRchRows => rch (·.rows)
  | .stRchBad => rch fun r => halves r.erased r.rescued
  | .stDbCnt => fns (·.dbCnt)
  | .stDoorbellIgn => fns (·.dbIgn)
  | .stRplWait => fns (·.rplWait)
  | _ => cfgVal s p

/-- The parameters that read counter registers (R501). -/
def isStat : PId → Bool
  | .tickOverruns | .stLineOk | .stLineBadsum | .stLineBadline | .stPoolBadret | .stInhCnt | .stInhTicks | .stAbandon | .stRwr | .stC2
  | .stC2Failcol | .stC3Cnt | .stRescue | .stLockLoss | .stRaHit | .stBhCnt | .stPadDs | .stMdlErr | .stFlashErases | .stFlashFails
  | .stFlashReerase | .stLinkDown | .stAerCor | .stAerUnc | .stFlrCnt | .stSenErr | .stPclErr | .stEvtLost | .stEvtWarn | .stEvtError
  | .stSpIn | .stSpRepeat | .stSpOvr | .stHoleCnt | .stWait | .stSlots | .stMiss | .stRefuse | .stDeny | .stStretch | .stLossy | .stFitpass
  | .stMalf | .stSealSkip | .stWchRows | .stWchBad | .stRchRows | .stRchBad | .stDbCnt | .stDoorbellIgn | .stRplWait => true
  | _ => false

/-- The counters at a boundary, as GET reads them until the next one (R501). -/
def takeStats (s : State) : State :=
  { s with stat := (allParams.filter fun p => isStat p.id).map fun p => (p, paramNow s p) }

/-- The state with which a GET inside a tick sees a parameter: a counter as it stood at the last boundary (R501). -/
def paramSeen (s : State) (p : Param) : PVal :=
  if isStat p.id then (look p s.stat).getD (paramNow s p) else paramNow s p

/-- A parameter as a tagged GET writes it inside a tick. -/
def paramTold (s : State) (p : Param) : Fld := fld (paramName p) (valStr (pspec p.id).kind (paramSeen s p))

/-- A parameter as GET writes it (R132, R507). -/
def paramField (s : State) (p : Param) : Fld := fld (paramName p) (valStr (pspec p.id).kind (paramNow s p))

end Sys2Proof.Machine
end

