-- ==== Sys2Proof/Machine/Info.lean ====
section
/-! DEFINITION. The verbs that report, and the immediate lines of a boundary: HELLO, STATUS, GET, INFO (R118, R119, R123, R124,
R132, R173, R184, R201). -/

namespace Sys2Proof.Machine

open Sys2Proof

/-! ### HELLO (R118, R119, R184) -/

/-- The channel's name; `free` stands for a control channel of a port that is bound to no saddle (R119). -/
def helloChan (ch : Chan) (tr : Transport) (free : Bool) : String :=
  match free, tr with
  | true, .sp p => "sp" ++ toString p.val
  | _, _ => Chan.name ch

/-- The session mode of a transport from the next line on. -/
def nextMode (s : State) (tr : Transport) : SesMode := (((sessionOf s tr).bind (·.next))).getD (sesModeOf s tr)

/-- HELLO: the session mode holds from the next line on, and only consoles and control channels can be typed. -/
def doHello (s : State) (ch : Chan) (tr : Transport) (m : Option SesMode) (free : Bool) : State × Outc :=
  if m == some .typed && (sessionOf s tr).isNone then (s, failWhy .denied "transport")
  else
    let s := match m with
      | some m => modSes s tr fun x => { x with next := some m }
      | none => s
    (s, { status := .ok, fields := helloFields s (helloChan ch tr free) (nextMode s tr) })

/-- A queued HELLO executes. -/
def helloVerb (ch : Chan) (m : Option SesMode) (t : Nat) (s : State) : State :=
  let tr := ((entryOf s ch t).map (·.tr)).getD (homeOf s ch)
  let (s, o) := doHello s ch tr m false
  complete s ch t o

/-- HELLO. -/
def execHello (ch : Chan) (tag : Option Nat) (session : Option SesMode) (s : State) : Host.Outcome State Fault Refusal :=
  eitherRow ch tag (.hello session) (helloVerb ch session) s

/-! ### STATUS (R201) -/

/-- `tape=`: nothing threaded, threaded with the motors off, standing, or moving. -/
def tapeWord (s : State) : String :=
  if !s.cart.threaded then "NONE"
  else if s.pw.dom.motion == .off then "THREADED"
  else if s.srv.speed = 0 then "STOPPED"
  else "MOVING"

/-- The chip's fields; a position that is not known reads as zero. -/
def chipStatus (s : State) : List Fld :=
  [fld "mode" (Mode.name s.pw.mode), fnum "tick" s.tk.periodNs, fnum "ptc" (now s), fld "tape" (tapeWord s)] ++
    (match tapeDs s with
     | some d => posFields s d
     | none => [fnum "ds" 0, fld "m" "0.00"]) ++
    [fld "speed" (fixedStr 2 ((s.srv.speed / 10 : Nat) : Int)), fnum "epoch" s.med.plait.epoch, fld "halt" (HaltCause.name s.pw.cause)]

/-- A saddle's fields. R15 asks for `tick=` in every STATUS reply, and file 06 lists none among these: it comes last (DESIGN CHOICE,
log 123). -/
def sadStatus (s : State) (n : SadNo) : List Fld :=
  let x := s.sad[n]
  [fld "state" (if x.reset.isSome then "RESETTING" else SadState.name x.st), fld "waitwhy" (WaitWhy.name x.why), fnum "tags" x.q.entries.length, fnum "unsync" (unsyncBytes x)] ++
    (match x.dropped with
     | some g => [fnum "deferred" g]
     | none => []) ++
    (if (followOf s n).isSome then [fnum "lag" x.lag] else []) ++ [fnum "tick" s.tk.periodNs]

/-- STATUS: a saddle receives its own fields, the admin channel the chip's or those of the saddle it names. -/
def doStatus (s : State) (ch : Chan) (sad : Option SadNo) : Outc :=
  { status := .ok, fields := match ch, sad with
    | .sad n, _ => sadStatus s n
    | .adm, some n => sadStatus s n
    | .adm, none => chipStatus s }

/-- STATUS. -/
def execStatus (ch : Chan) (tag : Option Nat) (sad : Option SadNo) (s : State) : Host.Outcome State Fault Refusal :=
  eitherRow ch tag (.status sad) (fun t s => complete s ch t (doStatus s ch sad)) s

/-! ### GET (R132) -/

/-- GET: every leaf that the names select and the channel may read. -/
def doGet (s : State) (ch : Chan) (names : List String) (told : State → Param → Fld := paramField) : Outc :=
  match getScope ch names with
  | .error (st, fs) => { status := st, fields := fs }
  | .ok () =>
    let ps := names.flatMap leavesOf
    let ps := match ch with
      | .adm => ps
      | .sad n => ps.filter (mayGet n)
    { status := .ok, fields := ps.map (told s) }

/-- GET: a tagged one sees the counters as the last boundary left them (R501), an untagged one executes at a boundary (R124). -/
def execGet (ch : Chan) (tag : Option Nat) (names : List String) (s : State) : Host.Outcome State Fault Refusal :=
  eitherRow ch tag (.get names) (fun t s => complete s ch t (doGet s ch names paramTold)) s

/-! ### INFO -/

/-- INFO `what=DEV`. -/
def execInfoDev (ch : Chan) (tag : Option Nat) (s : State) : Host.Outcome State Fault Refusal :=
  verbRow ch tag .infoDev (fun t s => okWith s ch t
    [fld "code" "TF64-BG4040", fld "rev" "B1", fld "serial" (hexStr 12 pcieSerial)]) s

/-- A start's image name. -/
def runName (k : Nat) : String := if k = 0 then "A" else if k = 1 then "B" else "ROM"

/-- INFO `what=FW`. -/
def execInfoFw (ch : Chan) (tag : Option Nat) (s : State) : Host.Outcome State Fault Refusal :=
  verbRow ch tag .infoFw (fun t s => okWith s ch t
    [fld "run" (runName s.fw.run), fnum "trial" (b2n s.fw.trial), fld "fwa" (fwStr (fwVer s .a)), fld "fwb" (fwStr (fwVer s .b)),
     fld "stage1" (fwStr (imgVersion s.fl.stage1 2))]) s

/-- A link speed's name. -/
def gtsName (k : Nat) : String := ["2.5", "5", "8", "16"].getD (k - 1) "2.5"

/-- INFO `what=LINK`. -/
def execInfoLink (ch : Chan) (tag : Option Nat) (s : State) : Host.Outcome State Fault Refusal :=
  verbRow ch tag .infoLink (fun t s => okWith s ch t
    (if s.pcie.up then [fld "gts" (gtsName s.pcie.speed), fnum "width" s.pcie.width, fld "vfs" "8"] else [fld "link" "down"])) s

/-- INFO `what=DRAM`. -/
def execInfoDram (ch : Chan) (tag : Option Nat) (s : State) : Host.Outcome State Fault Refusal :=
  verbRow ch tag .infoDram (fun t s => okWith s ch t
    [fnum "gib" (if s.pw.gib16 then 16 else 8), fnum "caddies" s.pool.total, fnum "shared" (sharedFree s).toNat]) s

/-- A binding's saddle number, or `none`. -/
def sadName (n : Option SadNo) : String :=
  match n with
  | some n => toString n.val
  | none => "none"

/-- INFO `what=PORTS`. -/
def execInfoPorts (ch : Chan) (tag : Option Nat) (s : State) : Host.Outcome State Fault Refusal :=
  verbRow ch tag .infoPorts (fun t s => okWith s ch t
    (((List.finRange 4).map fun (p : PortNo) => fld ("sp" ++ toString p.val) (sadName (sadOfPort s p))) ++
      [fld "con" (sadName (sadOfConsole s))])) s

/-! ### The immediate lines of a boundary (R16 step 3, R124, R125) -/

/-- Answers an immediate line, or completes the tagged command that waited for the boundary. -/
def answerImm (s : State) (i : Imm) (o : Outc) : State :=
  let s := noteBusy s i.ch i.verb (if i.tag.isNone then some o.status else none)
  match i.tag with
  | some t =>
    if i.free then reply s { tr := i.tr, ch := i.ch, tag := .q t, status := o.status, fields := o.fields, more := o.more, ses := setsMode i.verb o.status }
    else complete s i.ch t o
  | none => reply s { tr := i.tr, ch := i.ch, tag := .imm, status := o.status, fields := o.fields, more := o.more,
                       rate := setsRate i.verb o.status, ses := setsMode i.verb o.status }

/-- What refused a saddle's command with BUSY.MODE still holds (R37, R174, R182, R196). -/
def busyLasts (s : State) (n : SadNo) (v : Verb) : Bool :=
  match v with
  | .mode m => ((modeRefused s s.pw.target (.sad n) false m).map fun o => o.status == .busyMode).getD false
  | .locate .. | .space .. => !(streamHeld s (.sad n)).isEmpty
  | .discard .. => s.sad[n].q.entries.any fun e => e.phase == .executing && e.ended.isNone && runKind e.verb = 1
  | .set l => l.any (fun (p, _) => codeParam p.id) && !sadIdle s n none
  | _ => false

/-- FLOW at a boundary for a saddle whose BUSY.MODE has cleared (R79). -/
def flowModes (s : State) : State :=
  allSads.foldl (fun s n => match s.sad[n].flowMode with
    | some v => if busyLasts s n v then s else latch (modSad s n fun x => { x with flowMode := none }) n 2
    | none => s) s

/-- A tagged SET or SADDLE that still stands: nothing has ended it. -/
def immStands (s : State) (i : Imm) : Bool :=
  match i.tag with
  | some t => i.free || (entryOf s i.ch t).any fun e => e.ended.isNone && e.seq == i.seq
  | none => true

/-- One parameter change of step 3 (R125). -/
def applySet (s : State) (i : Imm) : State :=
  if !immStands s i then s
  else match i.verb with
    | .set l =>
      let (s, o) := doSet s i.ch i.tag l
      answerImm s i o
    | .saddleSet n a =>
      let (s, o) := doSaddleSet s i.ch i.tag n a
      answerImm s i o
    | .rollback v =>
      let (s, o) := doRollback s v
      answerImm s i o
    | _ => s

/-- A change that step 3 applies. -/
def isSet (i : Imm) : Bool :=
  match i.verb with
  | .set _ | .saddleSet .. | .rollback _ => true
  | _ => false

/-- Puts a line in its place by intake number. -/
def seqInsert (i : Imm) : List Imm → List Imm
  | [] => [i]
  | j :: t => if i.seq < j.seq then i :: j :: t else j :: seqInsert i t

/-- Lines in intake order (R125). -/
def bySeq (l : List Imm) : List Imm := l.foldl (fun a i => seqInsert i a) []

/-- The firmware's work of a boundary (R23): all of it, and after a tick that overran, the work left from the tick before. -/
def dueImm (ovr : Bool) (s : State) (i : Imm) : Bool := !ovr || decide (i.seq ≤ s.fil.lateSeq)

/-- The parameter changes that are pending, in intake order (R125). -/
def applySets (ovr : Bool) (s : State) : State :=
  let mine (i : Imm) : Bool := isSet i && dueImm ovr s i
  (bySeq (s.fil.imm.filter mine)).foldl applySet { s with fil := { s.fil with imm := s.fil.imm.filter fun i => !mine i } }

/-- One immediate line after step 3 (R124); a QRESET that a reset holds back waits for a later boundary (R165). -/
def runImm (s : State) (i : Imm) : State :=
  match i.verb with
  | .hello m =>
    let (s, o) := doHello s i.ch i.tr m i.free
    answerImm s i o
  | .status sad => answerImm s i (doStatus s i.ch sad)
  | .get names => answerImm s i (doGet s i.ch names)
  | .abort t sad => doAbort s i.tr i.ch t sad
  | .qreset sad =>
    if qresetWaits s i.ch sad then { s with fil := { s.fil with imm := s.fil.imm ++ [i] } } else doQreset s i.tr i.ch sad
  | _ => s

/-- The immediate lines of the tick, in intake order. -/
def runImms (ovr : Bool) (s : State) : State :=
  let mine (i : Imm) : Bool := !isSet i && dueImm ovr s i
  (bySeq (s.fil.imm.filter mine)).foldl runImm { s with fil := { s.fil with imm := s.fil.imm.filter fun i => !mine i } }

end Sys2Proof.Machine
end

