-- ==== Sys2Proof/Machine/StreamVerbs.lean ====
section
/-! DEFINITION. The verbs of a saddle's stream: WRITE, MARK, TIME, SYNC (R145-R148, R203, R210, R211). -/

namespace Sys2Proof.Machine

open Sys2Proof

/-- WRITE's effect as it starts: a console's words are there at once, a port's lead is claimed, and a VF's bytes come by DMA
(R210, R455). Words that find no room in the saddle's caddies wait for it. -/
def writeVerb (n : SadNo) (a : WriteArgs) (t : Nat) (s : State) : State :=
  match a.src with
  | .words l =>
    let b := l.flatMap fun w => beBytes 8 w.toNat
    if roomFor s n (blockOf s n) b.length then
      modEntry s (.sad n) t fun e => { e with data := b, got := b.length, why := .none }
    else modEntry s (.sad n) t fun e => { e with begun := false, why := .pool }
  | _ =>
    match bindOf s n with
    | .sp p => claimLead n p 1 s
    | _ => s

/-- WRITE. -/
def execWrite (n : SadNo) (tag : Option Nat) (a : WriteArgs) (s : State) : Host.Outcome State Fault Refusal :=
  verbRow (.sad n) tag (.write a) (writeVerb n a) s

/-- MARK: it waits for the window, and the acknowledgement writes its girth (R146). -/
def execMark (n : SadNo) (tag : Option Nat) (note : String) (s : State) : Host.Outcome State Fault Refusal :=
  verbRow (.sad n) tag (.mark note) (fun _ s => s) s

/-- TIME's effect (R203): a saddle's in STREAM waits for the window and becomes a girth; any other goes to the session log, or
to the event log alone when no cartridge is loaded. Every pair becomes an event record. -/
def timeVerb (ch : Chan) (tv : Option Int) (text : Option String) (t : Nat) (s : State) : State :=
  let record (where_ : String) (s : State) : State :=
    let s := timeEvent s (srcOf ch) s.clk.ptc (tv.getD 0) (text.getD "")
    okWith s ch t [fnum "ptc" (now s), fld "sid" (sidStr s.clk.session), fld "where" where_]
  let owner := match ch with
    | .sad n => n.val
    | .adm => 0xFF
  if ch != .adm && s.pw.mode == .stream then s
  else if s.cart.loaded then record "CM" (heldLog s 3 owner (twos 64 (tv.getD 0)))
  else record "EVENT" s

/-- TIME. -/
def execTime (ch : Chan) (tag : Option Nat) (t : Option Int) (text : Option String) (s : State) : Host.Outcome State Fault Refusal :=
  verbRow ch tag (.time t text) (timeVerb ch t text) s

/-- A SYNC of a saddle that executes. -/
def syncOf (s : State) (n : SadNo) : Option Entry :=
  s.sad[n].q.entries.find? fun e => e.verb == .sync && e.phase == .executing && e.begun && e.ended.isNone

/-- A data set that a SYNC waits for closes at the next chance (R148). -/
def syncForce (s : State) (n : SadNo) : State :=
  if (syncOf s n).isSome then modSad s n fun x => { x with openDs := x.openDs.map fun d => { d with force := true } } else s

/-- SYNC's effect as it starts: the block under fill ends, and what is acknowledged so far is waited for (R148, R211); under
PWR_FAIL_N it is withheld unless nothing is (R149). -/
def syncVerb (n : SadNo) (t : Nat) (s : State) : State :=
  let s := closeBlk s n
  syncForce (modEntry s (.sad n) t fun e => { e with
    girth0 := s.sad[n].next, frozen := pfInForce s && !s.sad[n].unsync.isEmpty }) n

/-- SYNC. -/
def execSync (n : SadNo) (tag : Option Nat) (s : State) : Host.Outcome State Fault Refusal :=
  verbRow (.sad n) tag .sync (syncVerb n) s

/-- SYNC_COMPLETE (R148, R149): everything acknowledged before the SYNC is on tape, and no recognition of PWR_FAIL_N that found it
otherwise is in force. -/
def syncComplete (n : SadNo) (s : State) : State :=
  match syncOf s n with
  | some e => if syncDone s n e && !e.frozen then okWith s (.sad n) e.tag (fnum "girth" e.girth0 :: ewField s n) else s
  | none => s

/-- SYNC_COMPLETE. -/
def execSyncComplete (n : SadNo) (s : State) : Host.Outcome State Fault Refusal := act s (syncComplete n)

end Sys2Proof.Machine
end

