-- ==== Sys2Proof/Machine/Intake.lean ====
section
/-! DEFINITION. LINE_INTAKE: a complete line is checked and becomes an immediate line, a queued command or a rejection (R59, R60,
R115, R116, R119-R122, R147). -/

namespace Sys2Proof.Machine

open Sys2Proof

/-- The transports in the order of R121. -/
def allTransports : List Transport :=
  .pf0 :: allSads.map .vf ++ (List.finRange 4).map .sp ++ [.console]

/-- Whether a transport is read: the rings of a saddle that is not bound to VF never are (R74). -/
def isRead (s : State) (tr : Transport) : Bool :=
  match tr with
  | .vf n => bindOf s n == .vf
  | _ => true

/-- Whether a transport's lines are taken in: before the part is ready, the console's alone are answered (R59, R60). -/
def servesNow (s : State) (tr : Transport) : Bool := (s.pw.devReady || tr == .console) && isRead s tr

/-- The transport whose turn it is, from the one after the last served: one that the running round has not served, else the round
starts anew (R121). The answer tells whether it does. -/
def nextTransport (s : State) : Option (Transport × Bool) :=
  let l := ((allTransports.drop (s.fil.rr + 1)) ++ allTransports.take (s.fil.rr + 1)).filter fun tr =>
    servesNow s tr && !((look tr s.fil.waiting).getD []).isEmpty
  match l.find? fun tr => !s.fil.round.contains (Transport.index tr) with
  | some tr => some (tr, false)
  | none => l.head?.map fun tr => (tr, true)

/-- The names of the verbs that the recovery state serves (R60). -/
def recoveryNames : List String := ["HELLO", "INFO", "STATUS", "EVENTS", "UPDATE", "ACTIVATE"]

/-- The verbs that the recovery state serves (R60). -/
def recoveryVerb (v : Verb) : Bool :=
  match v with
  | .hello _ | .infoDev | .infoFw | .infoLink | .infoDram | .infoPorts | .status _ | .events .. | .activate _ => true
  | .updateBegin t _ => t != .stage1
  | .updateData .. | .updateEnd | .updateCancel => true
  | _ => false

/-- Counts a rejection with BADSUM or BADLINE. -/
def countReject (s : State) (st : Status) : State :=
  match st with
  | .badsum => { s with fil := { s.fil with badsum := inc s.fil.badsum } }
  | .badline => { s with fil := { s.fil with badline := inc s.fil.badline } }
  | _ => s

/-- Answers a rejected line. -/
def rejectLine (s : State) (tr : Transport) (ch : Chan) (tag : Option Nat) (slot : Option Nat) (e : Status × List Fld) : State :=
  reply (countReject s e.1) (rejectReply tr ch tag slot e)

/-- An accepted line: a queued command, or an immediate line that waits for the boundary (R122, R140). -/
def acceptLine (s : State) (tr : Transport) (ch : Chan) (slot : Option Nat) (p : Parsed) (v : Verb) (typed free : Bool) : State :=
  let s := { s with fil := { s.fil with seq := s.fil.seq + 1 } }
  let good (s : State) : State := { s with fil := { s.fil with lineOk := inc s.fil.lineOk } }
  let wait : Imm := { ch := ch, tr := tr, verb := v, seq := s.fil.seq, tag := if free then p.tag else none, free := free }
  match p.tag, free with
  | some t, false =>
    match admitLine s ch t v tr with
    | (s, none) =>
      let said := match confirmed p.args with
        | .ok b => b
        | .error _ => false
      good (modEntry s ch t fun e => { e with unconf := typed && !said })
    | (s, some e) => rejectLine s tr ch p.tag slot e
  | _, _ => good { s with fil := { s.fil with imm := s.fil.imm ++ [wait] } }

/-- Checks 5 to 8 of R115 for a line whose grammar passes. -/
def lineVerb (s : State) (tr : Transport) (ch : Option Chan) (typed : Bool) (slot : Option Nat) (p : Parsed) : State :=
  let c := ch.getD .adm
  let bad (e : Status × List Fld) : State := rejectLine s tr c p.tag slot e
  let bind := match c with
    | .sad n => bindOf s n
    | .adm => .none
  if !s.pw.devReady && !recoveryNames.contains p.verb then bad (.fault, [fld "why" "starting"])
  else if !tagKind p then bad (badLine "tag")
  else if ch.isNone && p.verb != "HELLO" then bad (denied "unbound")
  else match verbArgs c bind p.verb p.args with
    | .error e => bad e
    | .ok v =>
      match lineRanges s c v with
      | .error e => bad e
      | .ok () =>
        if !s.pw.devReady && !(s.pw.recovery && recoveryVerb v) then bad (.fault, [fld "why" "starting"])
        else match lineScope s c tr typed p v with
          | .error e => bad e
          | .ok () => acceptLine s tr c slot p v typed ch.isNone

/-- The tag that a line begins with, after its spaces (R108, R116). -/
def lineTag (b : List Byte) : Option Nat :=
  match (b.dropWhile fun c => c == 0x20 || c == 0x09).map fun c => Char.ofNat c.toNat with
  | [x, y] => (tagIn [x, y]).toOption
  | x :: y :: z :: _ => if z == ' ' || z == '\t' then (tagIn [x, y]).toOption else none
  | _ => none

/-- The checks of a line taken in (R115); a line of nothing but spaces is no line. -/
def takeLine (s : State) (tr : Transport) (r : RawLine) : State :=
  let ch := chanOf s tr
  let c := ch.getD .adm
  let gen := sesModeOf s tr == .generated
  match r.rej with
  | some o => reply (countReject s o.status) { tr := tr, ch := c, tag := .imm, status := o.status, fields := o.fields }
  | none =>
    if r.bytes.all (fun b => b == 0x20 || b == 0x09) && !r.long && !r.badChar then s
    else if !s.pw.devReady && !s.pw.recovery then
      reply s (rejectReply tr c (lineTag r.bytes) r.slot (.fault, [fld "why" "starting"]))
    else match lineChars { r with gen := gen } with
      | .error e => rejectLine s tr c none r.slot e
      | .ok l =>
        match lineGrammar (ch == some .adm) l with
        | .error e => rejectLine s tr c none r.slot e
        | .ok p => lineVerb s tr ch (!gen) r.slot p

/-- Takes in the next line (R121): a ring's slot is given back (R433). -/
def intakeNext (s : State) : State :=
  if budget s 32 ≤ s.fil.taken then s
  else match nextTransport s with
    | none => s
    | some (tr, anew) =>
      match (look tr s.fil.waiting).getD [] with
      | [] => s
      | r :: t =>
        let s := { s with fil := { s.fil with
          waiting := put tr t s.fil.waiting, rr := Transport.index tr, taken := s.fil.taken + 1
          round := (if anew then [] else s.fil.round) ++ [Transport.index tr] } }
        let s := match fnOf tr with
          | some f => if r.slot.isSome then modFn s f fun x => { x with cmdCons := (x.cmdCons + 1) % 65536, idxDirty := true } else s
          | none => s
        takeLine s tr r

/-- A line arrives whole on a transport: on a ring it stands in the next slot, which its host has published and the TF64 has fetched. -/
def lineArrives (s : State) (t : Transport) (b : List Byte) : State :=
  let r : RawLine := { bytes := b, long := 200 < b.length, gen := sesModeOf s t == .generated }
  match fnOf t with
  | some f =>
    let x := s.pcie.fn[f]
    pushLine (modFn s f fun x => { x with
      fetched := (x.fetched + 1) % 65536, pSeen := if x.pSeen = x.fetched then (x.pSeen + 1) % 65536 else x.pSeen }) t
      { r with slot := some (x.fetched % 64) }
  | none => pushLine s t r

/-- LINE_INTAKE: the line that the row names joins those that wait, and the intake takes one in. -/
def lineIntake (t : Transport) (line : Option (List Byte)) (s : State) : State :=
  match line with
  | some b => intakeNext (if isRead s t then lineArrives s t b else s)
  | none => intakeNext s

/-- LINE_INTAKE. -/
def execLineIntake (t : Transport) (line : Option (List Byte)) (s : State) : Host.Outcome State Fault Refusal :=
  act s (lineIntake t line)

end Sys2Proof.Machine
end

