-- ==== Sys2Proof/Machine/Reads.lean ====
section
/-! DEFINITION. Register reads that change the machine: the two halves of a pair (R431) and the registers that clear when read. -/

namespace Sys2Proof.Machine

open Sys2Proof

/-- A read completes with a value. -/
def readGives (s : State) (v : Nat) : State := { s with out := { s.out with rdata := some (BitVec.ofNat 64 v) } }

/-- LO_HALF_READ (R431): a 4 B read of a low half latches the high one for the function; a register that is no half is only
read. -/
def loHalfRead (f : FnNo) (off : Nat) (s : State) : State :=
  let t := readGives s (regRead s f off)
  match pairAt s f off with
  | some v => modFn t f fun x => { x with latch := put (off + 4) (BitVec.ofNat 32 (halfOf v true)) x.latch }
  | none => t

/-- LO_HALF_READ. -/
def execLoHalfRead (f : FnNo) (off : Nat) (s : State) : Host.Outcome State Fault Refusal := act s (loHalfRead f off)

/-- HI_HALF_READ (R431): the latched value, which the read disarms; or the live one, and STALE with the offset. -/
def hiHalfRead (f : FnNo) (off : Nat) (s : State) : State :=
  if off < 4 || (pairAt s f (off - 4)).isNone then readGives s (regRead s f off)
  else match look off s.pcie.fn[f].latch with
    | some v => modFn (readGives s v.toNat) f fun x => { x with latch := x.latch.filter (·.1 ≠ off) }
    | none => modFn (readGives s (regRead s f off)) f fun x => { x with stale := true, halfOff := off }

/-- HI_HALF_READ. -/
def execHiHalfRead (f : FnNo) (off : Nat) (s : State) : Host.Outcome State Fault Refusal := act s (hiHalfRead f off)

/-- TICK_STAT_READ: RANGE clears. -/
def execTickStatRead (s : State) : Host.Outcome State Fault Refusal :=
  act s fun s => { readGives s (tickStat s) with tk := { s.tk with range := false } }

/-- PWR_STAT_READ: FLUSH_DONE and PF_RECORD clear. -/
def execPwrStatRead (s : State) : Host.Outcome State Fault Refusal :=
  act s fun s => { readGives s (pwrStat s) with pw := { s.pw with pf := { s.pw.pf with flushDone := false, pfRecord := false } } }

/-- CON_STAT_READ: BREAK and RESTORED clear. -/
def execConStatRead (s : State) : Host.Outcome State Fault Refusal :=
  act s fun s => { readGives s (conStat s) with fil := { s.fil with conBreak := false, conRestored := false } }

/-- CODE_STAT_READ: MAXK clears. -/
def execCodeStatRead (n : SadNo) (s : State) : Host.Outcome State Fault Refusal :=
  act s fun s => modSad (readGives s (codeStat s.sad[n])) n fun x => { x with maxK := 0 }

/-- POOL_STAT_READ: AUDIT_DONE and LEAK clear. -/
def execPoolStatRead (s : State) : Host.Outcome State Fault Refusal :=
  act s fun s => { readGives s (poolStat s) with pool := { s.pool with audDone := false, leak := false } }

/-- RING_STAT_READ: BADIDX, EN_BUSY and SEQERR clear. -/
def execRingStatRead (f : FnNo) (s : State) : Host.Outcome State Fault Refusal :=
  act s fun s => modFn (readGives s (ringStat s.pcie.fn[f])) f fun x => { x with badIdx := false, enBusy := false, seqErr := false }

/-- HALF_STAT_READ: STALE clears. -/
def execHalfStatRead (f : FnNo) (s : State) : Host.Outcome State Fault Refusal :=
  act s fun s => modFn (readGives s (halfStat s.pcie.fn[f])) f fun x => { x with stale := false }

/-- SP_STAT_READ: UNDERRUN and OVERRUN of the port that SP_SEL names clear. -/
def execSpStatRead (s : State) : Host.Outcome State Fault Refusal :=
  act s fun s =>
    let p := portNo s.pcie.spSel
    modPort (readGives s (spStat s p)) p fun x => { x with underrun := false, overrun := false }

/-- SHOCK_MG_READ: the peak clears. -/
def execShockMgRead (s : State) : Host.Outcome State Fault Refusal :=
  act s fun s => { readGives s (shockMg s) with sens := { s.sens with peak := 0 } }

/-- EVT_STAT_READ: DROP clears. -/
def execEvtStatRead (s : State) : Host.Outcome State Fault Refusal :=
  act s fun s => { readGives s (evtStat s) with evt := { s.evt with drop := false } }

/-- FLASH_STAT_READ: REERASED clears. -/
def execFlashStatRead (s : State) : Host.Outcome State Fault Refusal :=
  act s fun s => { readGives s (flashStat s) with fl := { s.fl with reerased := false } }

end Sys2Proof.Machine
end

