-- ==== Sys2Proof/Machine/Tick.lean ====
section
/-! DEFINITION. TICK_BOUNDARY (R16-R25): what a boundary does, in its fixed order. -/

namespace Sys2Proof.Machine

open Sys2Proof

/-! ### Step 2: the latches of the ending tick close -/

/-- A sealed saddle whose key slot is empty meets SEAL (R150); SEALWAIT shows it. -/
def sealCheck (s : State) (n : SadNo) : State :=
  let stuck := sealStuck s n
  let new := stuck && (s.sad[n].st == .opened || !s.sad[n].sealWait)
  let s := modSad s n fun x => { x with sealWait := stuck }
  if new then deferErr s n .seal else s

/-- Consecutive ticks outside HALT without an overrun (R420). -/
def countHealth (ovr : Bool) (s : State) : State :=
  { s with fw := { s.fw with health := if s.pw.devReady && s.pw.mode != .halt && !ovr then s.fw.health + 1 else 0 } }

/-- A character on the console takes ten bit times (R135): what the ending tick sent leaves the output buffer. A new rate holds from
the first boundary after the last stop bit of the reply at the old one (R138). -/
def conDrain (s : State) : State :=
  let credit := s.fil.conCredit + s.fil.baud * s.tk.periodNs
  let n := min (credit / 10000000000) s.fil.con.out.length
  let left := s.fil.con.out.drop n
  let owed := s.fil.baudLeft.map (· - n)
  let s := { s with fil := { s.fil with
    con := { s.fil.con with out := left }
    conCredit := if left.isEmpty then 0 else credit - n * 10000000000
    baudLeft := owed } }
  match owed, s.fil.baudPend with
  | some 0, some b => { s with fil := { s.fil with baud := b, baudPend := none, baudLeft := none, baudHeld := false } }
  | _, _ => s

/-- The ending tick is counted and what was found in it is raised, under its own PTC (R17, R93, R150). -/
def closeTick (x : TickIn) (s : State) : State :=
  let s := avsCheck x.marginMin (conDrain (countStretch (countHealth x.overrun s)))
  let s := settleWritten (declareFails s)
  let s := mediaEnd s
  let s := allSads.foldl sealCheck (guardScan (guardCount (guardTick s)))
  let s := allSads.foldl raiseDeferred s
  evtIntake (logsTick (countWaits (senseField x.antennaMv s)))

/-! ### Step 3: pending items apply -/

/-- Thresholds written since the last boundary come into force (R80). -/
def coalAll (s : State) : State :=
  let s := mapSad s fun _ x => { x with irq := applyCoal x.irq }
  { s with pcie := { s.pcie with irq := applyCoal s.pcie.irq } }

/-- The loops' updates, at most one each (R19). -/
def loopUpdates (x : TickIn) (s : State) : State :=
  let s := slewStep (clkStep x.busyPct x.overrun (avsCritical x.marginMin s))
  wplTick (bhStep (reinStep (motionTick x.reelBin.val s)))

/-- Saddle resets, then mode changes, then parameter changes, then loop updates (R16). Work of the firmware that is not finished
waits for the next boundary, and what the tick before left is done now (R23). -/
def applyPending (x : TickIn) (s : State) : State :=
  let s := resetsTick x.overrun s
  let s := { s with pcie := { s.pcie with admReset := s.pcie.admReset && !s.pcie.up } }
  let s := pfEnd (pfApply (applyModes (haltEntry s)))
  let s := coalAll (allFns.foldl applyEn s)
  let s := settleLocks (applySets x.overrun s)
  loopUpdates x s

/-! ### Step 4: replies -/

/-- Immediate lines, completions, replies, index areas and messages (R16 step 4, R24, R442). -/
def answer (closed : Nat) (ovr : Bool) (s : State) : State :=
  replyStep closed (postCompletions ovr (runImms ovr s))

/-- Replies of a tick that overran are held: those of the tick before it go out (R23, R24). -/
def ownReplies (ovr : Bool) (s : State) : List Reply := if ovr then s.fil.outq.drop s.fil.lateOut else []

/-- What a tick that overran leaves to the next boundary (R23, R24): its lines, its completions and its replies. -/
def markLate (ovr : Bool) (own : List Reply) (s : State) : State :=
  let late (q : Queue) : Queue := { entries := q.entries.map fun e => { e with late := ovr && e.ended.isSome } }
  let s := mapSad { s with adm := late s.adm } fun _ x => { x with q := late x.q }
  { s with fil := { s.fil with
      outq := s.fil.outq ++ own, lateOut := if ovr then s.fil.outq.length + own.length else 0
      lateSeq := if ovr then s.fil.seq else 0 } }

/-! ### Step 5: the new tick's work -/

/-- The preamplifier frames after a boundary while the write head has power (R297). -/
def pclSend (s : State) : State :=
  if s.pw.dom.write == .on then { s with out := { s.out with pcl := (List.finRange 4).map (pclTx s) } } else s

/-- A queue reset's release of caddies runs out (R163). -/
def drainStep (s : State) : State := mapSad s fun _ x => { x with drain := x.drain - 1 }

/-- Bytes of the admin channel's lines and replies that wait (R166). -/
def admBytes (s : State) : Nat :=
  let lines := (s.fil.waiting.filter fun (tr, _) => chanOf s tr == some .adm).flatMap fun (_, l) => l.map fun r => r.bytes.length
  let out := (s.fil.lines.filter fun l => l.ch == .adm && l.tag != .unsol).map fun l => l.text.length
  sumL (lines ++ out)

/-- The CONSOLE reserve holds the admin channel's waiting lines and replies: a caddy for each 64 KiB begun (R166, R215). -/
def consoleClaim (s : State) : State :=
  let want := min 16 ((admBytes s + 65535) / 65536)
  let held := (s.pool.caddies.filter fun c => c.owner == some ownConsole).map (·.idx)
  let s := (held.drop want).foldl (fun s i => askRelease s i (.owner ownConsole)) s
  { s with pool := { s.pool with
      allocs := s.pool.allocs.filter (· ≠ ownConsole) ++ List.replicate (want - held.length) ownConsole } }

/-- The pool manager, the coder, the read path and the logs (R19-R21, R220, R253). -/
def engines (s : State) : State :=
  let s := openWanted s
  let s := consoleClaim { s with used := {} }
  let s := claimLeads (poolTick (blockOf s) (sweepRefs (pruneStore s)))
  let s := c2Tick (readsOn s)
  let s := codeBlocks (budget s 98) (budget s 98) s
  let s := allSads.foldl syncForce s
  let s := flowModes (flowLatches (poolLive (readTape (readTurn s))))
  flashCopy (eraseTick (drainStep s))

/-- The boundary itself: PTC counts and HB toggles (R16 step 1, R26, R68). -/
def countTick (s : State) : State := { s with clk := { s.clk with ptc := s.clk.ptc + 1, hb := !s.clk.hb } }

/-- TICK_BOUNDARY of a running part. What the ending tick's latches raise carries that tick's PTC, what comes after them the new one
(R17). -/
def tickBoundary (x : TickIn) (s : State) : State :=
  let closed := now s
  let own := ownReplies x.overrun s
  let s := countOverrun x.overrun { s with
    out := {}, fil := { s.fil with taken := 0, round := [], outq := if x.overrun then s.fil.outq.take s.fil.lateOut else s.fil.outq } }
  let s := takeStats (applyPending x (countTick (closeTick x s)))
  let s := markLate x.overrun own (answer closed x.overrun s)
  pclSend (mdlSend (engines s))

/-- PTC and HB run whenever PORST_N is deasserted and the supply holds, also in a unit that its boot ROM has stopped (R26, R68,
R424). -/
def ticking (s : State) : Bool := !s.clk.porst && !s.clk.uv

/-- TICK_BOUNDARY: no tick ends while the part is in reset (R26, R482); a unit stopped at boot only counts (R424 step 2). -/
def execTickBoundary (x : TickIn) (s : State) : Host.Outcome State Fault Refusal :=
  if live s then
    let t := tickBoundary x s
    .next { t with clk := { s.clk with ptc := s.clk.ptc + 1, hb := !s.clk.hb }, pending := s.pending }
  else if ticking s then .next (countTick { s with out := {} })
  else .next s

end Sys2Proof.Machine
end

