-- ==== Sys2Proof/Machine/Dispatch.lean ====
section
/-! DEFINITION. The meaning of every command, one arm per row of spec/opcode_table.json. -/

namespace Sys2Proof.Machine

open Sys2Proof

/-- The effect of a command on everything but the queue of pending commands. -/
def exec (i : Instr) (s : State) : Host.Outcome State Fault Refusal :=
  match i with
  | .tickBoundary x => Sys2Proof.Machine.execTickBoundary x s
  | .ftickEdge periodNs phaseNs => Sys2Proof.Machine.execFtickEdge periodNs phaseNs s
  | .ftickMissing => Sys2Proof.Machine.execFtickMissing s
  | .porstAssert => Sys2Proof.Machine.execPorstAssert s
  | .porstDeassert entropy tmode gib16 obs => Sys2Proof.Machine.execPorstDeassert entropy tmode gib16 obs s
  | .startUpComplete => Sys2Proof.Machine.execStartUpComplete s
  | .supplyUndervoltage => Sys2Proof.Machine.execSupplyUndervoltage s
  | .xtalLost => Sys2Proof.Machine.execXtalLost s
  | .pwrFailRecognised => Sys2Proof.Machine.execPwrFailRecognised s
  | .powerFailRecordDone => Sys2Proof.Machine.execPowerFailRecordDone s
  | .flushDone => Sys2Proof.Machine.execFlushDone s
  | .pwrFailReturn => Sys2Proof.Machine.execPwrFailReturn s
  | .watchdogExpiry obs => Sys2Proof.Machine.execWatchdogExpiry obs s
  | .coreRestart obs => Sys2Proof.Machine.execCoreRestart obs s
  | .avsUpdate margin failedTries readMv => Sys2Proof.Machine.execAvsUpdate margin failedTries readMv s
  | .thermWarn tj => Sys2Proof.Machine.execThermWarn tj s
  | .lineIntake t line => Sys2Proof.Machine.execLineIntake t line s
  | .consoleRxByte b bad => Sys2Proof.Machine.execConsoleRxByte b bad s
  | .consoleBreak bitTimes => Sys2Proof.Machine.execConsoleBreak bitTimes s
  | .consoleRestore => Sys2Proof.Machine.execConsoleRestore s
  | .lineFault => Sys2Proof.Machine.execLineFault s
  | .lineFaultRecovery ticks => Sys2Proof.Machine.execLineFaultRecovery ticks s
  | .commandStart ch table => Sys2Proof.Machine.execCommandStart ch table s
  | .abort ch target sad => Sys2Proof.Machine.execAbort ch target sad s
  | .activate tag slot sigOk => Sys2Proof.Machine.execActivate tag slot sigOk s
  | .arm tag action => Sys2Proof.Machine.execArm tag action s
  | .armExpiry => Sys2Proof.Machine.execArmExpiry s
  | .cal tag items band => Sys2Proof.Machine.execCal tag items band s
  | .calComplete results ticks => Sys2Proof.Machine.execCalComplete results ticks s
  | .chanList tag => Sys2Proof.Machine.execChanList tag s
  | .chanOut tag c => Sys2Proof.Machine.execChanOut tag c s
  | .chanIn tag c => Sys2Proof.Machine.execChanIn tag c s
  | .clear ch tag sad => Sys2Proof.Machine.execClear ch tag sad s
  | .cmRead tag part => Sys2Proof.Machine.execCmRead tag part s
  | .cmRepair tag => Sys2Proof.Machine.execCmRepair tag s
  | .commit tag note => Sys2Proof.Machine.execCommit tag note s
  | .configs ch tag => Sys2Proof.Machine.execConfigs ch tag s
  | .confirm tag action code => Sys2Proof.Machine.execConfirm tag action code s
  | .discard ch tag sad fromG => Sys2Proof.Machine.execDiscard ch tag sad fromG s
  | .events ch tag after n level => Sys2Proof.Machine.execEvents ch tag after n level s
  | .get ch tag names => Sys2Proof.Machine.execGet ch tag names s
  | .hello ch tag session => Sys2Proof.Machine.execHello ch tag session s
  | .infoDev ch tag => Sys2Proof.Machine.execInfoDev ch tag s
  | .infoFw ch tag => Sys2Proof.Machine.execInfoFw ch tag s
  | .infoLink ch tag => Sys2Proof.Machine.execInfoLink ch tag s
  | .infoDram ch tag => Sys2Proof.Machine.execInfoDram ch tag s
  | .infoPorts ch tag => Sys2Proof.Machine.execInfoPorts ch tag s
  | .keyPart tag slot seq w => Sys2Proof.Machine.execKeyPart tag slot seq w s
  | .keyLoad tag slot => Sys2Proof.Machine.execKeyLoad tag slot s
  | .keyZero tag slot => Sys2Proof.Machine.execKeyZero tag slot s
  | .keyList tag => Sys2Proof.Machine.execKeyList tag s
  | .keyKek tag seq w => Sys2Proof.Machine.execKeyKek tag seq w s
  | .load tag => Sys2Proof.Machine.execLoad tag s
  | .loadComplete obs => Sys2Proof.Machine.execLoadComplete obs s
  | .locate ch tag sad target => Sys2Proof.Machine.execLocate ch tag sad target s
  | .tapePositioned ch dsn probes moved girth => Sys2Proof.Machine.execTapePositioned ch dsn probes moved girth s
  | .logText ch tag text => Sys2Proof.Machine.execLogText ch tag text s
  | .logSave tag => Sys2Proof.Machine.execLogSave tag s
  | .mark n tag note => Sys2Proof.Machine.execMark n tag note s
  | .mode ch tag target => Sys2Proof.Machine.execMode ch tag target s
  | .modeComplete => Sys2Proof.Machine.execModeComplete s
  | .plaitShow ch tag start n => Sys2Proof.Machine.execPlaitShow ch tag start n s
  | .plaitPut tag pos els => Sys2Proof.Machine.execPlaitPut tag pos els s
  | .plaitApply tag => Sys2Proof.Machine.execPlaitApply tag s
  | .plaitAuto tag => Sys2Proof.Machine.execPlaitAuto tag s
  | .qreset ch sad => Sys2Proof.Machine.execQreset ch sad s
  | .read n tag a => Sys2Proof.Machine.execRead n tag a s
  | .readDelivered n => Sys2Proof.Machine.execReadDelivered n s
  | .rollback tag target => Sys2Proof.Machine.execRollback tag target s
  | .saddleOpen tag n => Sys2Proof.Machine.execSaddleOpen tag n s
  | .saddleClose tag n => Sys2Proof.Machine.execSaddleClose tag n s
  | .saddleSet ch tag n a => Sys2Proof.Machine.execSaddleSet ch tag n a s
  | .seal tag n on slot => Sys2Proof.Machine.execSeal tag n on slot s
  | .set ch tag pairs => Sys2Proof.Machine.execSet ch tag pairs s
  | .space ch tag sad by_ => Sys2Proof.Machine.execSpace ch tag sad by_ s
  | .sreset ch tag sad => Sys2Proof.Machine.execSreset ch tag sad s
  | .status ch tag sad => Sys2Proof.Machine.execStatus ch tag sad s
  | .sync n tag => Sys2Proof.Machine.execSync n tag s
  | .syncComplete n => Sys2Proof.Machine.execSyncComplete n s
  | .testDram tag pass => Sys2Proof.Machine.execTestDram tag pass s
  | .testFlash tag pass => Sys2Proof.Machine.execTestFlash tag pass s
  | .testLoop tag pass => Sys2Proof.Machine.execTestLoop tag pass s
  | .testPattern tag pass => Sys2Proof.Machine.execTestPattern tag pass s
  | .testComplete r => Sys2Proof.Machine.execTestComplete r s
  | .time ch tag t text => Sys2Proof.Machine.execTime ch tag t text s
  | .unload tag => Sys2Proof.Machine.execUnload tag s
  | .unloadComplete cmOk => Sys2Proof.Machine.execUnloadComplete cmOk s
  | .updateBegin tag target len => Sys2Proof.Machine.execUpdateBegin tag target len s
  | .updateData tag off d sigOk => Sys2Proof.Machine.execUpdateData tag off d sigOk s
  | .updateDma tag off addr len d sigOk => Sys2Proof.Machine.execUpdateDma tag off addr len d sigOk s
  | .updateEnd tag sigOk => Sys2Proof.Machine.execUpdateEnd tag sigOk s
  | .updateCancel tag => Sys2Proof.Machine.execUpdateCancel tag s
  | .write n tag a => Sys2Proof.Machine.execWrite n tag a s
  | .acknowledge n => Sys2Proof.Machine.execAcknowledge n s
  | .saddleReset n => Sys2Proof.Machine.execSaddleReset n s
  | .saddleResetDone n => Sys2Proof.Machine.execSaddleResetDone n s
  | .guardHoldTimeout => Sys2Proof.Machine.execGuardHoldTimeout s
  | .lockWaitExpiry n => Sys2Proof.Machine.execLockWaitExpiry n s
  | .closeTicksExpiry n => Sys2Proof.Machine.execCloseTicksExpiry n s
  | .plaitEpochStart => Sys2Proof.Machine.execPlaitEpochStart s
  | .dataSetBoundary => Sys2Proof.Machine.execDataSetBoundary s
  | .wrapEnd => Sys2Proof.Machine.execWrapEnd s
  | .appendPositioning confirmed => Sys2Proof.Machine.execAppendPositioning confirmed s
  | .rewriteAreaClose => Sys2Proof.Machine.execRewriteAreaClose s
  | .rowVerify c slotpos obs => Sys2Proof.Machine.execRowVerify c slotpos obs s
  | .verifyWedge c identBits burstA burstB => Sys2Proof.Machine.execVerifyWedge c identBits burstA burstB s
  | .inhibitClear => Sys2Proof.Machine.execInhibitClear s
  | .shockNFall => Sys2Proof.Machine.execShockNFall s
  | .shockNRise => Sys2Proof.Machine.execShockNRise s
  | .shockStuck => Sys2Proof.Machine.execShockStuck s
  | .pclRxFrame g frame => Sys2Proof.Machine.execPclRxFrame g frame s
  | .readWedgeSync c window identBits burstA burstB => Sys2Proof.Machine.execReadWedgeSync c window identBits burstA burstB s
  | .readRowDecode c slotpos obs => Sys2Proof.Machine.execReadRowDecode c slotpos obs s
  | .c3Decode => Sys2Proof.Machine.execC3Decode s
  | .rescuePass obs => Sys2Proof.Machine.execRescuePass obs s
  | .readaheadFull => Sys2Proof.Machine.execReadaheadFull s
  | .readaheadResume => Sys2Proof.Machine.execReadaheadResume s
  | .servoFrame readers => Sys2Proof.Machine.execServoFrame readers s
  | .servoBandLost hi => Sys2Proof.Machine.execServoBandLost hi s
  | .servoBandRegained hi => Sys2Proof.Machine.execServoBandRegained hi s
  | .wedgePositionLost => Sys2Proof.Machine.execWedgePositionLost s
  | .tensionFault => Sys2Proof.Machine.execTensionFault s
  | .mdlRxFrame frame => Sys2Proof.Machine.execMdlRxFrame frame s
  | .backhitchStart => Sys2Proof.Machine.execBackhitchStart s
  | .backhitchResume => Sys2Proof.Machine.execBackhitchResume s
  | .cmBackoffExpiry fieldMv => Sys2Proof.Machine.execCmBackoffExpiry fieldMv s
  | .cmTimeout => Sys2Proof.Machine.execCmTimeout s
  | .poolAuditWalkEnd tally => Sys2Proof.Machine.execPoolAuditWalkEnd tally s
  | .descriptorParityError => Sys2Proof.Machine.execDescriptorParityError s
  | .flashOpComplete op ok addr => Sys2Proof.Machine.execFlashOpComplete op ok addr s
  | .flashReadSuspend => Sys2Proof.Machine.execFlashReadSuspend s
  | .flashDescriptor idx fails => Sys2Proof.Machine.execFlashDescriptor idx fails s
  | .flashAccess pcInRom addr => Sys2Proof.Machine.execFlashAccess pcInRom addr s
  | .trialMark => Sys2Proof.Machine.execTrialMark s
  | .fwConfirm => Sys2Proof.Machine.execFwConfirm s
  | .cmdDb f value => Sys2Proof.Machine.execCmdDb f value s
  | .rplDb f value => Sys2Proof.Machine.execRplDb f value s
  | .cmdSlotFetch f slot => Sys2Proof.Machine.execCmdSlotFetch f slot s
  | .ringCtlWrite f value => Sys2Proof.Machine.execRingCtlWrite f value s
  | .irqCauseWrite f n value => Sys2Proof.Machine.execIrqCauseWrite f n value s
  | .irqCoalWrite f n value => Sys2Proof.Machine.execIrqCoalWrite f n value s
  | .pfIrqCauseWrite value => Sys2Proof.Machine.execPfIrqCauseWrite value s
  | .pfIrqCoalWrite value => Sys2Proof.Machine.execPfIrqCoalWrite value s
  | .registerWrite f off len value => Sys2Proof.Machine.execRegisterWrite f off len value s
  | .barBadRead f off len => Sys2Proof.Machine.execBarBadRead f off len s
  | .loHalfRead f off => Sys2Proof.Machine.execLoHalfRead f off s
  | .hiHalfRead f off => Sys2Proof.Machine.execHiHalfRead f off s
  | .tickStatRead => Sys2Proof.Machine.execTickStatRead s
  | .pwrStatRead => Sys2Proof.Machine.execPwrStatRead s
  | .conStatRead => Sys2Proof.Machine.execConStatRead s
  | .codeStatRead n => Sys2Proof.Machine.execCodeStatRead n s
  | .poolStatRead => Sys2Proof.Machine.execPoolStatRead s
  | .ringStatRead f => Sys2Proof.Machine.execRingStatRead f s
  | .halfStatRead f => Sys2Proof.Machine.execHalfStatRead f s
  | .spStatRead => Sys2Proof.Machine.execSpStatRead s
  | .shockMgRead => Sys2Proof.Machine.execShockMgRead s
  | .evtStatRead => Sys2Proof.Machine.execEvtStatRead s
  | .flashStatRead => Sys2Proof.Machine.execFlashStatRead s
  | .msixUnmask f vec => Sys2Proof.Machine.execMsixUnmask f vec s
  | .vfFlr n => Sys2Proof.Machine.execVfFlr n s
  | .pfReset k => Sys2Proof.Machine.execPfReset k s
  | .vfEnableChange enable numVfs => Sys2Proof.Machine.execVfEnableChange enable numVfs s
  | .dmaComplete f kind result => Sys2Proof.Machine.execDmaComplete f kind result s
  | .tlpError e => Sys2Proof.Machine.execTlpError e s
  | .spDataWord p word => Sys2Proof.Machine.execSpDataWord p word s
  | .spControlByte p b => Sys2Proof.Machine.execSpControlByte p b s
  | .spSelect p selD selC => Sys2Proof.Machine.execSpSelect p selD selC s
  | .sensorPoll shock temp0 temp1 => Sys2Proof.Machine.execSensorPoll shock temp0 temp1 s
  | .undervoltageRelease entropy tmode gib16 obs => Sys2Proof.Machine.execUndervoltageRelease entropy tmode gib16 obs s
  | .pcieLinkUp speed width => Sys2Proof.Machine.execPcieLinkUp speed width s
  | .firmwareAssertion => Sys2Proof.Machine.execFirmwareAssertion s
  | .thermalCauseCleared tj => Sys2Proof.Machine.execThermalCauseCleared tj s
  | .crystalReturn => Sys2Proof.Machine.execCrystalReturn s

end Sys2Proof.Machine
end

