-- ==== Sys2Proof/Machine/Pins.lean ====
section
/-! DEFINITION. The levels of the output balls (R70, R71, R382, R465, R478, R491): what the part drives in reset and while it
runs. An unpowered part drives nothing; power is no state of the model (log 138). -/

namespace Sys2Proof.Machine

open Sys2Proof

/-- What a ball shows. -/
inductive Level where
  /-- driven low, or LVDS at logic 0 -/
  | low
  /-- driven high -/
  | high
  /-- a differential pair at electrical idle -/
  | idle
  /-- an open-drain line that the part does not pull -/
  | released
  /-- high impedance -/
  | hiZ
  /-- the field of the antenna is off -/
  | off
  /-- it carries the interface's signal -/
  | active
deriving DecidableEq, Repr, Inhabited

/-- The output balls (R477). -/
inductive Ball where
  | wg (g : GroupNo) | wl (c : ChNo) | hb | spReady (p : PortNo) | spDo (p : PortNo) | mdlTx | mdlClk | conTxd
  | senScl | senSda | pmbScl | pmbSda | peTx | pclClk (g : GroupNo) | pclTx (g : GroupNo)
  | ddrResetN | ddrCs | ddrCk | ddrOther | cmAnt | xtalOut
deriving DecidableEq, Repr, Inhabited

/-- A level from a bit. -/
def lvl (b : Bool) : Level := if b then .high else .low

/-- Outputs of an unpowered part (R70, R465, R491): nothing is driven; `none` where the spec states no level. -/
def unpoweredLevel : Ball → Option Level
  | .xtalOut => none
  | _ => some .hiZ

/-- The ball sites (R476), by row and column index from 1. -/
def siteHasBall (r c : Nat) : Bool :=
  let edge (k : Nat) : Bool := k ≤ 5 || 64 ≤ k
  let inner (k : Nat) : Bool := 13 ≤ k && k ≤ 56 && k % 2 = 0
  1 ≤ r && r ≤ 68 && 1 ≤ c && c ≤ 68 && !(edge r && edge c) && !(inner r && inner c)

/-- Balls in a row of the array. -/
def ballsInRow (r : Nat) : Nat := ((List.range 68).filter fun c => siteHasBall r (c + 1)).length

/-- The rails that the part monitors (R482) with their minima in mV: it resets itself below 92 % of one. -/
def railMin : List (String × Nat) := [("VDD_AON", 776), ("VDD_CORE", 640), ("VDD_IO18", 1710), ("VDD_IO33", 3135)]

/-- A rail at `mv` has fallen to where the part resets itself (R482). -/
def railShort (name : String) (mv : Nat) : Bool := match look name railMin with
  | some m => 100 * mv < 92 * m
  | none => false

/-- Outputs while PORST_N is asserted or the part resets itself, and with TMODE high (R70, R465, R478, R491). -/
def resetLevel : Ball → Level
  | .wg _ | .wl _ | .hb | .spReady _ | .spDo _ | .pclClk _ | .pclTx _ | .mdlTx | .mdlClk | .ddrResetN | .ddrCs | .ddrCk => .low
  | .conTxd => .high
  | .senScl | .senSda | .pmbScl | .pmbSda => .released
  | .peTx => .idle
  | .ddrOther => .hiZ
  | .cmAnt => .off
  | .xtalOut => .active

/-- A test or a calibration writes (R71, R503, R505). -/
def testWrites (s : State) : Bool :=
  s.diag.running && (s.diag.what == .pattern || (s.diag.what == .cal && s.diag.items.contains .write))

/-- A write gate may be high (R71): not in HALT, not in SERVICE unless a test writes, and never with WRITE idle or off. -/
def gateAllowed (s : State) : Bool :=
  s.pw.dom.write == .on && s.pw.mode != .halt && (s.pw.mode != .service || testWrites s)

/-- Power may be removed without loss (R61): MODE_STAT reads PARK, FLASH_BUSY reads 0, and no saddle holds acknowledged girths that are
not on tape. -/
def powerRemovable (s : State) : Bool := s.pw.mode == .park && !flashBusy s && allSads.all fun n => unsyncBytes s.sad[n] = 0

/-! ### The write lanes (R294-R296) -/

/-- The channel bits of the frame that a channel's lane carries: none where the channel is out. -/
def laneBits (s : State) (c : ChNo) : List Bool :=
  match s.med.lane with
  | .idle => []
  | .frame d =>
    match s.med.written.find? (·.dsn = d) with
    | some w => if (chansOut s).contains c.val then [] else
      channelFrame w s.clk.session (fun k => s.med.written.find? (·.dsn = k)) c
    | none => []

/-- NRZI (R294): a 1 toggles the lane's level, a 0 keeps it. -/
def nrzi : Bool → List Bool → List Bool
  | _, [] => []
  | l, b :: t => let k := xor l b; k :: nrzi k t

/-- The levels of a lane in its bit cells, from the level before the frame; a channel that is out stays at 0 (R294, R296). -/
def laneLevels (s : State) (start : Bool) (c : ChNo) : List Bool := nrzi start (laneBits s c)

/-- The delay of each cell's transition in 1/64 of a bit period (R295): a transition right behind another is delayed by PC. -/
def delays (pc : Nat) : Bool → List Bool → List Nat
  | _, [] => []
  | prev, b :: t => (if b && prev then pc else 0) :: delays pc b t

/-- The delays on a channel's lane, by the precompensation that its frame began with (R295, R308). -/
def laneDelays (s : State) (c : ChNo) : List Nat :=
  match s.med.lane with
  | .idle => []
  | .frame d => match s.med.written.find? (·.dsn = d) with
    | some w => delays (w.pcs.getD c.val 0) false (laneBits s c)
    | none => []

/-! ### Output levels -/

/-- The level of an output ball. -/
def ballLevel (s : State) (b : Ball) : Level :=
  if s.clk.porst || s.clk.uv then resetLevel b
  else
    match b with
    | .wg g => lvl (gateAllowed s && s.med.gates[g])
    | .wl c => if gateAllowed s && s.med.lane != .idle && !(chansOut s).contains c.val then .active else .low
    | .hb => lvl s.clk.hb
    | .spReady p => lvl (portReady s p)
    | .spDo _ | .xtalOut => .active
    | .mdlTx | .mdlClk => if s.pw.dom.motion == .off then .low else .active
    | .conTxd => if s.fil.con.out.isEmpty then .high else .active
    | .senScl | .senSda | .pmbScl | .pmbSda => .released
    | .peTx => if s.pcie.up then .active else .idle
    | .pclClk _ | .pclTx _ => if s.pw.dom.write == .on then .active else .low
    | .ddrResetN | .ddrCs | .ddrCk | .ddrOther => if s.pw.dom.dram == .off then resetLevel b else .active
    | .cmAnt => if s.cart.cmWait.isSome then .active else .off

end Sys2Proof.Machine
end

