-- ==== Sys2Proof/Safety.lean ====
section
/-! DEFINITION. The terms in which the statements speak: the invariants that every step keeps, when a command's
own effect is due, how a command ends, and what a step may touch. -/

namespace Sys2Proof.Machine

open Sys2Proof

/-- PTC is zero while the part is in reset, and a running part has a session ID other than zero (R26, R28). -/
def ClkInv (s : State) : Prop :=
  ((s.clk.porst = true ∨ s.clk.uv = true) → s.clk.ptc = 0#64) ∧
  ((s.clk.porst = false ∧ s.clk.uv = false) → s.clk.session ≠ 0#64)

/-- The steps that may change PTC, the session ID, HB and the reset pins' state: a tick boundary, and the start and end of a
power-on reset (R26, R28, R68, R482). -/
def clkStepOf : Instr → Bool
  | .tickBoundary _ => true
  | .porstAssert => true
  | .porstDeassert .. => true
  | .supplyUndervoltage => true
  | .undervoltageRelease .. => true
  | _ => false

/-- A verb's effect is due: the part takes commands, and the tagged command executes on its channel and has not yet had its
effect (R139-R143). -/
def Runs (s : State) (ch : Chan) (t : Nat) (v : Verb) : Prop :=
  live s = true ∧ ready s = true ∧ t < tagCount ch ∧
    ∃ e, entryOf s ch t = some e ∧ e.phase = .executing ∧ e.verb = v ∧ e.begun = false ∧ e.ended = none

/-- The command of a tag has its outcome; its reply is posted in order (R142, R145). -/
def EndedWith (s : State) (ch : Chan) (t : Nat) (o : Outc) : Prop :=
  ∃ e, entryOf s ch t = some e ∧ e.ended = some o

/-- The command of a tag goes on executing: it has begun and has no outcome yet. -/
def Going (s : State) (ch : Chan) (t : Nat) : Prop :=
  ∃ e, entryOf s ch t = some e ∧ e.begun = true ∧ e.ended = none ∧ e.phase = .executing

/-- A channel's queue in place of the one it has. -/
def withQueue (s : State) (ch : Chan) (q : Queue) : State :=
  match ch with
  | .adm => { s with adm := q }
  | .sad n => modSad s n fun x => { x with q := q }

/-- A state with the outputs of the step before cleared, as every step of the running part begins. -/
def quiet (s : State) : State := { s with out := {} }

/-- The other commands of a channel are as they were. -/
def OthersKept (s s' : State) (ch : Chan) (t : Nat) : Prop := ∀ k, k ≠ t → entryOf s' ch k = entryOf s ch k

/-- The command of a tag ends in this step with an outcome. But for its channel's queue, the next state is `u`; the other
commands of the channel are as they were. -/
def EndsAs (c : Instr) (s : State) (ch : Chan) (t : Nat) (o : Outc) (u : State) : Prop :=
  ∃ q, exec c s = .next (withQueue u ch q) ∧ EndedWith (withQueue u ch q) ch t o ∧ OthersKept s (withQueue u ch q) ch t

/-- The command ends in this step, and nothing but its entry and the step's outputs changes. -/
def EndsOnly (c : Instr) (s : State) (ch : Chan) (t : Nat) (o : Outc) : Prop := EndsAs c s ch t o (quiet s)

/-- The command of a tag begins and goes on executing. But for its channel's queue, the next state is `u`; the other commands of
the channel are as they were. -/
def GoesOn (c : Instr) (s : State) (ch : Chan) (t : Nat) (u : State) : Prop :=
  ∃ q, exec c s = .next (withQueue u ch q) ∧ Going (withQueue u ch q) ch t ∧ OthersKept s (withQueue u ch q) ch t

end Sys2Proof.Machine
end

