-- ==== Sys2Proof/Certificates/Slice0/Obligations.lean ====
section
/-! DEFINITION. The statements for the provers. Each says in its docstring which rule of spec/ it formalises, or which choice of
the model's (a log entry) it rests on. -/

open Sys2Proof Sys2Proof.Machine

/-! ### The block as a whole -/

/-- One step takes the command at the front of the queue and runs it with the queue's rest. -/
def Obligations.StepRunsFrontCommand : Prop :=
  ∀ (c : Instr) (rest : List Instr) (s : State), step { s with pending := c :: rest } = exec c { s with pending := rest }

/-- A command leaves the commands that wait as they are, so the queue is first in, first out; on an empty queue the block idles (the
model's choice, log 2). -/
def Obligations.CommandKeepsQueue : Prop :=
  (∀ (c : Instr) (s t : State), exec c s = .next t → t.pending = s.pending) ∧
  (∀ s : State, s.pending = [] → step s = .next s)

/-- R27: nothing but a tick boundary and a power-on reset alters PTC; nothing but a power-on reset alters the session ID. Saddle
resets, function-level resets, QRESET, mode changes with HALT, and core restarts are among the rest. -/
def Obligations.OnlyTicksAndResetsAlterPtc : Prop :=
  ∀ (c : Instr) (s t : State), exec c s = .next t →
    (clkStepOf c = false → t.clk = s.clk) ∧ (∀ x, c = .tickBoundary x → t.clk.session = s.clk.session)

/-- A part in reset, or stopped at boot, does nothing on any command but those that reset it or end the reset (log 3), and the tick
boundary: no tick ends in reset (R26), and a part stopped at boot goes on counting PTC and toggling HB (R424 step 2). -/
def Obligations.PartInResetDoesNothing : Prop :=
  (∀ (c : Instr) (s : State), live s = false →
    c ≠ .porstAssert → c ≠ .supplyUndervoltage → (∀ x, c ≠ .tickBoundary x) →
    (∀ e tm g o, c ≠ .porstDeassert e tm g o) → (∀ e tm g o, c ≠ .undervoltageRelease e tm g o) → exec c s = .next s) ∧
  (∀ (x : TickIn) (s : State), (s.clk.porst = true ∨ s.clk.uv = true) → exec (.tickBoundary x) s = .next s) ∧
  (∀ (x : TickIn) (s : State), s.clk.porst = false → s.clk.uv = false → s.pw.dead = true →
    exec (.tickBoundary x) s = .next { quiet s with clk := { s.clk with ptc := s.clk.ptc + 1, hb := !s.clk.hb } })

/-- No command is refused, and the one fault is a flash descriptor that names buffer DRAM beyond its end (R213, R398). -/
def Obligations.OnlyDescriptorBeyondDramFaults : Prop :=
  (∀ (c : Instr) (s : State) r, exec c s ≠ .refused r) ∧
  ∀ (c : Instr) (s : State) f, exec c s = .fault f →
    ∃ (i : Fin 16) (fails : Option (Nat × Bool)) (d : Desc), c = .flashDescriptor i fails ∧ s.fl.queue[i.val]? = some d ∧
      (d.op = 1 ∨ d.op = 2) ∧ dramSize s < d.daddr + d.len ∧ f = .dramHole d.daddr

/-- R26 and R28 as an invariant that every step keeps: PTC reads 0 while the part is in reset, and a running part's session ID is
never 0. -/
def Obligations.EveryStepKeepsClock : Prop :=
  ∀ s t : State, ClkInv s → step s = .next t → ClkInv t

/-- The invariant of the clock holds at reset. -/
def Obligations.ClockHoldsAtReset : Prop := ClkInv State.reset

/-- What reset leaves where the spec states it: PORST_N asserted, PTC and the session ID 0 (R26), MODE_STAT STARTING (R70), no
saddle open, nothing queued, no event record, the write gates low, no channel's interrupt cause latched, and the console seated in
typed mode. The outputs stand as R70 gives them: the write gates, the 64 write lanes, HB, SPn_READY and the motor link at logic 0, CON_TXD
high, both I2C buses released. -/
def Obligations.ResetValues : Prop :=
  State.reset.clk.porst = true ∧ State.reset.clk.ptc = 0#64 ∧ State.reset.clk.session = 0#64 ∧
  State.reset.pw.mode = .starting ∧ State.reset.pw.devReady = false ∧
  (∀ n : SadNo, State.reset.sad[n].st = .closed ∧ State.reset.sad[n].q.entries = [] ∧ State.reset.sad[n].irq.cause = []) ∧
  State.reset.adm.entries = [] ∧ State.reset.evt.ring = [] ∧ (∀ g : GroupNo, State.reset.med.gates[g] = false) ∧
  State.reset.fil.con.mode = .typed ∧ (∀ f : FnNo, State.reset.pcie.fn[f].en = false) ∧ State.reset.pending = [] ∧
  (∀ g : GroupNo, ballLevel State.reset (.wg g) = .low) ∧ (∀ c : ChNo, ballLevel State.reset (.wl c) = .low) ∧
  ballLevel State.reset .hb = .low ∧ (∀ p : PortNo, ballLevel State.reset (.spReady p) = .low) ∧ ballLevel State.reset .mdlTx = .low ∧
  ballLevel State.reset .mdlClk = .low ∧ ballLevel State.reset .conTxd = .high ∧ ballLevel State.reset .senScl = .released ∧
  ballLevel State.reset .senSda = .released ∧ ballLevel State.reset .pmbScl = .released ∧ ballLevel State.reset .pmbSda = .released ∧
  ballLevel State.reset .cmAnt = .off

/-! ### Memories -/

/-- A byte written is read back, and every other address reads as before; the same of bytes written to the buffer DRAM. -/
def Obligations.MemoryReadAfterWrite : Prop :=
  (∀ (m : Mem) (a b : Nat) (v : Byte), m.wf = true → (m.set a v).get b = if b = a then v else m.get b) ∧
  (∀ (s : State) (a : Nat) (l : List Byte), s.dram.wf = true →
    dramRead (dramWrite s a l) a l.length = l ∧
    ∀ b, (b < a ∨ a + l.length ≤ b) → dramRead (dramWrite s a l) b 1 = dramRead s b 1)

/-! ### Tick and chip -/

/-- R16, R26, R68: at a tick boundary of a running part PTC goes up by 1 and HB toggles; the session ID and the reset pins stay. -/
def Obligations.TickBoundaryAdvancesPtc : Prop :=
  ∀ (x : TickIn) (s : State), live s = true →
    ∃ t, exec (.tickBoundary x) s = .next t ∧ t.clk = { s.clk with ptc := s.clk.ptc + 1, hb := !s.clk.hb }

/-- FTICK's edges (R8, R11, R12, R475) and its loss (R10). A period outside 50.0 to 200.0 µs sets RANGE and is never locked to: unlocked,
the tick goes on as it is; locked, the lock is lost and the tick flywheels (the model's reading of R12, log 119). The eighth consecutive
consistent period locks; a locked edge gives the period to slew to; a missing edge of a locked FTICK flywheels at the last locked period,
in force from the next boundary on; with the crystal selected an edge does nothing. -/
def Obligations.FtickLocksAndFlywheels : Prop :=
  (∀ (p : Nat) (ph : Int) (s : State), live s = true → s.tk.ftick = false → exec (.ftickEdge p ph) s = .next (quiet s)) ∧
  (∀ (p : Nat) (ph : Int) (s : State), live s = true → s.tk.ftick = true → (p < 50000 ∨ 200000 < p) → s.tk.locked = false →
    exec (.ftickEdge p ph) s = .next { quiet s with tk := { s.tk with range := true, run := [] } }) ∧
  (∀ (p : Nat) (ph : Int) (s : State), live s = true → s.tk.ftick = true → (p < 50000 ∨ 200000 < p) → s.tk.locked = true →
    ∃ t, exec (.ftickEdge p ph) s = .next t ∧ t.tk = { s.tk with
        range := true, run := [], locked := false, flywheel := true, slewing := false, target := none, phase := 0
        periodPend := some (s.tk.lastLocked.getD s.tk.periodNs) } ∧ t.sad = s.sad ∧ t.med = s.med ∧ t.cfg = s.cfg) ∧
  (∀ (p : Nat) (ph : Int) (s : State), live s = true → s.tk.ftick = true → 50000 ≤ p → p ≤ 200000 → s.tk.locked = true →
    ∃ t, exec (.ftickEdge p ph) s = .next t ∧ t.tk.locked = true ∧ t.tk.lastLocked = some p ∧ t.tk.target = some p ∧
      t.tk.periodNs = s.tk.periodNs) ∧
  (∀ (p : Nat) (ph : Int) (s : State), live s = true → s.tk.ftick = true → 50000 ≤ p → p ≤ 200000 → s.tk.locked = false →
    let run := (fitRun p s.tk.run).take 8
    ∃ t, exec (.ftickEdge p ph) s = .next t ∧ t.tk.run = run ∧ t.tk.periodNs = s.tk.periodNs ∧ t.tk.locked = decide (8 ≤ run.length) ∧
      (8 ≤ run.length → t.tk.flywheel = false ∧ t.tk.lastLocked = some p ∧ t.tk.target = some p)) ∧
  (∀ s : State, live s = true → s.tk.ftick = true → s.tk.locked = true →
    ∃ t, exec .ftickMissing s = .next t ∧ t.tk = { s.tk with
        run := [], locked := false, flywheel := true, slewing := false, target := none, phase := 0
        periodPend := some (s.tk.lastLocked.getD s.tk.periodNs) } ∧ t.sad = s.sad ∧ t.med = s.med ∧ t.cfg = s.cfg) ∧
  (∀ (p : Nat) (l : List Nat), consistent (p :: l) = true → fitRun p l = p :: l) ∧
  (∀ (p : Nat) (l : List Nat), consistent [p] = true ∧ (fitRun p l).head? = some p ∧ consistent (fitRun p l) = true)

/-- PORST_N asserted, or a supply below its limit (R26, R43, R65, R70, R404, R482): the whole state takes its reset values, whatever runs,
but for the flash die, the cartridge with its memory, the free-value counter and the commands that wait. In the flash die nothing runs any
more; of a power-fail record under way the entries programmed by then stay, and the event log's newest record may be left half programmed
when it was copied in this tick (both free values, log 8). While PORST_N is already asserted, a failing supply is only noted. -/
def Obligations.ResetsClearTheState : Prop :=
  let cut (s : State) (porst : Bool) (t : State) : Prop :=
    t = { State.reset with
      pending := s.pending
      clk := { porst := porst, uv := !porst, ptc := 0#64, session := 0#64, hb := false }
      fl := { s.fl with
        ring := t.fl.ring, ringBad := t.fl.ringBad, ringAt := none, pf1 := t.fl.pf1, pf2 := t.fl.pf2, pfPlan := [], pfErase := []
        suspended := false, eraseRan := none, readWaits := false, opRun := none, queueOpen := false, queue := [], todo := []
        erasing := none, erases := 0, fails := 0, reerase := 0, reerased := false }
      cart := { mem := s.cart.mem, present := s.cart.present, threaded := s.cart.threaded }
      free := s.free + 1 } ∧
    (s.pw.pf.recPend = false → t.fl.pf1 = s.fl.pf1 ∧ t.fl.pf2 = s.fl.pf2) ∧
    (s.pw.pf.recPend = true → ∃ k, k < 21 ∧
      (s.fl.pfSecond = false → t.fl.pf1 = s.fl.pfPlan.take k ∧ t.fl.pf2 = s.fl.pf2) ∧
      (s.fl.pfSecond = true → t.fl.pf2 = s.fl.pfPlan.take k ∧ t.fl.pf1 = s.fl.pf1)) ∧
    ((t.fl.ring = s.fl.ring ∧ t.fl.ringBad = s.fl.ringBad) ∨
      ∃ e, s.fl.ringAt = some s.clk.ptc ∧ s.fl.ring = t.fl.ring ++ [e] ∧ t.fl.ringBad = s.fl.ringBad ++ [e.seq])
  (∀ s : State, ∃ t, exec .porstAssert s = .next t ∧ cut s true t ∧ live t = false ∧ ∀ b, ballLevel t b = resetLevel b) ∧
  (∀ s : State, s.clk.porst = false → ∃ t, exec .supplyUndervoltage s = .next t ∧ cut s false t ∧ live t = false ∧
    ∀ b, ballLevel t b = resetLevel b) ∧
  (∀ s : State, s.clk.porst = true → exec .supplyUndervoltage s = .next { s with clk := { s.clk with uv := true } })

/-- The end of a power-on reset (R28, R58, R424, R482): the session ID is the word drawn from the entropy source, never 0, and PTC and
HB stay 0; when stage-1 fails its check the part stops. Held in reset by the other cause, the part only notes that this one has
ended; the word 0 is never taken (it leaves the part as it is, log 3). -/
def Obligations.StartsDrawASessionId : Prop :=
  (∀ (e : W64) (g : Bool) (o : BootObs) (s : State), s.clk.porst = true → s.clk.uv = false → e ≠ 0#64 →
    ∃ t, exec (.porstDeassert e false g o) s = .next t ∧ t.clk = { s.clk with porst := false, session := e } ∧
      (o.stage1Ok = false → t.pw.dead = true)) ∧
  (∀ (e : W64) (g : Bool) (o : BootObs) (s : State), s.clk.uv = true → s.clk.porst = false → e ≠ 0#64 →
    ∃ t, exec (.undervoltageRelease e false g o) s = .next t ∧ t.clk = { s.clk with uv := false, session := e } ∧
      (o.stage1Ok = false → t.pw.dead = true)) ∧
  (∀ (e : W64) (g : Bool) (o : BootObs) (s : State), s.clk.porst = true → s.clk.uv = true → e ≠ 0#64 →
    exec (.porstDeassert e false g o) s = .next { s with clk := { s.clk with porst := false } } ∧
    exec (.undervoltageRelease e false g o) s = .next { s with clk := { s.clk with uv := false } }) ∧
  (∀ (tm g : Bool) (o : BootObs) (s : State), exec (.porstDeassert 0#64 tm g o) s = .next s ∧
    exec (.undervoltageRelease 0#64 tm g o) s = .next s)

/-- Start-up ends in PARK with DEV_READY set (R32, R58). When HALT came in force meanwhile it ends in HALT with that cause, and so does
a restart by the watchdog, whose cause it then enters (R32, R40; log 125). -/
def Obligations.StartUpEndsInParkOrHalt : Prop :=
  ∀ s : State, live s = true → s.pw.recovery = false → s.pw.devReady = false →
    (s.pw.restartHalt = false →
      ∃ t, exec .startUpComplete s = .next t ∧ t.pw.devReady = true ∧ t.pw.mode = (if s.pw.mode = .halt then .halt else .park) ∧
        t.pw.target = t.pw.mode ∧ t.pw.cause = (if s.pw.mode = .halt then s.pw.cause else .none) ∧ t.pw.restartHalt = false ∧
        t.cfg = s.cfg ∧ t.tk = s.tk ∧ t.med = s.med ∧ t.keys = s.keys ∧ t.fl = s.fl ∧ t.cart = s.cart ∧ t.rd = s.rd ∧ t.adm = s.adm) ∧
    (s.pw.restartHalt = true → s.pw.mode = .halt →
      ∃ t, exec .startUpComplete s = .next t ∧ t.pw.devReady = true ∧ t.pw.mode = .halt ∧ t.pw.cause = s.pw.cause ∧
        t.pw.restartHalt = false ∧ t.cfg = s.cfg ∧ t.med = s.med ∧ t.keys = s.keys) ∧
    (∀ c, s.pw.restartHalt = true → s.pw.mode ≠ .halt → s.pw.haltPend = some c →
      ∃ t, exec .startUpComplete s = .next t ∧ t.pw.devReady = true ∧ t.pw.mode = .halt ∧ t.pw.cause = c ∧ t.pw.haltPend = none ∧
        t.pw.restartHalt = false ∧ t.srv.stopCmd = true ∧ t.cfg.committed = s.cfg.committed ∧ t.keys = s.keys)

/-- A core restart (R32, R43): after ACTIVATE has asked for it, and after the watchdog finds the control cluster silent, the part is
not ready until its start-up completes; a restart by the watchdog ends in HALT, one after ACTIVATE does not. -/
def Obligations.CoreRestartsRunStartUpAgain : Prop :=
  (∀ (o : BootObs) (s : State), live s = true → s.pw.restartPend = true →
    ∃ t, exec (.coreRestart o) s = .next t ∧ t.pw.devReady = false ∧ t.pw.restartPend = false ∧ t.pw.restartHalt = false ∧
      t.cfg.uncommitted = [] ∧ t.keys.slots = Vector.replicate 16 none) ∧
  (∀ (o : BootObs) (s : State), live s = true → ready s = true →
    ∃ t, exec (.watchdogExpiry o) s = .next t ∧ t.pw.devReady = false ∧ t.pw.restartPend = false ∧ t.pw.restartHalt = true ∧
      t.cfg.uncommitted = [] ∧ t.keys.slots = Vector.replicate 16 none)

/-- The HALT cause that a detected cause asks for: the first one of a tick stands (R40). 105 °C caps the clock at 900 MHz and 115 °C asks
for HALT (R56). A THERMAL cause clears once Tj is below 100 °C, and an XTAL cause when the crystal has returned (R42); at or above
100 °C the temperature alone is taken. -/
def Obligations.HaltCauses : Prop :=
  (∀ s : State, live s = true → exec .xtalLost s = .next (haltRequest { quiet s with pw := { s.pw with xtalHold := true } } .xtal)) ∧
  (∀ s : State, live s = true → exec .firmwareAssertion s = .next (haltRequest (quiet s) .firmware)) ∧
  (∀ s : State, live s = true → exec .descriptorParityError s = .next (haltRequest (quiet s) .dram)) ∧
  (∀ s : State, live s = true → 20 ≤ s.srv.outTicks →
    exec .tensionFault s = .next (haltRequest { quiet s with srv := { s.srv with stopCmd := true } } .motion)) ∧
  (∀ (tj : Int) (s : State), live s = true →
    ∃ t, exec (.thermWarn tj) s = .next t ∧ t.pw = { s.pw with
        tj := tj, thermCap := s.pw.thermCap || decide (105 ≤ tj), thermHold := s.pw.thermHold || decide (115 ≤ tj)
        haltPend := if 115 ≤ tj then some (s.pw.haltPend.getD .thermal) else s.pw.haltPend } ∧
      t.sad = s.sad ∧ t.med = s.med ∧ t.cfg = s.cfg) ∧
  (∀ (s : State) (c : Nat), s.pw.thermCap = true → clkCap s c ≤ 2) ∧
  (∀ (s : State) (c : HaltCause), haltRequest s c = { s with pw := { s.pw with haltPend := some (s.pw.haltPend.getD c) } }) ∧
  (∀ (tj : Int) (s : State), live s = true → tj < 100 →
    exec (.thermalCauseCleared tj) s = .next { quiet s with pw := { s.pw with tj := tj, thermHold := false, thermCap := false } }) ∧
  (∀ (tj : Int) (s : State), live s = true → 100 ≤ tj →
    exec (.thermalCauseCleared tj) s = .next { quiet s with pw := { s.pw with tj := tj } }) ∧
  (∀ s : State, live s = true → exec .crystalReturn s = .next { quiet s with pw := { s.pw with xtalHold := false } })

/-- Power failure (R62-R66, R406): recognition waits for the boundary, and while the effects of one before it last they go on; a complete
record sets PF_RECORD, latches PWR_FAIL's vector and is what the flash sector then holds; the end of a flush sets FLUSH_DONE, holds the
write gates low and leaves a new epoch for when the power has returned; the pin's return is remembered. -/
def Obligations.PowerFailSteps : Prop :=
  (∀ s : State, live s = true → exec .pwrFailRecognised s = .next { quiet s with
    pw := { s.pw with pf := { s.pw.pf with waiting := !s.pw.pf.recognised, returned := false } } }) ∧
  (∀ s : State, live s = true → s.pw.pf.recPend = true →
    ∃ t, exec .powerFailRecordDone s = .next t ∧ t.pw = { s.pw with pf := { s.pw.pf with recPend := false, pfRecord := true } } ∧
      t.fl = (if s.fl.pfSecond then { s.fl with pf2 := s.fl.pfPlan, pfPlan := [] } else { s.fl with pf1 := s.fl.pfPlan, pfPlan := [] }) ∧
      t.pcie = (latchPf s 4).pcie ∧ t.sad = s.sad ∧ t.med = s.med) ∧
  (∀ s : State, live s = true → s.pw.pf.recPend = false → exec .powerFailRecordDone s = .next (quiet s)) ∧
  (∀ s : State, live s = true → s.med.flush = true → 4 ≤ s.med.flushStep →
    ∃ t, exec .flushDone s = .next t ∧ t.pw = { s.pw with pf := { s.pw.pf with flushDone := true } } ∧ t.med.flush = false ∧
      t.med.lane = .idle ∧ (∀ g : GroupNo, t.med.gates[g] = false) ∧ t.med.append = s.med.append ∧
      (∃ p w l, t.med.next = (p, w) :: l ∧ p.epoch = s.med.plait.epoch + 1) ∧ t.pcie = (latchPf s 4).pcie ∧ t.sad = s.sad ∧ t.fl = s.fl) ∧
  (∀ s : State, live s = true → (s.med.flush = false ∨ s.med.flushStep < 4) → exec .flushDone s = .next (quiet s)) ∧
  (∀ s : State, live s = true → (s.pw.pf.recognised = true ∨ s.pw.pf.waiting = true) →
    exec .pwrFailReturn s = .next { quiet s with pw := { s.pw with pf := { s.pw.pf with returned := true } } }) ∧
  (∀ s : State, live s = true → s.pw.pf.recognised = false → s.pw.pf.waiting = false → exec .pwrFailReturn s = .next (quiet s))

/-- An update of the voltage loop (R44, R45, R47-R49): one runs when 16 ticks have passed since the one before it; a setpoint that it writes lies within the floor and the ceiling; the third update in
a row whose tries all fail freezes the loop at the last confirmed setpoint and sets AVS_OFF; a good readback confirms the setpoint; a
frozen loop writes no setpoint. -/
def Obligations.VoltageLoopUpdates : Prop :=
  (∀ (m : Int) (k mv : Nat) (s : State), live s = true → s.pw.avs.enabled = true → s.pw.avs.offBit = false →
    s.pw.avs.last.toNat + 16 ≤ now s → 0 ≤ pint s .avsFloor → pint s .avsFloor ≤ pint s .avsCeiling →
    ∃ t, exec (.avsUpdate m k mv) s = .next t ∧ t.pw.avs.last = s.clk.ptc ∧ t.pw.mode = s.pw.mode ∧ t.cfg = s.cfg ∧ t.sad = s.sad ∧
      (t.pw.avs.vset = s.pw.avs.vset ∨ t.pw.avs.vset = t.pw.avs.confirmed ∨
        (pint s .avsFloor ≤ t.pw.avs.vset ∧ t.pw.avs.vset ≤ pint s .avsCeiling)) ∧
      (4 ≤ k → t.pw.avs.failRun = s.pw.avs.failRun + 1) ∧
      (4 ≤ k → s.pw.avs.failRun = 2 → t.pw.avs.frozen = true ∧ t.pw.avs.offBit = true ∧ t.pw.avs.vset = s.pw.avs.confirmed) ∧
      (k < 4 → s.pw.avs.wrote = true → ((mv : Int) - s.pw.avs.vset).natAbs ≤ 15 → t.pw.avs.confirmed = s.pw.avs.vset)) ∧
  (∀ (m : Int) (k mv : Nat) (s : State), live s = true → s.pw.avs.frozen = true → s.pw.avs.last.toNat + 16 ≤ now s →
    ∃ t, exec (.avsUpdate m k mv) s = .next t ∧ t.pw.avs.last = s.clk.ptc ∧ t.pw.avs.frozen = true ∧ t.out.pmbus = none ∧
      (t.pw.avs.vset = s.pw.avs.vset ∨ t.pw.avs.vset = t.pw.avs.confirmed) ∧ t.cfg = s.cfg ∧ t.sad = s.sad) ∧
  (∀ (m : Int) (k mv : Nat) (s : State), live s = true → now s < s.pw.avs.last.toNat + 16 →
    exec (.avsUpdate m k mv) s = .next (quiet s))

/-! ### Lines, sessions and queues -/

/-- The console line (R104-R106, R135, R136): a printable byte joins a typed session's line and is echoed, one of a generated session
only joins it; CR ends the line, which then waits for intake; a BREAK clears the partly entered line; a restore sets 115,200 baud, typed
mode and seat ADMIN; a low of 2.0 s is logged and ignored until CON_RXD has been high for 100 ms. -/
def Obligations.ConsoleLineSteps : Prop :=
  (∀ (b : Byte) (s : State), live s = true → s.fil.conIgnore = false → s.fil.con.mode = .typed → 0x20 ≤ b.toNat → b.toNat ≤ 0x7E →
    s.fil.con.line.length < 200 →
    exec (.consoleRxByte b false) s = .next { s with
      fil := { s.fil with con := { s.fil.con with line := s.fil.con.line ++ [b], out := s.fil.con.out ++ [b], afterCr := false } }
      out := { con := [b] } }) ∧
  (∀ (b : Byte) (bad : Bool) (s : State), live s = true → s.fil.conIgnore = false → s.fil.con.mode = .generated → b ≠ 0x0D → b ≠ 0x0A →
    s.fil.con.line.length < 200 →
    exec (.consoleRxByte b bad) s = .next { quiet s with
      fil := { s.fil with
        con := { s.fil.con with line := s.fil.con.line ++ [b], badChar := s.fil.con.badChar || bad, afterCr := false } } }) ∧
  (∀ s : State, live s = true → s.fil.conIgnore = false →
    ∃ t, exec (.consoleRxByte 0x0D false) s = .next t ∧ t.fil.con.line = [] ∧ t.fil.con.afterCr = true ∧
      look .console t.fil.waiting = some (((look .console s.fil.waiting).getD []) ++
        [{ bytes := s.fil.con.line, long := s.fil.con.long, badChar := s.fil.con.badChar, gen := s.fil.con.mode == .generated }]) ∧
      t.sad = s.sad ∧ t.adm = s.adm) ∧
  (∀ (k : Nat) (s : State), live s = true → s.fil.conIgnore = false → 20 ≤ k → 2 * k < s.fil.baud →
    ∃ t, exec (.consoleBreak k) s = .next t ∧ t.fil.con.line = [] ∧ t.fil.conBreak = true ∧ t.fil.waiting = s.fil.waiting ∧
      t.fil.con.mode = s.fil.con.mode ∧ t.sad = s.sad ∧ t.adm = s.adm) ∧
  (∀ s : State, live s = true → ∃ t, exec .consoleRestore s = .next t ∧ t.fil.baud = 115200 ∧ t.fil.con.mode = .typed ∧
    t.fil.con.line = [] ∧ look { id := .consoleSeat } t.cfg.session = some (.n 0) ∧ t.fil.conRestored = true ∧
    t.fil.waiting = s.fil.waiting ∧ t.sad = s.sad ∧ t.adm = s.adm) ∧
  (∀ s : State, live s = true → s.fil.conFault = false →
    exec .lineFault s = .next (logE { quiet s with fil := { s.fil with conFault := true, conIgnore := true } } .warn srcChip 0x0902
      [("ticks", 4, 2000000000 / s.tk.periodNs)])) ∧
  (∀ (k : Nat) (s : State), live s = true → s.fil.conFault = true →
    exec (.lineFaultRecovery k) s = .next (reply { quiet s with fil := { s.fil with conFault := false, conIgnore := false } }
      { tr := .console, tag := .unsol, status := .fault, fields := [fld "why" "linefault", fnum "ticks" k] }))

/-- Intake (R74, R121): a line that the row brings waits behind its transport's other lines, but for one on the rings of a saddle that is
not bound to VF, which are never read; within the tick's budget, the intake takes one line from the first transport in turn that has one,
and the turn moves on; with no line, or the budget spent, nothing is taken. -/
def Obligations.LinesAreTakenInTurn : Prop :=
  (∀ (tr : Transport) (b : List Byte) (s : State), live s = true → isRead s tr = true →
    exec (.lineIntake tr (some b)) s = exec (.lineIntake tr none) (lineArrives s tr b) ∧
    ∃ r, look tr (lineArrives s tr b).fil.waiting = some (((look tr s.fil.waiting).getD []) ++ [r]) ∧ r.bytes = b ∧ r.rej = none) ∧
  (∀ (n : SadNo) (b : List Byte) (s : State), live s = true → bindOf s n ≠ .vf →
    exec (.lineIntake (.vf n) (some b)) s = exec (.lineIntake (.vf n) none) s) ∧
  (∀ (tr tr' : Transport) (anew : Bool) (r : RawLine) (l : List RawLine) (s : State), live s = true → s.fil.taken < budget s 32 →
    nextTransport s = some (tr, anew) → look tr s.fil.waiting = some (r :: l) →
    ∃ t, exec (.lineIntake tr' none) s = .next t ∧ t.fil.taken = s.fil.taken + 1 ∧ t.fil.rr = Transport.index tr ∧
      t.fil.round = (if anew then [] else s.fil.round) ++ [Transport.index tr] ∧
      look tr t.fil.waiting = some l ∧ t.med = s.med ∧ t.cart = s.cart ∧ t.pool = s.pool) ∧
  (∀ (tr : Transport) (s : State), live s = true → (budget s 32 ≤ s.fil.taken ∨ nextTransport s = none) →
    exec (.lineIntake tr none) s = .next (quiet s))

/-- Queue admission (R139-R141): a command of a free tag joins the end of the admin channel's queue; a full queue answers BUSY.QUEUE and
is not changed; a tag in use is BADLINE with `why=tag` and the tag. -/
def Obligations.QueueAdmission : Prop :=
  (∀ (s : State) (t : Nat) (v : Verb) (tr : Transport), s.adm.entries.length < 8 → (∀ e ∈ s.adm.entries, e.tag ≠ t) →
    admitLine s .adm t v tr =
      ({ s with adm := { entries := s.adm.entries ++ [{ tag := t, verb := v, tr := tr, seq := s.fil.seq }] } }, none)) ∧
  (∀ (s : State) (ch : Chan) (t : Nat) (v : Verb) (tr : Transport), tagCount ch ≤ (queueOf s ch).entries.length →
    (admitLine s ch t v tr).2 = some (.busyQueue, []) ∧ queueOf (admitLine s ch t v tr).1 ch = queueOf s ch ∧
    ∀ n, ch = .sad n → (admitLine s ch t v tr).1.sad[n].cnt.refQ = sat 16 (s.sad[n].cnt.refQ + 1)) ∧
  (∀ (s : State) (ch : Chan) (t : Nat) (v : Verb) (tr : Transport) (e : Entry), (queueOf s ch).entries.length < tagCount ch →
    e ∈ (queueOf s ch).entries → e.tag = t →
    admitLine s ch t v tr = (s, some (.badline, [fld "why" "tag", fld "inuse" (hexStr 2 t)])))

/-- The start of a command (R39, R41, R143, R152, R159): the channel's next command, when its mode permits it and nothing refuses it,
executes from this tick on; one that is refused ends without effect; in HALT, one that HALT does not permit waits. A WRITE with its words or
its scatter list on the line, and a MARK, take their entry of the range lock when a monitor follows their saddle, and wait while 64 are
held. -/
def Obligations.CommandStarts : Prop :=
  ∀ (ch : Chan) (table : Option (List (Nat × Nat))) (s : State) (e : Entry), live s = true →
    nextStart (queueOf s ch).entries = some e → (∀ n, ch = .sad n → s.sad[n].reset = none) → s.pw.trans = none →
    (s.pw.mode = .halt → modePermits .halt ch e.verb = false → exec (.commandStart ch table) s = .next (setWhy (quiet s) ch e.tag .halt)) ∧
    (s.pw.mode ≠ .halt → ∀ o, turnRefusal s ch e.verb = some o →
      exec (.commandStart ch table) s = .next (endWithout (quiet s) ch e.tag o)) ∧
    (s.pw.mode ≠ .halt → turnRefusal s ch e.verb = none → runKind e.verb = 0 →
      exec (.commandStart ch table) s = .next (modEntry (quiet s) ch e.tag fun e =>
        { e with phase := .executing, startPtc := s.clk.ptc, why := .none, segs := [] })) ∧
    (s.pw.mode ≠ .halt → turnRefusal s ch e.verb = none → ∀ a, e.verb = .read a → (∀ x y, a.dst ≠ .sgt x y) →
      exec (.commandStart ch table) s = .next (modEntry (quiet s) ch e.tag fun e => { e with
        phase := .executing, startPtc := s.clk.ptc, why := .none, segs := (match a.dst with | .sg l => l | _ => []) })) ∧
    (s.pw.mode ≠ .halt → turnRefusal s ch e.verb = none → ∀ n, ch = .sad n →
      ∀ l, ((∃ note, e.verb = .mark note ∧ l = []) ∨ (∃ a w, e.verb = .write a ∧ a.src = .words w ∧ l = []) ∨
          (∃ a, e.verb = .write a ∧ a.src = .sg l)) →
      (followed s n = false → exec (.commandStart ch table) s = .next (modEntry (quiet s) ch e.tag fun e =>
        { e with phase := .executing, startPtc := s.clk.ptc, why := .none, segs := l })) ∧
      (followed s n = true → s.med.locks.length < 64 → ∃ a b, lockSpan s n e = (a, b) ∧
        exec (.commandStart ch table) s = .next (modEntry { quiet s with med := { s.med with locks := s.med.locks ++ [(n, e.tag, a, b)] } }
          ch e.tag fun e => { e with phase := .executing, startPtc := s.clk.ptc, why := .none, segs := l })) ∧
      (followed s n = true → 64 ≤ s.med.locks.length → exec (.commandStart ch table) s = .next (setWhy (quiet s) ch e.tag .lock)))

/-- R122, R124: an untagged ABORT, QRESET, HELLO, STATUS, GET or SET is taken in and waits for the boundary, where it executes; the step
changes nothing else. -/
def Obligations.ImmediateLinesWaitForBoundary : Prop :=
  ∀ (ch : Chan) (s : State), live s = true → ready s = true →
    let waits (v : Verb) : Host.Outcome State Fault Refusal := .next { quiet s with fil := { s.fil with
      seq := s.fil.seq + 1, imm := s.fil.imm ++ [{ ch := ch, tr := homeOf s ch, verb := v, seq := s.fil.seq + 1 }] } }
    (∀ k sad, exec (.abort ch k sad) s = waits (.abort k sad)) ∧ (∀ sad, exec (.qreset ch sad) s = waits (.qreset sad)) ∧
    (∀ m, exec (.hello ch none m) s = waits (.hello m)) ∧ (∀ sad, exec (.status ch none sad) s = waits (.status sad)) ∧
    (∀ l, exec (.get ch none l) s = waits (.get l)) ∧ (∀ l, exec (.set ch none l) s = waits (.set l))

/-- ABORT at its boundary (R161, R164): a queued command of the channel is caught, ends without effect and never executes; a command
that has its outcome and has not committed is caught too; of a tag that holds nothing the answer is UNKNOWN; of one that has committed, LATE
with `moved=`, and that outcome stands; from the saddle of a sample port ABORT is denied. -/
def Obligations.AbortAtBoundary : Prop :=
  ∀ (s : State) (tr : Transport) (ch : Chan) (k : Nat), (∀ n, ch = .sad n → s.sad[n].reset = none) →
    (∀ n p, ch = .sad n → bindOf s n = .sp p →
      doAbort s tr ch k none = reply s { tr := tr, ch := ch, tag := .imm, status := .denied, fields := [fld "why" "transport"] }) ∧
    ((∀ n p, ch = .sad n → bindOf s n ≠ .sp p) →
      (entryOf s ch k = none → doAbort s tr ch k none = reply s { tr := tr, ch := ch, tag := .imm, status := .unknown, fields := [fld "tag" (hexStr 2 k)] }) ∧
      (∀ e, entryOf s ch k = some e → (e.phase = .committed ∨ e.posted = true) →
        doAbort s tr ch k none = reply s { tr := tr, ch := ch, tag := .imm, status := .late, fields := [fld "tag" (hexStr 2 k), fnum "moved" (movedBytes e)] }) ∧
      (∀ e, entryOf s ch k = some e → e.phase = .queued → e.posted = false → e.verb = .configs →
        (∀ r, s.pw.trans = some r → ¬ (r.ch = ch ∧ r.tag = some e.tag)) →
        ∃ t, doAbort s tr ch k none = t ∧ EndedWith t ch k { status := .caught } ∧ OthersKept s t ch k ∧ t.med = s.med ∧ t.cfg = s.cfg ∧
          t.fil.outq = s.fil.outq ++ [{ tr := tr, ch := ch, tag := .imm, status := .caught, fields := [fld "tag" (hexStr 2 k)] }]) ∧
      (∀ e o, entryOf s ch k = some e → e.phase ≠ .committed → e.posted = false → e.ended = some o → (∀ n, e.verb ≠ .sreset n) →
        ∃ t, doAbort s tr ch k none = t ∧ EndedWith t ch k { status := .caught, fields := caughtFields e } ∧ OthersKept s t ch k ∧
          t.med = s.med ∧ t.cfg = s.cfg ∧ t.cart = s.cart))

/-! ### Verbs that report -/

/-- INFO (R181), STATUS (R201), GET (R132), KEY LIST (R185), CHAN LIST (R178), EVENTS (R183), CONFIGS, PLAIT SHOW and HELLO without
`session=` complete in the step with OK (GET as its names allow), and change nothing but their
own entry and the step's outputs. -/
def Obligations.ReportsChangeNothing : Prop :=
  ∀ (s : State) (ch : Chan) (t : Nat),
    (Runs s ch t .infoDev → EndsOnly (.infoDev ch (some t)) s ch t { status := .ok, fields :=
      [fld "code" "TF64-BG4040", fld "rev" "B1", fld "serial" (hexStr 12 (Config.deviceSerial % 2 ^ 48))] }) ∧
    (Runs s ch t .infoFw → EndsOnly (.infoFw ch (some t)) s ch t { status := .ok, fields :=
      [fld "run" (if s.fw.run = 0 then "A" else if s.fw.run = 1 then "B" else "ROM"), fnum "trial" (if s.fw.trial then 1 else 0),
       fld "fwa" (fwStr (fwVer s .a)), fld "fwb" (fwStr (fwVer s .b)), fld "stage1" (fwStr (imgVersion s.fl.stage1 2))] }) ∧
    (Runs s ch t .infoLink → EndsOnly (.infoLink ch (some t)) s ch t { status := .ok, fields :=
      if s.pcie.up then [fld "gts" (["2.5", "5", "8", "16"].getD (s.pcie.speed - 1) "2.5"), fnum "width" s.pcie.width, fld "vfs" "8"]
      else [fld "link" "down"] }) ∧
    (Runs s ch t .infoDram → EndsOnly (.infoDram ch (some t)) s ch t { status := .ok, fields :=
      [fnum "gib" (if s.pw.gib16 then 16 else 8), fnum "caddies" s.pool.total, fnum "shared" (sharedFree s).toNat] }) ∧
    (Runs s ch t .infoPorts → EndsOnly (.infoPorts ch (some t)) s ch t { status := .ok, fields :=
      [fld "sp0" (sadName (sadOfPort s 0)), fld "sp1" (sadName (sadOfPort s 1)), fld "sp2" (sadName (sadOfPort s 2)),
       fld "sp3" (sadName (sadOfPort s 3)), fld "con" (sadName (sadOfConsole s))] }) ∧
    (∀ sad, Runs s ch t (.status sad) → EndsOnly (.status ch (some t) sad) s ch t (doStatus s ch sad)) ∧
    (∀ l, Runs s ch t (.get l) → ∃ o, EndsOnly (.get ch (some t) l) s ch t o ∧ (ch = .adm → o = doGet s .adm l paramTold) ∧
      (getScope ch l = .ok () → o.status = .ok)) ∧
    (ch = .adm → Runs s ch t .keyList → EndsOnly (.keyList (some t)) s ch t { status := .ok, fields :=
      [fld "loaded" (natsStr (loadedSlots s)), fnum "kek" (if s.keys.kek.isSome then 1 else 0)] }) ∧
    (ch = .adm → Runs s ch t .chanList → EndsOnly (.chanList (some t)) s ch t { status := .ok, fields :=
      [fld "out" (natsStr (mapOut s)), fld "failed" (natsStr s.med.failed)] }) ∧
    (∀ a n l, Runs s ch t (.events a n l) → EndsOnly (.events ch (some t) a n l) s ch t
      { status := .ok, fields := (eventsReply s ch a n l).1, more := (eventsReply s ch a n l).2 }) ∧
    (Runs s ch t .configs → ∃ o, o.status = .ok ∧ EndsOnly (.configs ch (some t)) s ch t o) ∧
    (∀ a n, Runs s ch t (.plaitShow a n) → ∃ o, o.status = .ok ∧ EndsOnly (.plaitShow ch (some t) a n) s ch t o) ∧
    (Runs s ch t (.hello none) → ∃ o, o.status = .ok ∧ EndsOnly (.hello ch (some t) none) s ch t o)

/-! ### Saddles -/

/-- CLEAR (R154) and DISCARD (R182). CLEAR of a saddle that is not in HOLD drops nothing; in HOLD it ends HOLD, discards the girths from
the deferred girth on, and the next girth takes its number. DISCARD drops the girths from `from=` on that no tape row holds; a `from=`
below the first that can be dropped is out of range and changes nothing; while a WRITE or MARK executes, DISCARD is BUSY. -/
def Obligations.ClearAndDiscard : Prop :=
  ∀ (s : State) (ch : Chan) (t : Nat) (sad : Option SadNo) (n : SadNo), targetOf ch sad = some n →
    (Runs s ch t (.clear sad) → s.sad[n].st ≠ .hold →
      EndsAs (.clear ch (some t) sad) s ch t { status := .ok, fields := [fnum "dropped" 0, fnum "girth" s.sad[n].next] }
        (modSad (quiet s) n fun x => { x with dropped := none })) ∧
    (Runs s ch t (.clear sad) → s.sad[n].st = .hold → ∃ s', exec (.clear ch (some t) sad) s = .next s' ∧
      EndedWith s' ch t { status := .ok, fields :=
        [fnum "dropped" (s.sad[n].unsync.filter fun u => s.sad[n].g ≤ u.1).length, fnum "girth" s.sad[n].g] } ∧
      s'.sad[n].st = .opened ∧ s'.sad[n].next = s.sad[n].g ∧ s'.sad[n].owesDeferred = false ∧
      s'.sad[n].unsync = (s.sad[n].unsync.filter fun u => u.1 < s.sad[n].g) ∧ s'.cfg = s.cfg ∧ s'.evt = s.evt) ∧
    (∀ fromG, Runs s ch t (.discard sad fromG) →
      (s.sad[n].q.entries.any fun e => e.phase == .executing && e.ended.isNone && runKind e.verb = 1) = true →
      EndsOnly (.discard ch (some t) sad fromG) s ch t { status := .busyMode, fields := [fld "held" (heldStr [n])] }) ∧
    (∀ fromG, Runs s ch t (.discard sad fromG) →
      (s.sad[n].q.entries.any fun e => e.phase == .executing && e.ended.isNone && runKind e.verb = 1) = false →
      let g := fromG.getD (firstDroppable s n)
      (firstDroppable s n ≤ g → ∃ s', exec (.discard ch (some t) sad fromG) s = .next s' ∧
        EndedWith s' ch t { status := .ok, fields := [fnum "dropped" (s.sad[n].unsync.filter fun u => g ≤ u.1).length, fnum "girth" g] } ∧
        s'.sad[n].next = g ∧ s'.sad[n].unsync = (s.sad[n].unsync.filter fun u => u.1 < g) ∧ s'.sad[n].st = s.sad[n].st ∧
        s'.med.written = s.med.written ∧ s'.cfg = s.cfg ∧ s'.evt = s.evt) ∧
      (g < firstDroppable s n → EndsOnly (.discard ch (some t) sad fromG) s ch t
        (failWhy .badarg "range" [fld "key" "from", fnum "first" (firstDroppable s n)])))

/-- A saddle reset (R95-R97, R99, R81, R200). SRESET asks for it and goes on; applied at the boundary it masks the saddle's causes, clears
them and starts; a reset that runs absorbs one asked for; a masked cause other than RESET_DONE that latches is discarded. When its steps have run the causes are unmasked, RESET_DONE latches for the
saddle and for the admin channel and is logged with its ticks. -/
def Obligations.SaddleResets : Prop :=
  (∀ (s : State) (ch : Chan) (t : Nat) (sad : Option SadNo) (n : SadNo), targetOf ch sad = some n → Runs s ch t (.sreset sad) →
    GoesOn (.sreset ch (some t) sad) s ch t (modSad (quiet s) n fun x => { x with resetReq := true })) ∧
  (∀ (s : State) (n : SadNo), live s = true → s.sad[n].resetReq = true → s.sad[n].reset = none →
    exec (.saddleReset n) s = .next (modSad (quiet s) n fun x => { x with
      resetReq := false, reset := some { start := s.clk.ptc }, dropped := none
      irq := { x.irq with masked := true, cause := [], cnt := [], due := [] } })) ∧
  (∀ (s : State) (n : SadNo), live s = true → s.sad[n].resetReq = true → s.sad[n].reset.isSome = true →
    exec (.saddleReset n) s = .next (modSad (quiet s) n fun x => { x with resetReq := false })) ∧
  (∀ (s : State) (n : SadNo) (r : ResetRun), live s = true → s.sad[n].reset = some r → 16 ≤ r.ticks - r.overruns →
    ∃ s', exec (.saddleResetDone n) s = .next s' ∧ s'.sad[n].reset = none ∧ s'.sad[n].irq.masked = false ∧
      s'.sad[n].irq.cause.contains 3 = true ∧ s'.pcie.irq.cause.contains 3 = true ∧ s'.pcie.flr = s.pcie.flr.filter (· ≠ n.val) ∧
      s'.sad[n].st = s.sad[n].st ∧ s'.sad[n].unsync = s.sad[n].unsync ∧ s'.med = s.med ∧ s'.cfg = s.cfg) ∧
  (∀ (s : State) (n : SadNo) (r : ResetRun), live s = true → s.sad[n].reset = some r → r.ticks - r.overruns < 16 →
    exec (.saddleResetDone n) s = .next (quiet s)) ∧
  (∀ (s : State) (n : SadNo) (k : Nat), s.sad[n].irq.masked = true → k ≠ 3 → latch s n k = s)

/-- SADDLE OPEN and CLOSE (R197, R83, R91) and SEAL (R188, R198): with the rates admitted the saddle opens, with every credit at 0, or
closes; what admission refuses counts and leaves the saddle as it was; one already open answers OK; one unbound, or with work left, does
not change; SEAL sets its switch and its key slot. -/
def Obligations.SaddleVerbs : Prop :=
  ∀ (s : State) (t : Nat) (n : SadNo),
    (∀ p, Runs s .adm t (.saddleOpen n) → bindOf s n ≠ .none → s.sad[n].st = .closed →
      admitPlait (modSad (quiet s) n fun x => { x with st := .opened, credits := Vector.replicate 8 0, freeCredit := 0 }) = some p →
      ∃ o u, o.status = .ok ∧ EndsAs (.saddleOpen (some t) n) s .adm t o u ∧ u.sad[n].st = .opened ∧
        u.sad[n].credits = Vector.replicate 8 0 ∧ u.sad[n].freeCredit = 0 ∧ u.cfg = s.cfg ∧ u.evt = s.evt ∧
        u.med.plait = s.med.plait) ∧
    (Runs s .adm t (.saddleOpen n) → bindOf s n ≠ .none → s.sad[n].st = .closed →
      admitPlait (modSad (quiet s) n fun x => { x with st := .opened, credits := Vector.replicate 8 0, freeCredit := 0 }) = none →
      EndsAs (.saddleOpen (some t) n) s .adm t { status := .deniedQos }
        (modSad (quiet s) n fun x => { x with cnt := { x.cnt with deny := inc x.cnt.deny } })) ∧
    (Runs s .adm t (.saddleOpen n) → bindOf s n = .none →
      EndsOnly (.saddleOpen (some t) n) s .adm t (failWhy .denied "unbound")) ∧
    (Runs s .adm t (.saddleOpen n) → bindOf s n ≠ .none → s.sad[n].st ≠ .closed →
      EndsOnly (.saddleOpen (some t) n) s .adm t { status := .ok, fields := saddleFields s n none }) ∧
    (∀ p, Runs s .adm t (.saddleClose n) → sadIdle s n none = true →
      admitPlait (modSad (quiet s) n fun x => { x with st := .closed }) = some p →
      ∃ o u, o.status = .ok ∧ EndsAs (.saddleClose (some t) n) s .adm t o u ∧ u.sad[n].st = .closed ∧ u.cfg = s.cfg ∧ u.evt = s.evt ∧
        u.med.plait = s.med.plait) ∧
    (Runs s .adm t (.saddleClose n) → sadIdle s n none = false →
      EndsOnly (.saddleClose (some t) n) s .adm t { status := .busyMode, fields := [fld "held" (heldStr [n])] }) ∧
    (∀ k, Runs s .adm t (.seal n true (some k)) → sadIdle s n none = true → s.keys.slots[k].isSome = true →
      ∃ o u, o.status = .ok ∧ EndsAs (.seal (some t) n true (some k)) s .adm t o u ∧
        cfgVal u { id := .sealOn, i := n.val } = .n 1 ∧ cfgVal u { id := .sealSlot, i := n.val } = .n k.val ∧
        u = { quiet s with cfg := u.cfg }) ∧
    (Runs s .adm t (.seal n false none) → sadIdle s n none = true →
      ∃ o u, o.status = .ok ∧ EndsAs (.seal (some t) n false none) s .adm t o u ∧
        cfgVal u { id := .sealOn, i := n.val } = .n 0 ∧ u = { quiet s with cfg := u.cfg }) ∧
    (∀ k, Runs s .adm t (.seal n true (some k)) → sadIdle s n none = true → s.keys.slots[k] = none →
      EndsOnly (.seal (some t) n true (some k)) s .adm t (failWhy .badarg "range" [fld "key" "slot"]))

/-! ### Parameters, the plait and configuration versions -/

/-- A parameter that State stores reads back as it was stored, and every other parameter reads as before (R134). -/
def Obligations.ParameterReadAfterWrite : Prop :=
  ∀ (s : State) (p q : Param) (v : PVal), cfgVal (cfgPut s p v) q = if q = p then v else cfgVal s q

/-- R125, R16: a tagged SET or SADDLE SET goes on and waits for the boundary, in intake order with the untagged ones; applied there, a
SET outside its mode's columns changes nothing, and is DENIED, or BUSY.MODE for a binding (R72, R133). -/
def Obligations.SettingsWaitForBoundary : Prop :=
  (∀ (s : State) (ch : Chan) (t : Nat) (l : List (Param × PVal)) (e : Entry), Runs s ch t (.set l) → entryOf s ch t = some e →
    GoesOn (.set ch (some t) l) s ch t { quiet s with fil := { s.fil with
      imm := s.fil.imm ++ [{ ch := ch, tr := e.tr, verb := .set l, seq := e.seq, tag := some t }] } }) ∧
  (∀ (s : State) (ch : Chan) (t : Nat) (n : SadNo) (a : SadSetArgs) (e : Entry), Runs s ch t (.saddleSet n a) → entryOf s ch t = some e →
    GoesOn (.saddleSet ch (some t) n a) s ch t { quiet s with fil := { s.fil with
      imm := s.fil.imm ++ [{ ch := ch, tr := e.tr, verb := .saddleSet n a, seq := e.seq, tag := some t }] } }) ∧
  (∀ (s : State) (ch : Chan) (own : Option Nat) (p : Param) (v : PVal), setScope ch own.isNone [(p, v)] = .ok () →
    changeable s.pw.mode (pspec p.id).modes = false →
    doSet s ch own [(p, v)] = (s, if p.id = .sadBind
      then { status := .busyMode, fields := [fld "held" (heldStr [sadNo p.i]), fld "key" (paramName p)] }
      else failWhy .denied "mode" [fld "key" (paramName p), fld "mode" (Mode.name s.pw.mode)]))

/-- PLAIT PUT, APPLY and AUTO (R83-R87, R191, R192): PUT stages its slots, leaves the slots at other positions, and puts nothing in force;
a list past position 255 is out of range. APPLY of a staged list that is complete and admitted, and AUTO, store the mode, drop what was
staged, give each saddle its admitted rate, and take up a plait that differs from the last one as the next epoch, whose number they answer;
the plait in force stays until that epoch starts. What admission refuses changes nothing. -/
def Obligations.PlaitVerbs : Prop :=
  ∀ (s : State) (t : Nat),
    let taken (manual : Bool) (p : Plait) (ep : Nat) (u : State) : Prop :=
      u = { quiet s with cfg := u.cfg, sad := u.sad, med := { s.med with staged := [], next := u.med.next } } ∧
      cfgVal u { id := .plaitMode } = .n (if manual then 1 else 0) ∧ (∀ q, q ≠ { id := .plaitMode } → cfgVal u q = cfgVal s q) ∧
      (∀ n : SadNo, u.sad[n] = { s.sad[n] with admitted := askedRate s n }) ∧
      (((lastPlait s).slots = p.slots ∧ (lastPlait s).manual = p.manual ∧ (lastPlait s).vIdx = p.vIdx) →
        u.med.next = s.med.next ∧ ep = (lastPlait s).epoch) ∧
      (¬ ((lastPlait s).slots = p.slots ∧ (lastPlait s).manual = p.manual ∧ (lastPlait s).vIdx = p.vIdx) →
        u.med.next = s.med.next ++ [({ p with epoch := s.med.plait.epoch + 1 }, s.clk.ptc)] ∧ ep = s.med.plait.epoch + 1)
    (∀ pos els, Runs s .adm t (.plaitPut pos els) → pos + els.length ≤ 256 →
      ∃ l, EndsAs (.plaitPut (some t) pos els) s .adm t { status := .ok, fields := [fnum "staged" l.length] }
          { quiet s with med := { s.med with staged := l } } ∧
        (∀ i el, els[i]? = some el → look (pos + i) l = some el) ∧
        ∀ j, (j < pos ∨ pos + els.length ≤ j) → look j l = look j s.med.staged) ∧
    (∀ pos els, Runs s .adm t (.plaitPut pos els) → 256 < pos + els.length →
      EndsOnly (.plaitPut (some t) pos els) s .adm t (failWhy .badarg "range" [fld "key" "list"])) ∧
    (∀ l p, Runs s .adm t .plaitApply → stagedList s = some l → manualPlait s l = some p →
      ∃ ep u, EndsAs (.plaitApply (some t)) s .adm t { status := .ok, fields := [fnum "epoch" ep, fnum "length" p.slots.length] } u ∧
        taken true p ep u) ∧
    (Runs s .adm t .plaitApply → stagedList s = none →
      EndsOnly (.plaitApply (some t)) s .adm t (failWhy .badarg "missing" [fld "key" "list"])) ∧
    (∀ l, Runs s .adm t .plaitApply → stagedList s = some l → manualPlait s l = none →
      EndsOnly (.plaitApply (some t)) s .adm t { status := .deniedQos }) ∧
    (∀ p, Runs s .adm t .plaitAuto → autoPlait s = some p →
      ∃ ep u, EndsAs (.plaitAuto (some t)) s .adm t
          { status := .ok, fields := [fnum "epoch" ep, fld "v_plan" (fixedStr 2 (vPlan p))] } u ∧ taken false p ep u) ∧
    (Runs s .adm t .plaitAuto → autoPlait s = none → EndsOnly (.plaitAuto (some t)) s .adm t { status := .deniedQos })

/-- COMMIT and ROLLBACK (R6, R408, R411): COMMIT begins to program when no flash work runs, and waits while some does; programmed, the
next version is kept and in force, its values committed. ROLLBACK to a kept version waits for the boundary, in order with the SETs; applied
there, one whose values and rates stand puts the version in force and appends its CFGSEL entry; an unknown version is out of range. -/
def Obligations.ConfigurationVersions : Prop :=
  ∀ (s : State) (t : Nat),
    (∀ note, Runs s .adm t (.commit note) → flashBusy s = false →
      GoesOn (.commit (some t) note) s .adm t { quiet s with fl := { s.fl with opRun := some .program } }) ∧
    (∀ note, Runs s .adm t (.commit note) → flashBusy s = true → GoesOn (.commit (some t) note) s .adm t (quiet s)) ∧
    (∀ e note addr, live s = true → s.fl.opRun = some .program → flashCommand s = some e → e.verb = .commit note → entryOf s .adm e.tag = some e →
      ∃ s', exec (.flashOpComplete .program true addr) s = .next s' ∧
        EndedWith s' .adm e.tag { status := .ok, fields := [fnum "cfg" (topVersion s + 1), fnum "parent" s.cfg.version] } ∧
        s'.cfg = { s.cfg with committed := commitBody s, uncommitted := [], version := topVersion s + 1, parent := s.cfg.version } ∧
        (∃ c ∈ s'.fl.cfgs, c.version = topVersion s + 1 ∧ c.parent = s.cfg.version ∧ c.body = commitBody s ∧ c.note = note) ∧
        s'.med = s.med ∧ s'.keys = s.keys) ∧
    (∀ target c e, Runs s .adm t (.rollback target) → rollbackRec s (target.getD s.cfg.parent) = some c → entryOf s .adm t = some e →
      GoesOn (.rollback (some t) target) s .adm t { quiet s with fil := { s.fil with
        imm := s.fil.imm ++ [{ ch := .adm, tr := e.tr, verb := .rollback target, seq := e.seq, tag := some t }] } }) ∧
    (∀ target c pl, rollbackRec s (target.getD s.cfg.parent) = some c →
      (((recordPairs c).filter fun (p, _) => cfgVal s p != cfgVal (withRecord s c) p).findSome? fun (p, _) =>
        valueBad s (withRecord s c) none p) = none →
      admitPlait (withRecord s c) = some pl →
      (doRollback s target).2 = { status := .ok, fields := [fnum "cfg" (target.getD s.cfg.parent)] } ∧
        let s' := (doRollback s target).1
        s'.cfg = { s.cfg with committed := c.body, uncommitted := [], version := c.version, parent := c.parent } ∧
        s'.fl.select.entries.getLast? = some { type := 0x20, arg := 1, value := target.getD s.cfg.parent } ∧
        s'.fl.cfgs = s.fl.cfgs ∧ s'.med.plait = s.med.plait ∧ s'.keys = s.keys) ∧
    (∀ target, Runs s .adm t (.rollback target) → (∀ c ∈ s.fl.cfgs, c.version ≠ target.getD s.cfg.parent) →
      EndsOnly (.rollback (some t) target) s .adm t (failWhy .badarg "range" [fld "key" "to"]))

/-! ### Windows, updates and keys -/

/-- ACTIVATE, ARM and CONFIRM (R175, R176, R180, R181, R417): a slot that passes its checks is selected in the boot record and a restart is
asked for; one that fails changes nothing and is named with `hdr=`; ARM opens a window with a code of the entropy source; CONFIRM from the
console with that code, in time, enables the action, and any CONFIRM from the console ends the ARM; what has lapsed is gone. -/
def Obligations.ConfirmationWindows : Prop :=
  ∀ (s : State) (t : Nat),
    (∀ x ok, Runs s .adm t (.activate x) → slotFails s x ok = none → flashBusy s = false →
      let v := imgVersion (imageOf s x) (slotNo x)
      let u := appendLog (quiet s) .boot { type := 0x10, arg := slotNo x + (if slotConfirmed s x then 0 else 2), value := v }
      EndsAs (.activate (some t) x ok) s .adm t { status := .ok, fields := [fld "slot" (slotName x), fld "fw" (fwStr v)] }
        { u with pw := { s.pw with restartPend := true } }) ∧
    (∀ x ok h, Runs s .adm t (.activate x) → slotFails s x ok = some h →
      EndsOnly (.activate (some t) x ok) s .adm t (failWhy .badarg "form" [fld "key" "image", fld "hdr" h])) ∧
    (∀ a, Runs s .adm t (.arm a) →
      let code := (drawCode s).1
      EndsAs (.arm (some t) a) s .adm t
        { status := .ok, fields := [fld "action" (ArmAction.name a), fld "code" code, fnum "ticks" (pnat s .armTicks)] }
        { quiet s with
          svc := { s.svc with arm := some (a, code, s.clk.ptc + BitVec.ofNat 64 (pnat s .armTicks)) }
          free := s.free + 6 }) ∧
    (∀ a code till e, Runs s .adm t (.confirm a code) → entryOf s .adm t = some e → e.tr = .console →
      s.svc.arm = some (a, code, till) → now s < till.toNat →
      EndsAs (.confirm (some t) a code) s .adm t
        { status := .ok, fields := [fld "action" (ArmAction.name a), fnum "ticks" (pnat s .armTicks)] }
        { quiet s with
          svc := { s.svc with arm := none, confirm := some (a, s.clk.ptc + BitVec.ofNat 64 (pnat s .armTicks)) } }) ∧
    (∀ a code e, Runs s .adm t (.confirm a code) → entryOf s .adm t = some e → e.tr = .console →
      (∀ b c till, s.svc.arm = some (b, c, till) → b ≠ a ∨ c ≠ code ∨ till.toNat ≤ now s) →
      EndsAs (.confirm (some t) a code) s .adm t (failWhy .denied "confirm") { quiet s with svc := { s.svc with arm := none } }) ∧
    (live s = true → exec .armExpiry s = .next { quiet s with svc := { s.svc with
      arm := s.svc.arm.filter (fun a => !decide (a.2.2.toNat ≤ now s))
      confirm := s.svc.confirm.filter fun c => !decide (c.2.toNat ≤ now s) } })

/-- UPDATE (R205-R209, R414, R415). BEGIN opens a session for a slot that is not in use, which is invalid and empty from then on; bytes at the
expected offset join the image and lie in the staging area, and the offset moves on; bytes at another offset change nothing; DMA is the
admin channel's on its own transport; END of a whole image that passes its checks makes the target valid with its version, and of one that is not whole fails; CANCEL ends
the session, and of a stage-1 update leaves a unit that no command can make boot (R209). -/
def Obligations.UpdateSession : Prop :=
  ∀ (s : State) (t : Nat),
    (∀ x len, Runs s .adm t (.updateBegin x len) → slotInUse s x = false → x ≠ .stage1 →
      ∃ u, GoesOn (.updateBegin (some t) x len) s .adm t u ∧ u.svc.upd = some { target := x, len := len } ∧ u.svc.updState = 1 ∧
        u.svc.nextOff = 0 ∧ targetValid u (targetNo x) = false ∧ u = { quiet s with svc := u.svc, fl := u.fl }) ∧
    (∀ len, Runs s .adm t (.updateBegin .stage1 len) → windowOpen s .stage1 = true →
      ∃ u, GoesOn (.updateBegin (some t) .stage1 len) s .adm t u ∧ u.svc.upd = some { target := .stage1, len := len } ∧
        u.svc.updState = 1 ∧ u.svc.nextOff = 0 ∧ u.svc.confirm = none ∧ targetValid u 2 = false ∧ u = { quiet s with svc := u.svc, fl := u.fl }) ∧
    (∀ len, Runs s .adm t (.updateBegin .stage1 len) → windowOpen s .stage1 = false →
      EndsOnly (.updateBegin (some t) .stage1 len) s .adm t (failWhy .denied "confirm")) ∧
    (∀ x len, Runs s .adm t (.updateBegin x len) → slotInUse s x = true →
      EndsOnly (.updateBegin (some t) x len) s .adm t (failWhy .badarg "range" [fld "key" "target"])) ∧
    (∀ up d ok, Runs s .adm t (.updateData s.svc.nextOff d) → s.svc.upd = some up → s.svc.nextOff + d.length ≤ up.len →
      (up.hdrOk = true ∨ up.bytes.length + d.length < 512) → up.work = [] → s.fl.queue = [] →
      ∃ s' up', exec (.updateData (some t) s.svc.nextOff d ok) s = .next s' ∧ s'.svc.upd = some up' ∧ up'.bytes = up.bytes ++ d ∧
        s'.svc.nextOff = s.svc.nextOff + d.length ∧ s'.dram = (dramWrite s (stageBase s + s.svc.nextOff) d).dram ∧ s'.med = s.med ∧
        s'.cfg = s.cfg ∧ s'.keys = s.keys) ∧
    (∀ off d ok, Runs s .adm t (.updateData off d) → off ≠ s.svc.nextOff →
      EndsOnly (.updateData (some t) off d ok) s .adm t (failWhy .badarg "range" [fld "key" "off", fnum "next" s.svc.nextOff])) ∧
    (∀ up addr d ok e, Runs s .adm t (.updateDma s.svc.nextOff addr d.length) → entryOf s .adm t = some e → e.tr = .pf0 →
      s.svc.upd = some up → s.svc.nextOff + d.length ≤ up.len → (up.hdrOk = true ∨ up.bytes.length + d.length < 512) → up.work = [] →
      s.fl.queue = [] →
      ∃ s' up', exec (.updateDma (some t) s.svc.nextOff addr d.length d ok) s = .next s' ∧ s'.svc.upd = some up' ∧
        up'.bytes = up.bytes ++ d ∧ s'.svc.nextOff = s.svc.nextOff + d.length ∧
        s'.dram = (dramWrite s (stageBase s + s.svc.nextOff) d).dram ∧ s'.med = s.med ∧ s'.cfg = s.cfg) ∧
    (∀ off addr len d ok e, Runs s .adm t (.updateDma off addr len) → entryOf s .adm t = some e → e.tr ≠ .pf0 →
      EndsOnly (.updateDma (some t) off addr len d ok) s .adm t (failWhy .denied "transport")) ∧
    (∀ up, Runs s .adm t .updateEnd → s.svc.upd = some up → up.bytes.length = up.len → digestOk up.bytes = true →
      let v := beField up.bytes 8 4
      ∃ u, EndsAs (.updateEnd (some t) true) s .adm t
          { status := .ok, fields := [fld "target" (targetName up.target), fld "fw" (fwStr v)] } u ∧
        u.svc = { s.svc with upd := none, updState := 3 } ∧ targetValid u (targetNo up.target) = true ∧
        u.fl.boot.entries.getLast? = some { type := 0x17, arg := targetNo up.target, value := v } ∧
        u = { quiet s with svc := u.svc, fl := u.fl }) ∧
    (∀ ok, Runs s .adm t .updateEnd → s.svc.upd = none →
      EndsOnly (.updateEnd (some t) ok) s .adm t (failWhy .badarg "form" [fld "key" "image", fld "hdr" "size"])) ∧
    (∀ up ok, Runs s .adm t .updateEnd → s.svc.upd = some up → up.bytes.length ≠ up.len →
      EndsAs (.updateEnd (some t) ok) s .adm t (failWhy .badarg "form" [fld "key" "image", fld "hdr" "size"])
        { quiet s with svc := { s.svc with upd := none, updState := 2 } }) ∧
    (Runs s .adm t .updateCancel → EndsAs (.updateCancel (some t)) s .adm t { status := .ok }
      { quiet s with
        svc := { s.svc with upd := none, updState := 0 }
        fl := { s.fl with noBoot := s.fl.noBoot || (s.svc.upd.map fun u => u.target == .stage1).getD false } })

/-- KEY (R185-R188, R255, R416): PART stages a word; LOAD of nine parts that unwrap to a pair whose halves differ fills the slot and empties
the stage, and of nine that do not only empties the stage; with a part missing it changes nothing; ZERO empties the slot and its stage; the KEK's parts are staged in an open window, and
the last installs it in both copies and uses the window up; once there is a KEK, its parts are denied. -/
def Obligations.KeyCommands : Prop :=
  ∀ (s : State) (t : Nat),
    (∀ k q w, Runs s .adm t (.keyPart k q w) → EndsAs (.keyPart (some t) k q w) s .adm t
      { status := .ok, fields := [fnum "slot" k.val, fnum "seq" q.val] }
      { quiet s with keys := { s.keys with stage := s.keys.stage.set k.val (put q.val w s.keys.stage[k]) k.isLt } }) ∧
    (∀ k b, Runs s .adm t (.keyLoad k) → slotHolders s k = [] → partsBytes 9 s.keys.stage[k] = some b →
      (∀ p, loadedPair s b = some p → EndsAs (.keyLoad (some t) k) s .adm t { status := .ok, fields := [fnum "slot" k.val, fld "kcv" (kcv p)] }
        { quiet s with keys := { s.keys with stage := s.keys.stage.set k.val [] k.isLt, slots := s.keys.slots.set k.val (some p) k.isLt } }) ∧
      (loadedPair s b = none → EndsAs (.keyLoad (some t) k) s .adm t (failWhy .badarg "form" [fld "key" "w"])
        { quiet s with keys := { s.keys with stage := s.keys.stage.set k.val [] k.isLt } })) ∧
    (∀ k, Runs s .adm t (.keyLoad k) → slotHolders s k = [] → partsBytes 9 s.keys.stage[k] = none →
      EndsOnly (.keyLoad (some t) k) s .adm t (failWhy .badarg "missing" [fld "key" "seq"])) ∧
    (∀ k, Runs s .adm t (.keyZero k) → slotHolders s k = [] →
      EndsAs (.keyZero (some t) k) s .adm t { status := .ok, fields := [fnum "slot" k.val] }
        { quiet s with keys := { s.keys with stage := s.keys.stage.set k.val [] k.isLt, slots := s.keys.slots.set k.val none k.isLt } }) ∧
    (∀ k, Runs s .adm t (.keyZero k) → slotHolders s k ≠ [] →
      EndsOnly (.keyZero (some t) k) s .adm t { status := .busyMode, fields := [fld "held" (heldStr (slotHolders s k))] }) ∧
    (∀ q w, Runs s .adm t (.keyKek q w) → s.keys.kek = none → s.fl.locked = false → windowOpen s .kek = true → q.val < 3 →
      EndsAs (.keyKek (some t) q w) s .adm t { status := .ok, fields := [fnum "seq" q.val, fnum "kek" 0] }
        { quiet s with keys := { s.keys with kekStage := put q.val w s.keys.kekStage } }) ∧
    (∀ w b, Runs s .adm t (.keyKek 3 w) → s.keys.kek = none → s.fl.locked = false → windowOpen s .kek = true →
      partsBytes 4 (put 3 w s.keys.kekStage) = some b →
      EndsAs (.keyKek (some t) 3 w) s .adm t { status := .ok, fields := [fnum "seq" 3, fnum "kek" 1] }
        { quiet s with
          keys := { s.keys with kek := some b, kekStage := [] }
          fl := { s.fl with keyA := some b, keyB := some b, locked := true }
          svc := { s.svc with confirm := none } }) ∧
    (∀ q w, Runs s .adm t (.keyKek q w) → s.keys.kek.isSome = true →
      EndsOnly (.keyKek (some t) q w) s .adm t (failWhy .denied "readonly"))

/-- CHAN OUT and IN (R178, R289): OUT maps a channel out unless two are already out; IN maps it in again, a failed one is written again, and
its count of bad rows starts over. -/
def Obligations.ChannelMapping : Prop :=
  ∀ (s : State) (t : Nat) (c : ChNo),
    (Runs s .adm t (.chanOut c) → (mapOut s).contains c.val = false → (mapOut s).length < 2 →
      ∃ o u, o.status = .ok ∧ EndsAs (.chanOut (some t) c) s .adm t o u ∧
        cfgVal u { id := .chanMapOut } = .l ((mapOut s ++ [c.val]).map Int.ofNat) ∧ u = { quiet s with cfg := u.cfg }) ∧
    (Runs s .adm t (.chanOut c) → (mapOut s).contains c.val = false → 2 ≤ (mapOut s).length →
      EndsOnly (.chanOut (some t) c) s .adm t (failWhy .badarg "range" [fld "key" "ch"])) ∧
    (Runs s .adm t (.chanIn c) →
      ∃ o u, o.status = .ok ∧ EndsAs (.chanIn (some t) c) s .adm t o u ∧
        cfgVal u { id := .chanMapOut } = .l (((mapOut s).filter (· ≠ c.val)).map Int.ofNat) ∧
        u.med.failed = s.med.failed.filter (· ≠ c.val) ∧ u.med.ch[c].chsRun = 0 ∧
        (u.med.stopped = true → s.med.stopped = true) ∧ u.med.append = s.med.append ∧ u.med.lane = s.med.lane ∧ u = { quiet s with cfg := u.cfg, med := u.med })

/-! ### Diagnostics -/

/-- CAL and TEST start (R177, R202, R502): the diagnostic runs from this tick on for the command's tag, with nothing found yet; CAL's items
take their fixed order, on the band that it names; an item, or PATTERN, that needs a threaded cartridge is NOTAPE without one. -/
def Obligations.DiagnosticsStart : Prop :=
  ∀ (s : State) (t : Nat),
    let began (w : DiagWhat) (pass passes : Nat) (items : List CalItem) (band : Option (Fin 4)) : State := { quiet s with diag := { s.diag with
      what := w, running := true, fail := false, pass := pass, passes := passes, errors := 0, addr := 0, ticks := 0
      tag := some t, start := s.clk.ptc, items := items, band := band, cut := false } }
    (∀ items band, Runs s .adm t (.cal items band) → (s.cart.threaded = true ∨ ∀ i ∈ items, CalItem.needsTape i = false) →
      GoesOn (.cal (some t) items band) s .adm t (began .cal 0 0 (calOrder.filter items.contains) band)) ∧
    (∀ items band i, Runs s .adm t (.cal items band) → s.cart.threaded = false → i ∈ items → CalItem.needsTape i = true →
      EndsOnly (.cal (some t) items band) s .adm t { status := .notape }) ∧
    (∀ p, Runs s .adm t (.testDram p) → GoesOn (.testDram (some t) p) s .adm t (began .dram 1 p [] none)) ∧
    (∀ p, Runs s .adm t (.testFlash p) → GoesOn (.testFlash (some t) p) s .adm t (began .flash 1 p [] none)) ∧
    (∀ p, Runs s .adm t (.testLoop p) → GoesOn (.testLoop (some t) p) s .adm t (began .loop 1 p [] none)) ∧
    (∀ p, Runs s .adm t (.testPattern p) → s.cart.threaded = true → GoesOn (.testPattern (some t) p) s .adm t (began .pattern 1 p [] none)) ∧
    (∀ p, Runs s .adm t (.testPattern p) → s.cart.threaded = false → EndsOnly (.testPattern (some t) p) s .adm t { status := .notape })

/-- CAL and TEST end (R202, R502-R504): the engine stops with its errors and ticks and completes the command; an item of CAL passes by the
limit on its value; a CAL or TEST that a queue reset cut completes nothing, and that CAL changes no parameter; TEST DRAM leaves nothing of
what the caddies and READAHEAD held, and TEST LOOP leaves the media side as it was. -/
def Obligations.DiagnosticsEnd : Prop :=
  (∀ (rs : List CalResult) (k t : Nat) (e : Entry) (s : State), live s = true → s.diag.running = true → s.diag.what = .cal →
    (∀ i ∈ s.diag.items, ∃ r ∈ rs, r.item = i) → s.diag.cut = false → s.diag.tag = some t → entryOf s .adm t = some e → e.ended = none →
    ∃ s' o, exec (.calComplete rs k) s = .next s' ∧ EndedWith s' .adm t o ∧ o.status = .ok ∧
      o.fields = [fnum "ticks" k, fnum "fail" ((s.diag.items.filterMap fun i => rs.find? (·.item == i)).filter fun r => !calPass s r).length] ∧
      s'.diag.running = false ∧ s'.diag.ticks = sat 32 k ∧ s'.med = s.med ∧ s'.cart = s.cart ∧ OthersKept s s' .adm t) ∧
  (∀ (rs : List CalResult) (k : Nat) (s : State), live s = true → s.diag.running = true → s.diag.what = .cal →
    s.diag.cut = true →
    ∃ s', exec (.calComplete rs k) s = .next s' ∧ s'.diag.running = false ∧ s'.cfg = s.cfg ∧ s'.adm = s.adm ∧ s'.med = s.med) ∧
  (∀ (r : TestResult) (t : Nat) (e : Entry) (s : State), live s = true → s.diag.running = true → s.diag.what ≠ .cal →
    s.diag.cut = false → s.diag.tag = some t → entryOf s .adm t = some e → e.ended = none →
    ∃ s' o, exec (.testComplete r) s = .next s' ∧ EndedWith s' .adm t o ∧ o.status = .ok ∧
      o.fields.drop 1 = [fnum "pass" s.diag.passes, fnum "errors" r.errors, fnum "ticks" r.ticks] ∧
      s'.diag.running = false ∧ s'.diag.errors = sat 32 r.errors ∧ s'.diag.addr = r.addr ∧ s'.diag.pass = s.diag.passes ∧
      s'.cfg = s.cfg ∧ s'.keys = s.keys ∧
      (s.diag.what = .dram → s'.dram = { cells := s.dram.cells.filter fun c => decide (s.pool.total * 65536 ≤ c.1) } ∧
        s'.rd.store = [] ∧ s'.dramFill = .pattern) ∧
      (s.diag.what = .loop → s'.med = s.med ∧ s'.rd = s.rd ∧ s'.dram = s.dram ∧ s'.fl = s.fl)) ∧
  (∀ (r : TestResult) (s : State), live s = true → s.diag.running = true → s.diag.what ≠ .cal → s.diag.cut = true →
    ∃ s', exec (.testComplete r) s = .next s' ∧ s'.diag.running = false ∧ s'.diag.cut = false ∧ s'.diag.pass = r.partialPass ∧
      s'.adm = s.adm ∧ s'.cfg = s.cfg ∧ s'.keys = s.keys) ∧
  (∀ (s : State) (r : CalResult),
    (r.item = .adc → calPass s r = decide (r.value ≤ 2)) ∧ (r.item = .tension → calPass s r = decide (r.value ≤ 50)) ∧
    (r.item = .servo → calPass s r = decide (r.value ≤ 30)) ∧ ((r.item = .heads ∨ r.item = .write) → calPass s r = decide (r.value = 0)))

/-! ### The cartridge -/

/-- LOAD and UNLOAD (R174, R204, R383, R384). LOAD with nothing loaded starts its motion, and with a cartridge loaded answers at once;
when it has threaded, the cartridge is loaded, not yet marked, and LOAD completes; an empty bay is NOTAPE. UNLOAD with nothing left to write
starts its motion, from STAGE with the change to PARK first, and with something left it is BUSY.MODE; when it has ended nothing is threaded
and UNLOAD completes with where the directory went. -/
def Obligations.LoadAndUnload : Prop :=
  (∀ (s : State) (t : Nat), Runs s .adm t .load → s.cart.loaded = false → streamHeld s .adm = [] → s.cart.motion = none →
    ∃ u, GoesOn (.load (some t)) s .adm t u ∧ u.cart = { s.cart with motion := some .load } ∧
      u.med = { s.med with positioned := false } ∧ u.rd = { s.rd with reading := false } ∧ u.sad = s.sad ∧ u.cfg = s.cfg ∧ u.evt = s.evt) ∧
  (∀ (s : State) (t : Nat), Runs s .adm t .load → s.cart.loaded = true →
    EndsOnly (.load (some t)) s .adm t { status := .ok, fields := loadFields s }) ∧
  (∀ (s : State) (obs : LoadObs) (e : Entry), live s = true → s.cart.motion = some .load → admOpen s (· == .load) = some e →
    entryOf s .adm e.tag = some e →
    (obs.empty = true → ∃ s', exec (.loadComplete obs) s = .next s' ∧ EndedWith s' .adm e.tag (failWhy .notape "empty") ∧
      s'.cart = { s.cart with motion := none } ∧ s'.med = s.med ∧ s'.cfg = s.cfg) ∧
    (obs.empty = false → obs.threadFails = false →
      ∃ s' o, exec (.loadComplete obs) s = .next s' ∧ EndedWith s' .adm e.tag o ∧ o.status = .ok ∧ s'.cart.loaded = true ∧
        s'.cart.threaded = true ∧ s'.cart.motion = none ∧ s'.cart.marked = false ∧ s'.cart.readonly = decide (s'.cart.source = 2) ∧
        s'.cart.present = (obs.cm.isSome && !obs.multi) ∧ s'.med.append = s'.cart.eodDsn ∧ s'.cfg = s.cfg ∧ s'.keys = s.keys)) ∧
  (∀ (s : State) (t : Nat), Runs s .adm t .load → s.cart.loaded = false → streamHeld s .adm ≠ [] →
    EndsOnly (.load (some t)) s .adm t { status := .busyMode, fields := [fld "held" (heldStr (streamHeld s .adm))] }) ∧
  (∀ (s : State) (t : Nat), Runs s .adm t .unload → s.cart.loaded = true → (∀ n : SadNo, s.sad[n].unsync = []) →
    (s.pw.mode ≠ .stage → streamHeld s .adm = []) → (s.pw.mode = .stage → holders s 1 .adm = []) → s.cart.motion = none →
    ∃ u, GoesOn (.unload (some t)) s .adm t u ∧ u.cart = { s.cart with motion := some .unload } ∧
      u.pw = { s.pw with dom := u.pw.dom, reqs :=
        if s.pw.mode = .stage then s.pw.reqs ++ [{ ch := .adm, tag := none, target := .park }] else s.pw.reqs } ∧
      u.sad = s.sad ∧ u.cfg = s.cfg ∧ u.evt = s.evt) ∧
  (∀ (s : State) (t : Nat) (n : SadNo), Runs s .adm t .unload → s.cart.loaded = true → s.sad[n].unsync ≠ [] →
    EndsOnly (.unload (some t)) s .adm t { status := .busyMode, fields :=
      [fld "held" (heldStr (allSads.filter fun n => !s.sad[n].unsync.isEmpty))] }) ∧
  (∀ (s : State) (t : Nat), Runs s .adm t .unload → s.cart.loaded = false → EndsOnly (.unload (some t)) s .adm t { status := .notape }) ∧
  (∀ (s : State) (cmOk : Bool) (e : Entry), live s = true → s.cart.motion = some .unload → s.pw.trans = none → s.pw.reqs = [] →
    s.pw.mode = .stage → admOpen s (· == .unload) = some e → entryOf s .adm e.tag = some e →
    ∃ s', exec (.unloadComplete cmOk) s = .next s' ∧ s'.cart = { s.cart with motion := none } ∧ s'.med = s.med ∧ s'.cfg = s.cfg ∧
      EndedWith s' .adm e.tag { status := .busyMode, fields := [fld "held" (heldStr (holders s 1 .adm))] }) ∧
  (∀ (s : State) (cmOk : Bool), live s = true → (s.pw.trans.isSome = true ∨ s.pw.reqs ≠ [] ∨ s.cart.motion ≠ some .unload) →
    exec (.unloadComplete cmOk) s = .next (quiet s)) ∧
  (∀ (s : State) (cmOk : Bool) (e : Entry), live s = true → s.cart.motion = some .unload → s.pw.trans = none → s.pw.reqs = [] →
    s.pw.mode ≠ .stage → admOpen s (· == .unload) = some e → entryOf s .adm e.tag = some e →
    ∃ s', exec (.unloadComplete cmOk) s = .next s' ∧ s'.cart.loaded = false ∧ s'.cart.threaded = false ∧ s'.cart.motion = none ∧
      s'.cart.marked = false ∧ s'.rd.store = [] ∧ s'.med.index = [] ∧ s'.cfg = s.cfg ∧
      EndedWith s' .adm e.tag { status := .ok, fields :=
        [fld "cm" (if cmOk && s.cart.present then "OK" else "TAIL"), fnum "loads" s.cart.loads] })

/-- LOCATE and SPACE (R158, R162, R174, R189, R199, R292, R293, R377). A girth in the buffer is located at once, whether or not a data set
on tape holds it yet; one at or past the next girth is out of range. Every other LOCATE, and SPACE, starts the tape, is NOTAPE with nothing
loaded, BUSY.MODE while another saddle holds STREAM, and waits its turn while the tape moves for another command. When the tape rests, the
motion has ended and the command completes: a girth in the data set that arithmetic or else the index gives, a data set by its number, BOT
at data set 0 and EOD at the append point (log 134), SPACE by girths or by MARKs at the girth that its count reaches with what it did not
space (log 136); the saddle's read position is then that girth, and after LOCATE it is lost no more. -/
def Obligations.LocateAndSpace : Prop :=
  let seeks (c : Instr) (s : State) (ch : Chan) (t : Nat) : Prop :=
    (s.cart.loaded = false → EndsOnly c s ch t { status := .notape }) ∧
    (s.cart.loaded = true → streamHeld s ch ≠ [] →
      EndsOnly c s ch t { status := .busyMode, fields := [fld "held" (heldStr (streamHeld s ch))] }) ∧
    (s.cart.loaded = true → streamHeld s ch = [] → s.cart.motion = none →
      ∃ u, GoesOn c s ch t u ∧ u = { quiet s with
        cart := { s.cart with motion := some (.seek ch (some t)) }, med := { s.med with positioned := false }
        rd := { s.rd with reading := false }, pw := { s.pw with dom := u.pw.dom } }) ∧
    (s.cart.loaded = true → streamHeld s ch = [] → s.cart.motion.isSome = true →
      ∃ q e, exec c s = .next (withQueue (quiet s) ch q) ∧ entryOf (withQueue (quiet s) ch q) ch t = some e ∧ e.ended = none ∧
        e.begun = false ∧ e.why = .tape ∧ OthersKept s (withQueue (quiet s) ch q) ch t)
  (∀ (s : State) (ch : Chan) (t g : Nat) (sad : Option SadNo) (n : SadNo), targetOf ch sad = some n → Runs s ch t (.locate sad (.girth g)) →
    (s.sad[n].next ≤ g →
      EndsOnly (.locate ch (some t) sad (.girth g)) s ch t (failWhy .badarg "range" [fld "key" "girth", fnum "eod" s.sad[n].next])) ∧
    (g < s.sad[n].next → ∀ d, inBuffer s n g = some d →
      ∃ k u, EndsAs (.locate ch (some t) sad (.girth g)) s ch t
          { status := .ok, fields := [fnum "girth" g] ++ posFields s k ++ [fld "how" "BUFFER"] } u ∧ (∀ x, d = some x → k = x) ∧
        u = { quiet s with
          sad := (modSad s n fun x => { x with readPos := g, posLost := false }).sad,
          rd := { s.rd with locMethod := 0, locProbes := 0 }, free := if d = none then s.free + 1 else s.free }) ∧
    (g < s.sad[n].next → inBuffer s n g = none → seeks (.locate ch (some t) sad (.girth g)) s ch t)) ∧
  (∀ (s : State) (ch : Chan) (t : Nat) (sad : Option SadNo) (x : LocTarget), (∀ g, x ≠ .girth g) → Runs s ch t (.locate sad x) →
    seeks (.locate ch (some t) sad x) s ch t) ∧
  (∀ (s : State) (ch : Chan) (t : Nat) (sad : Option SadNo) (b : SpaceBy), Runs s ch t (.space sad b) →
    seeks (.space ch (some t) sad b) s ch t) ∧
  (∀ (s : State) (ch : Chan) (t dsn probes moved : Nat) (g : Option Nat) (e : Entry), live s = true → bandUsable s = true →
    s.cart.motion = some (.seek ch (some t)) → entryOf s ch t = some e → e.ended = none →
    let rests (d : Nat) (o : Outc) (s' : State) : Prop :=
      exec (.tapePositioned ch dsn probes moved g) s = .next s' ∧ EndedWith s' ch t o ∧ s'.cart.motion = none ∧
        s'.rd.wrap = wrapOfDsn s d ∧ s'.rd.stopped = true ∧ s'.rd.reading = false ∧ s'.srv.lost = false ∧ s'.med.positioned = false ∧
        s'.cfg = s.cfg
    let spaced (g d k : Nat) : Outc :=
      { status := .ok, fields := [fnum "girth" g] ++ posFields s d ++ (if k = 0 then [] else [fnum "short" k]) }
    (∀ sad d, e.verb = .locate sad (.ds d) → ∃ s', rests d { status := .ok, fields := posFields s d } s' ∧
      s'.rd.locMethod = 2 ∧ s'.rd.locProbes = min 255 probes) ∧
    (∀ sad n x, targetOf ch sad = some n → e.verb = .locate sad (.girth x) →
      let r := girthDs s n x dsn probes
      ∃ s', rests r.1 { status := .ok, fields := [fnum "girth" x] ++ posFields s r.1 ++ [fld "how" (howName r.2.1)] } s' ∧
        s'.sad[n].readPos = x ∧ s'.sad[n].posLost = false ∧ s'.rd.locMethod = r.2.1 ∧ s'.rd.locProbes = min 255 r.2.2) ∧
    (∀ sad n, targetOf ch sad = some n → e.verb = .locate sad .bot →
      ∃ s', rests 0 { status := .ok, fields := [fnum "girth" 0] ++ posFields s 0 ++ [fld "how" "INDEX"] } s' ∧
        s'.sad[n].readPos = 0 ∧ s'.sad[n].posLost = false) ∧
    (∀ sad n, targetOf ch sad = some n → e.verb = .locate sad .eod →
      ∃ s', rests s.med.append { status := .ok, fields :=
          [fnum "girth" s.sad[n].next] ++ posFields s s.med.append ++ [fld "how" "INDEX"] } s' ∧
        s'.sad[n].readPos = s.sad[n].next ∧ s'.sad[n].posLost = false) ∧
    (∀ sad, targetOf ch sad = none → e.verb = .locate sad .bot → ∃ s', rests 0 { status := .ok, fields := posFields s 0 } s') ∧
    (∀ sad, targetOf ch sad = none → e.verb = .locate sad .eod →
      ∃ s', rests s.med.append { status := .ok, fields := posFields s s.med.append } s') ∧
    (∀ sad n k, targetOf ch sad = some n → e.verb = .space sad (.girths k) →
      let r := spaceGirths s n k
      ∃ s', rests (spaceDs s n r.1 dsn) (spaced r.1 (spaceDs s n r.1 dsn) r.2) s' ∧ s'.sad[n].readPos = r.1) ∧
    (∀ sad n k, targetOf ch sad = some n → e.verb = .space sad (.marks k) →
      let r := spaceMarks s n k moved g
      ∃ s', rests (spaceDs s n r.1 dsn) (spaced r.1 (spaceDs s n r.1 dsn) r.2) s' ∧ s'.sad[n].readPos = r.1)) ∧
  (∀ (s : State) (n : SadNo) (k : Int), 0 ≤ (s.sad[n].readPos : Int) + k → (s.sad[n].readPos : Int) + k ≤ s.sad[n].next →
    spaceGirths s n k = (((s.sad[n].readPos : Int) + k).toNat, 0)) ∧
  (∀ (s : State) (ch : Chan) (dsn probes moved : Nat) (g : Option Nat), live s = true → (bandUsable s = false ∨ s.cart.motion = none) →
    exec (.tapePositioned ch dsn probes moved g) s = .next (quiet s))

/-- Cartridge memory (R179, R390, R391): CM READ and REPAIR act at once while the memory answers and no external field is present, and are
FAULT with `cm=absent` when it does not answer; REPAIR writes both copies, with the facts of the tail data set where one ends the
recording (log 23), and is denied in PARK; in a field they wait; when the field is not above `cm.sense_mv` at a try, what waits is done;
after the timeout it fails, and a cartridge not yet marked in STREAM is read-only. -/
def Obligations.CartridgeMemory : Prop :=
  (∀ (s : State) (t : Nat) (p : CmPart), Runs s .adm t (.cmRead p) → s.cart.loaded = true → s.cart.present = true → s.cart.field = false →
    EndsOnly (.cmRead (some t) p) s .adm t { status := .ok, fields := cmFields s p, more := cmLines s p }) ∧
  (∀ (s : State) (t : Nat) (p : CmPart), Runs s .adm t (.cmRead p) → s.cart.loaded = true → s.cart.present = false →
    EndsOnly (.cmRead (some t) p) s .adm t (failWhy .fault "internal" [fld "cm" "absent"])) ∧
  (∀ (s : State) (t : Nat) (p : CmPart), Runs s .adm t (.cmRead p) → s.cart.loaded = true → s.cart.present = true → s.cart.field = true →
    ∃ u, GoesOn (.cmRead (some t) p) s .adm t u ∧ u.cart = { s.cart with
        cmWait := some (s.cart.cmWait.getD s.clk.ptc), cmDue := now s + pnat s .cmBackoff + Config.entropy s.free % 4 } ∧
      u = { quiet s with cart := u.cart, free := s.free + 1 }) ∧
  (∀ (s : State) (t : Nat), Runs s .adm t .cmRepair → s.pw.mode ≠ .park → s.cart.loaded = true → s.cart.present = true →
    s.cart.field = false → ∃ u, EndsAs (.cmRepair (some t)) s .adm t { status := .ok, fields := [fnum "eod" u.cart.eodDsn] } u ∧
      u.cart.seqDir = s.cart.seqDir + 2 ∧ u.cart.copyB = s.cart.copyB ∧ u.cart.heldEpochs = [] ∧ u.cart.heldLogs = [] ∧
      (s.cart.tail = none → u.cart.eodDsn = s.cart.eodDsn ∧ u.cart.opened = s.cart.marked) ∧
      (∀ b d x, s.cart.tail = some (b, d) → parseDir b = some x → u.cart.eodDsn = d ∧ u.cart.opened = false) ∧
      u = { quiet s with cart := u.cart }) ∧
  (∀ (s : State) (t : Nat), Runs s .adm t .cmRepair → s.pw.mode = .park →
    EndsOnly (.cmRepair (some t)) s .adm t { status := .denied, fields := [fld "why" "mode", fld "mode" "PARK"] }) ∧
  (∀ (s : State) (mv : Nat), live s = true → s.cart.cmWait.isSome = true → s.cart.cmDue ≤ now s → pnat s .cmSenseMv < mv →
    exec (.cmBackoffExpiry mv) s = .next (cmDefer { quiet s with cart := { s.cart with field := true } })) ∧
  (∀ (s : State) (mv : Nat) (e : Entry) (p : CmPart), live s = true → s.cart.cmWait.isSome = true → s.cart.cmDue ≤ now s →
    mv ≤ pnat s .cmSenseMv → s.pw.mode ≠ .stream →
    cmWaiting s = [e] → entryOf s .adm e.tag = some e → e.verb = .cmRead p →
    ∃ s', exec (.cmBackoffExpiry mv) s = .next s' ∧ s'.cart = { s.cart with field := false, cmWait := none } ∧
      EndedWith s' .adm e.tag { status := .ok, fields := cmFields s p, more := cmLines s p } ∧ s'.med = s.med ∧ s'.cfg = s.cfg) ∧
  (∀ (s : State) (w : W64), live s = true → s.cart.cmWait = some w → w.toNat + pnat s .cmTimeout ≤ now s →
    ∃ s', exec .cmTimeout s = .next s' ∧ s'.cart = { s.cart with
        cmWait := none, readonly := s.cart.readonly || (s.pw.mode == .stream && !s.cart.marked && s.cart.loaded) } ∧
      s'.med = s.med ∧ s'.cfg = s.cfg ∧
      ∀ e, cmWaiting s = [e] → entryOf s .adm e.tag = some e → EndedWith s' .adm e.tag (failWhy .fault "internal" [fld "cm" "absent"]))

/-! ### Modes -/

/-- MODE (R6, R33, R35, R40, R60): the change is asked for and goes on; its steps' end is noted and takes effect at a boundary, where the
mode is in force, the transition is over and its MODE completes with the mode's name; entering SERVICE zeroes every key slot; a HALT cause
puts HALT in force with that cause, also in start-up, and the tape is to stop; in the recovery state it waits (log 125). -/
def Obligations.ModeChanges : Prop :=
  (∀ (s : State) (ch : Chan) (t : Nat) (m : Mode), Runs s ch t (.mode m) →
    GoesOn (.mode ch (some t) m) s ch t { quiet s with pw := { s.pw with reqs := s.pw.reqs ++ [{ ch := ch, tag := some t, target := m }] } }) ∧
  (∀ s : State, live s = true → exec .modeComplete s = .next { quiet s with
    pw := { s.pw with trans := s.pw.trans.map fun t => { t with done := true } } }) ∧
  (∀ s : State, (∀ tr, s.pw.trans = some tr → tr.done = false) → endTrans s = s) ∧
  (∀ (s : State) (tr : Trans), s.pw.trans = some tr → tr.done = true →
    let s' := endTrans s
    s'.pw.trans = none ∧ s'.pw.mode = tr.target ∧ s'.pw.target = tr.target ∧ s'.cfg.committed = s.cfg.committed ∧
      (s.pw.mode ≠ .service → tr.target = .service → s'.keys.slots = Vector.replicate 16 none) ∧
      (tr.target ≠ .service → s'.keys = s.keys)) ∧
  (∀ (s : State) (tr : Trans) (k : Nat) (e : Entry), s.pw.trans = some tr → tr.done = true → tr.tag = some k →
    entryOf s tr.ch k = some e → e.ended = none → s.pw.mode = .park → tr.target = .stage →
    let s' := endTrans s
    EndedWith s' tr.ch k { status := .ok, fields := [fld "mode" "STAGE"] } ∧ s'.med = s.med ∧ s'.cart = s.cart ∧ s'.cfg = s.cfg ∧
      s'.rd = s.rd) ∧
  (∀ (s : State) (c : HaltCause), s.pw.haltPend = some c → s.pw.mode ≠ .halt → s.pw.recovery = false →
    (haltEntry s).pw.mode = .halt ∧ (haltEntry s).pw.cause = c ∧ (haltEntry s).pw.haltPend = none ∧ (haltEntry s).pw.trans = none ∧
      (haltEntry s).srv.stopCmd = true) ∧
  (∀ s : State, (s.pw.haltPend = none ∨ s.pw.recovery = true) → haltEntry s = s)

/-! ### Streams -/

/-- WRITE and MARK start (R146, R210, R211): words on the line are in the saddle's caddies at once when there is room; a WRITE from a host
buffer waits for its bytes, and a MARK for the window; nothing but the command's entry changes. Words that find no room wait for the pool and begin later (R222). -/
def Obligations.WritesStart : Prop :=
  ∀ (s : State) (n : SadNo) (t : Nat),
    (∀ a l, Runs s (.sad n) t (.write a) → a.src = .words l →
      roomFor s n (blockOf s n) (8 * l.length) = true →
      ∃ q e, exec (.write n (some t) a) s = .next (withQueue (quiet s) (.sad n) q) ∧
        entryOf (withQueue (quiet s) (.sad n) q) (.sad n) t = some e ∧ e.ended = none ∧ e.begun = true ∧
        e.data = (l.flatMap fun w => beBytes 8 w.toNat) ∧ OthersKept s (withQueue (quiet s) (.sad n) q) (.sad n) t) ∧
    (∀ a l, Runs s (.sad n) t (.write a) → a.src = .words l →
      roomFor s n (blockOf s n) (8 * l.length) = false →
      ∃ q e, exec (.write n (some t) a) s = .next (withQueue (quiet s) (.sad n) q) ∧
        entryOf (withQueue (quiet s) (.sad n) q) (.sad n) t = some e ∧ e.ended = none ∧ e.begun = false ∧ e.why = .pool ∧
        OthersKept s (withQueue (quiet s) (.sad n) q) (.sad n) t) ∧
    (∀ a l, Runs s (.sad n) t (.write a) → a.src = .sg l → (∀ p, bindOf s n ≠ .sp p) →
      GoesOn (.write n (some t) a) s (.sad n) t (quiet s)) ∧
    (∀ note, Runs s (.sad n) t (.mark note) → GoesOn (.mark n (some t) note) s (.sad n) t (quiet s))

/-- ACKNOWLEDGE (R145, R146, R149, R159, R203, R222, R250, R388): the saddle's oldest command whose bytes are there completes in turn, and
only while nothing bars the saddle's acknowledgements, the command holds the range-lock entry it needs, the window holds it and the
saddle's caddies have room. An acknowledged MARK or TIME is a girth of its own that is not yet on tape, a TIME with the pair of the tick
in which it started (log 124); an acknowledged WRITE answers OK with its first girth; with the window or the caddies full nothing
happens; past the end of media the command ends with EOM. -/
def Obligations.Acknowledgement : Prop :=
  ∀ (s : State) (n : SadNo) (e : Entry), live s = true → oldest s (.sad n) = some e → entryOf s (.sad n) e.tag = some e →
    (landed e = false ∨ ackBarred s n = true ∨ unlocked s n e = true → exec (.acknowledge n) s = .next (quiet s)) ∧
    (landed e = true → ackBarred s n = false → unlocked s n e = false →
      (s.med.eom = false → window s n < unsyncBytes s.sad[n] + ackBytes e.verb ∨ ackRoom s n e = false →
        exec (.acknowledge n) s = .next (quiet s)) ∧
      (s.med.eom = false → unsyncBytes s.sad[n] + ackBytes e.verb ≤ window s n → ackRoom s n e = true →
        (∀ note, e.verb = .mark note → s.sad[n].blk.bytes = [] →
          ∃ s' o, exec (.acknowledge n) s = .next s' ∧ EndedWith s' (.sad n) e.tag o ∧ o.status = .ok ∧
            o.fields.head? = some (fnum "girth" s.sad[n].next) ∧ s'.sad[n].next = s.sad[n].next + 1 ∧
            s'.sad[n].unsync = s.sad[n].unsync ++ [(s.sad[n].next, 4096)] ∧ s'.cfg = s.cfg ∧ s'.evt = s.evt) ∧
        (∀ v x, e.verb = .time v x → s.sad[n].blk.bytes = [] →
          ∃ s', exec (.acknowledge n) s = .next s' ∧
            EndedWith s' (.sad n) e.tag { status := .ok, fields := [fnum "ptc" e.startPtc.toNat, fld "sid" (sidStr s.clk.session),
              fld "where" "TAPE", fnum "girth" s.sad[n].next] } ∧
            s'.sad[n].next = s.sad[n].next + 1 ∧ s'.sad[n].unsync = s.sad[n].unsync ++ [(s.sad[n].next, 4096)] ∧
            s'.cart.heldLogs.length = s.cart.heldLogs.length + 1 ∧
            s'.evt = (timeEvent s n.val e.startPtc (v.getD 0) (x.getD "")).evt ∧ s'.cfg = s.cfg) ∧
        (∀ a, e.verb = .write a →
          ∃ s' o, exec (.acknowledge n) s = .next s' ∧ EndedWith s' (.sad n) e.tag o ∧ o.status = .ok ∧
            o.fields.head? = some (fnum "girth" s.sad[n].next) ∧ s'.cfg = s.cfg ∧ s'.evt = s.evt ∧
            s'.med.locks = s.med.locks.filter fun l => !(l.1 == n && l.2.1 == e.tag))) ∧
      (s.med.eom = true → ∃ s', exec (.acknowledge n) s = .next s' ∧ EndedWith s' (.sad n) e.tag { status := .eom } ∧
        s'.sad[n].next = s.sad[n].next ∧ s'.sad[n].unsync = s.sad[n].unsync))

/-- SYNC and closing (R90, R148, R149, R211): SYNC ends the block under fill and waits for what is acknowledged so far, whose open data set
closes; it completes once none of those girths is off tape, unless PWR_FAIL_N withholds it; what has not grown for `close_ticks` closes, and before that stays. -/
def Obligations.SyncAndClosing : Prop :=
  (∀ (s : State) (n : SadNo) (t : Nat), Runs s (.sad n) t .sync →
    ∃ s' e, exec (.sync n (some t)) s = .next s' ∧ entryOf s' (.sad n) t = some e ∧ e.ended = none ∧ e.girth0 = s'.sad[n].next ∧
      s'.sad[n].blk.bytes = [] ∧ (∀ d, s'.sad[n].openDs = some d → d.force = true) ∧ s'.cfg = s.cfg ∧ s'.evt = s.evt) ∧
  (∀ (s : State) (n : SadNo) (e : Entry), live s = true → syncOf s n = some e → entryOf s (.sad n) e.tag = some e →
    (∀ u ∈ s.sad[n].unsync, e.girth0 ≤ u.1) →
    (e.frozen = true → exec (.syncComplete n) s = .next (quiet s)) ∧
    (e.frozen = false → ∃ q o, exec (.syncComplete n) s = .next (withQueue (quiet s) (.sad n) q) ∧
      EndedWith (withQueue (quiet s) (.sad n) q) (.sad n) e.tag o ∧ o.status = .ok ∧ o.fields.head? = some (fnum "girth" e.girth0))) ∧
  (∀ (s : State) (n : SadNo), live s = true → s.sad[n].blk.bytes ≠ [] → s.sad[n].openDs = none →
    (s.sad[n].blk.grown.toNat + pnat s .sadCloseTicks n.val ≤ now s →
      ∃ s', exec (.closeTicksExpiry n) s = .next s' ∧ s'.sad[n].blk.bytes = [] ∧ s'.sad[n].next = s.sad[n].next + 1 ∧
        s'.sad[n].unsync = s.sad[n].unsync ∧ s'.cfg = s.cfg ∧ s'.evt = s.evt) ∧
    (now s < s.sad[n].blk.grown.toNat + pnat s .sadCloseTicks n.val → exec (.closeTicksExpiry n) s = .next (quiet s)))

/-- READ (R142, R145, R158, R160, R193): in its turn it is settled at its girth or the saddle's read position, takes what the buffer holds
and waits for what it still needs, and is NOTAPE when it needs the tape and nothing is loaded; delivered in full, or up to the end of
data, it completes with what was found and the read position moves past its girths; a wait for a range lock that has lasted its ticks
ends it with the girths before the lock (log 24 for `short=`). It delivers once the engines have done its work and, on a VF, host DMA has
room for its bytes (log 129). -/
def Obligations.Reads : Prop :=
  (∀ (s : State) (n : SadNo) (t : Nat) (a : ReadArgs), Runs s (.sad n) t (.read a) → s.cart.loaded = true →
    ∃ s' e, exec (.read n (some t) a) s = .next s' ∧ entryOf s' (.sad n) t = some e ∧ e.ended = none ∧ e.begun = true ∧
      ((s.sad[n].q.entries.find? fun e => e.ended.isNone && runKind e.verb = 2) = entryOf s (.sad n) t →
        (∀ e0, entryOf s (.sad n) t = some e0 → e0.placed = false ∧ e0.res = none) →
        e.placed = true ∧ e.girth0 = a.girth.getD s.sad[n].readPos) ∧
      s'.sad[n].lastRead = some s.clk.ptc ∧ s'.cart = s.cart ∧ s'.cfg = s.cfg ∧ s'.evt = s.evt) ∧
  (∀ (s : State) (n : SadNo) (t : Nat) (a : ReadArgs), Runs s (.sad n) t (.read a) → s.cart.loaded = false →
    (s.sad[n].q.entries.find? fun e => e.ended.isNone && runKind e.verb = 2) = entryOf s (.sad n) t →
    (∀ e0, entryOf s (.sad n) t = some e0 → e0.placed = false ∧ e0.res = none ∧ e0.pieces = []) →
    (match findFor s n (fillZero s a) (a.girth.getD s.sad[n].readPos) with
      | .tape => True
      | _ => False) → 0 < a.len →
    ∃ s', exec (.read n (some t) a) s = .next s' ∧ EndedWith s' (.sad n) t { status := .notape } ∧ s'.sad[n].readPos = s.sad[n].readPos ∧
      s'.med = s.med ∧ s'.cfg = s.cfg ∧ s'.evt = s.evt) ∧
  (∀ (s u : State) (n : SadNo) (e : Entry) (a : ReadArgs) (ps : List Piece), live s = true → readOn (quiet s) n = u →
    readEntry u n = some (e, a) → entryOf u (.sad n) e.tag = some e → (∀ p, bindOf u n ≠ .sp p) →
    (gather u n e a = (ps, .full) ∨ gather u n e a = (ps, .eod)) → (ps.length = e.pieces.length ∨ (followOf u n).isSome) →
    allDecoded { e with pieces := ps } = true →
    (bindOf u n = .vf → sumL (ps.map (·.bytes.length)) ≤ e.sent + dmaOutRoom u n) →
    ∃ s', exec (.readDelivered n) s = .next s' ∧
      EndedWith s' (.sad n) e.tag (readOutcome u n e.girth0 ps none (decide ((gather u n e a).2 = .eod))) ∧
      s'.sad[n].readPos = e.girth0 + ps.length ∧ s'.out.hostBuf = ps.flatMap (·.bytes) ∧ s'.med = s.med ∧ s'.cfg = s.cfg) ∧
  (∀ (s u : State) (n : SadNo) (e : Entry) (a : ReadArgs) (ps : List Piece), live s = true → readOn (quiet s) n = u →
    readEntry u n = some (e, a) → gather u n e a = (ps, .locked) → exec (.readDelivered n) s = .next u) ∧
  (∀ (s : State) (n : SadNo) (e : Entry) (a : ReadArgs) (ps : List Piece) (w : W64), live s = true → readEntry s n = some (e, a) →
    entryOf s (.sad n) e.tag = some e → (∀ p, bindOf s n ≠ .sp p) → gather s n e a = (ps, .locked) → e.lockAt = some w →
    pnat s .lockMode = 1 → w.toNat + pnat s .lockMaxTicks ≤ now s → allDecoded { e with pieces := ps } = true →
    (bindOf s n = .vf → sumL (ps.map (·.bytes.length)) ≤ e.sent + dmaOutRoom s n) →
    ∃ s' k, exec (.lockWaitExpiry n) s = .next s' ∧ EndedWith s' (.sad n) e.tag (readOutcome s n e.girth0 ps (some k) false) ∧
      s'.sad[n].readPos = e.girth0 + ps.length ∧ s'.med = s.med ∧ s'.cfg = s.cfg)

/-- TIME and LOG (R190, R203, R498): a saddle's TIME in STREAM waits for the window; any other completes at once, in the cartridge's session
log when one is loaded and in the event log otherwise; LOG `text=` stages its NOTE when there is room and waits for its SEQ; LOG SAVE
copies every record to flash and answers with the newest, and waits while an erase runs or the effects of PWR_FAIL_N last. -/
def Obligations.TimeAndLog : Prop :=
  ∀ (s : State) (t : Nat),
    (∀ n v x, Runs s (.sad n) t (.time v x) → s.pw.mode = .stream → GoesOn (.time (.sad n) (some t) v x) s (.sad n) t (quiet s)) ∧
    (∀ v x, Runs s .adm t (.time v x) → s.cart.loaded = true → ∃ s', exec (.time .adm (some t) v x) s = .next s' ∧
      EndedWith s' .adm t { status := .ok, fields := [fnum "ptc" (now s), fld "sid" (sidStr s.clk.session), fld "where" "CM"] } ∧
      s'.cart.heldLogs.length = s.cart.heldLogs.length + 1 ∧ s'.evt = (timeEvent s srcAdm s.clk.ptc (v.getD 0) (x.getD "")).evt ∧ s'.med = s.med) ∧
    (∀ v x, Runs s .adm t (.time v x) → s.cart.loaded = false → ∃ s', exec (.time .adm (some t) v x) s = .next s' ∧
      EndedWith s' .adm t { status := .ok, fields := [fnum "ptc" (now s), fld "sid" (sidStr s.clk.session), fld "where" "EVENT"] } ∧
      s'.cart = s.cart ∧ s'.evt = (timeEvent s srcAdm s.clk.ptc (v.getD 0) (x.getD "")).evt ∧ s'.med = s.med) ∧
    (∀ ch x, Runs s ch t (.logText x) → s.evt.staging.length < 288 →
      GoesOn (.logText ch (some t) x) s ch t { quiet s with evt := { s.evt with staging := s.evt.staging ++
        [{ ptc := s.clk.ptc, session := s.clk.session, sev := .info, src := srcOf ch, code := 0x0206, body := [], text := some x,
           own := some (ch, t) }] } }) ∧
    (∀ ch x, Runs s ch t (.logText x) → 288 ≤ s.evt.staging.length → GoesOn (.logText ch (some t) x) s ch t (quiet s)) ∧
    (Runs s .adm t .logSave → pfInForce s = true ∨ s.fl.erasing.isSome = true →
      GoesOn (.logSave (some t)) s .adm t (quiet s)) ∧
    (Runs s .adm t .logSave → pfInForce s = false → s.fl.erasing = none →
      EndsAs (.logSave (some t)) s .adm t { status := .ok, fields := [fnum "seq" (saveAll s).evt.flashed] }
        { quiet s with fl := (saveAll s).fl, evt := (saveAll s).evt })

/-! ### The media engine -/

/-- DATA_SET_BOUNDARY and PLAIT_EPOCH_START (R87, R88, R94, R275, R284-R286, R296). With nothing on the lanes and writing allowed, the slot
at the cursor is served and the cursor moves on: an owned slot takes its saddle's oldest closed data set, which counts; one that its saddle
misses, as in HOLD (log 27), takes FILL with the saddle's RATIO, and the miss counts; a FILL slot takes FILL. A frame on the lanes ends: the append point lies behind it and the gates
are low. A plait that is due starts its epoch with the marker data set. -/
def Obligations.DataSetBoundary : Prop :=
  (∀ s : State, live s = true → s.med.lane = .idle → s.med.stopAfter = false → s.med.again = none → s.med.flush = false →
    mayWrite s = true → epochDue s = false → s.med.plait.marker.isSome = true →
    let p := s.med.plait
    (∀ n d l, p.slots[s.med.cursor]? = some (.owner n) → s.sad[n].st ≠ .hold → s.sad[n].closed = d :: l →
      ∃ s' w, exec .dataSetBoundary s = .next s' ∧ s'.med.lane = .frame s.med.append ∧ s'.med.cursor = (s.med.cursor + 1) % (max 1 p.slots.length) ∧
        s'.med.written = s.med.written ++ [w] ∧ w.dsn = s.med.append ∧ w.slot = s.med.cursor ∧ s'.med.gates = gatesFor (outNow s) ∧
        (d.kind = .data → w.ds = { d with used := true } ∧ s'.cart.tail = none) ∧ s'.sad[n].closed = l ∧
        s'.sad[n].cnt.slots = s.sad[n].cnt.slots + 1 ∧ s'.cfg = s.cfg ∧ s'.cart = { s.cart with tail := s'.cart.tail }) ∧
    (∀ n, p.slots[s.med.cursor]? = some (.owner n) → servable s n = false →
      ∃ s' w, exec .dataSetBoundary s = .next s' ∧ s'.med.lane = .frame s.med.append ∧ s'.med.cursor = (s.med.cursor + 1) % (max 1 p.slots.length) ∧
        s'.med.written = s.med.written ++ [w] ∧ w.ds.kind = .fill ∧ w.ds.sad = n ∧ w.ds.ratio = ratioOf s n ∧
        w.dsn = s.med.append ∧ s'.sad[n].cnt.miss = inc s.sad[n].cnt.miss ∧ s'.sad[n].closed = s.sad[n].closed ∧ s'.cfg = s.cfg ∧ s'.cart = s.cart) ∧
    (p.slots[s.med.cursor]? = some .fill →
      ∃ s' w, exec .dataSetBoundary s = .next s' ∧ s'.med.lane = .frame s.med.append ∧ s'.med.cursor = (s.med.cursor + 1) % (max 1 p.slots.length) ∧
        s'.med.written = s.med.written ++ [w] ∧ w.ds.kind = .fill ∧ w.dsn = s.med.append ∧ s'.sad = s.sad ∧
        (reclaimable s = none → s'.evt = s.evt) ∧ s'.cart = s.cart ∧ s'.cfg = s.cfg)) ∧
  (∀ (s : State) (d : Nat) (w : WDs), live s = true → s.med.lane = .frame d → writtenAt s d = some w → s.med.stopAfter = false →
    s.med.again = none → s.pw.mode ≠ .stream →
    ∃ s', exec .dataSetBoundary s = .next s' ∧ s'.med.lane = .idle ∧ s'.med.append = d + 1 ∧ s'.med.gates = Vector.replicate 4 false ∧
      s'.sad = s.sad ∧ s'.cfg = s.cfg ∧ s'.cart = s.cart) ∧
  (∀ (s : State) (p : Plait) (rest : List (Plait × W64)), live s = true → s.med.lane = .idle → s.med.stopAfter = false → s.med.again = none →
    s.med.flush = false → mayWrite s = true → takeNext s = some (p, rest) →
    ∃ s' w, exec .plaitEpochStart s = .next s' ∧ s'.med.plait = { p with marker := some s.med.append } ∧ s'.med.next = rest ∧
      s'.med.cursor = 0 ∧ s'.med.lane = .frame s.med.append ∧ s'.med.written = s.med.written ++ [w] ∧ w.ds.kind = .marker ∧
      w.dsn = s.med.append ∧ s'.cart.heldEpochs.length = s.cart.heldEpochs.length + 1 ∧ s'.cart.tail = none ∧ s'.sad = s.sad ∧ s'.cfg = s.cfg)

/-- WRAP_END, APPEND_POSITIONING and REWRITE_AREA_CLOSE (R286, R287, R303-R305, R307, R310, R386): when a data set no longer fits, the frame on
the lanes ends and the next wrap starts at the append point, with the loop's values of its band and direction from this session or the seed,
and the loop settles; the tape runs into the append point once it is confirmed, with the values it had, and otherwise writing stays stopped;
the rewrite area of the data set on the lanes closes with a Q that holds the copies of every channel, no copy on the channel that wrote its
row or on one left out, and the copies count. Out of these conditions the events change nothing. The wrap's start is the model's reading
(log 139). -/
def Obligations.WrapsAndAreas : Prop :=
  (∀ (s : State), live s = true → s.pw.mode = .stream → s.cart.loaded = true → s.med.positioned = true → s.med.wrap < 191 →
    frameFits (match s.med.lane with
      | .frame d => s.med.x + frameLen (((writtenAt s d).bind (·.q)).getD 0)
      | .idle => s.med.x) = false →
    let w := s.med.wrap + 1
    let b := bandOfWrap w
    ∃ s', exec .wrapEnd s = .next s' ∧ s'.med.wrap = w ∧ s'.med.x = 0 ∧ s'.med.lane = .idle ∧
      s'.med.append = (match s.med.lane with
        | .frame d => d + 1
        | .idle => s.med.append) ∧
      (∀ d v, s.med.lane = .frame d → writtenAt s d = some v → ∃ v', writtenAt s' d = some v' ∧ v'.trailer = true ∧ v'.ds = v.ds) ∧
      s'.med.wrapFirst = s.med.wrapFirst.take w ++ [s'.med.append] ∧ s'.med.settle = pnat s .wplSettle ∧ s'.med.delta = [] ∧
      (∀ c : ChNo, s'.med.ch[c].wpl.n = 0) ∧ (b, wrapRev w, s'.med.ofs) ∈ s'.med.savedOfs ∧
      (pbool s .wplEnable = false ∨ (∀ o, (b, wrapRev w, o) ∉ s.med.savedOfs) →
        s'.med.ofs = pint s .seedOfs b (if wrapRev w then 1 else 0)) ∧
      s'.sad = s.sad ∧ s'.cart = s.cart ∧ s'.cfg = s.cfg) ∧
  (∀ s : State, live s = true → s.pw.mode ≠ .stream ∨ s.cart.loaded = false ∨ s.med.positioned = false ∨ 191 ≤ s.med.wrap →
    exec .wrapEnd s = .next (quiet s)) ∧
  (∀ s : State, live s = true → appendWanted s = true →
    let b := bandOfWrap s.med.wrap
    let rev := wrapRev s.med.wrap
    ∃ s', exec (.appendPositioning true) s = .next s' ∧ s'.med.positioned = true ∧ s'.med.appendFail = false ∧
      s'.rd = { s.rd with reading := false } ∧ s'.med.settle = pnat s .wplSettle ∧ s'.med.wrap = s.med.wrap ∧ s'.med.append = s.med.append ∧
      (pbool s .wplEnable = true → (∃ o, (b, rev, o) ∈ s.med.savedOfs) → s'.med.ofs = s.med.ofs) ∧
      (pbool s .wplEnable = false ∨ (∀ o, (b, rev, o) ∉ s.med.savedOfs) → s'.med.ofs = pint s .seedOfs b (if rev then 1 else 0)) ∧
      (b, rev, s'.med.ofs) ∈ s'.med.savedOfs ∧ s'.med.written = s.med.written ∧ s'.sad = s.sad ∧ s'.cart = s.cart ∧ s'.cfg = s.cfg) ∧
  (∀ s : State, live s = true → appendWanted s = true →
    exec (.appendPositioning false) s = .next { quiet s with med := { s.med with appendFail := true } }) ∧
  (∀ (s : State) (c : Bool), live s = true → appendWanted s = false → exec (.appendPositioning c) s = .next (quiet s)) ∧
  (∀ (s : State) (d : Nat) (w : WDs), live s = true → s.med.lane = .frame d → writtenAt s d = some w → w.q = none →
    ∃ s' w' q, exec .rewriteAreaClose s = .next s' ∧ writtenAt s' d = some w' ∧ w'.q = some q ∧ (∀ c, copiesOn w'.area c ≤ q) ∧
      (∀ x ∈ w'.area, x.ch.val ≠ chanOfRow x.sds x.row ∧ x.ch ∉ w.outCh) ∧
      (∀ v, d ≠ 0 → writtenAt s (d - 1) = some v → ∃ v', writtenAt s' (d - 1) = some v' ∧ v'.nextArea = true ∧ v'.need = [] ∧ v'.want = []) ∧
      s'.med.qLast = q ∧ s'.med.rwr = s.med.rwr + w'.area.length ∧ s'.med.lane = s.med.lane ∧ w'.rows = w.rows ∧ w'.ds = w.ds ∧
      s'.sad = s.sad ∧ s'.cart = s.cart ∧ s'.cfg = s.cfg) ∧
  (∀ s : State, live s = true → (s.med.lane = .idle ∨ ∃ d w, s.med.lane = .frame d ∧ writtenAt s d = some w ∧ w.q.isSome = true) →
    exec .rewriteAreaClose s = .next (quiet s))

/-- ROW_VERIFY and VERIFY_WEDGE (R19, R300, R309, R311, R317, R320): within the verify detector's budget of the tick (log 129) a row read back
joins its data set's rows with its class, and a FAIL counts on its channel; a row that nothing waits for changes nothing else; a wedge with
a wrong identity inhibits writing in STREAM, counts in the run unless the cause still holds, and latches at the limit; any other gives its
offset to the loop. -/
def Obligations.Verification : Prop :=
  (∀ (s : State) (c : ChNo) (r : Nat) (o : VerifyObs) (w : WDs), live s = true → s.used.verify < budget s 256 → r < 120 →
    verifyTarget s c r = some w →
    let cls := rowClass s { dsn := w.dsn, sds := sdsOnChan c.val r, rkind := 0, row := r, sad := w.ds.sad.val, wrap := w.wrap, chan := c.val, slotpos := r } o
    ∃ s' w', exec (.rowVerify c r o) s = .next s' ∧ w' ∈ s'.med.written ∧ w'.dsn = w.dsn ∧
      w'.rows = w.rows ++ [{ sds := sdsOnChan c.val r, row := r, ch := c, cls := cls, secured := cls != .fail }] ∧
      s'.med.ch[c].failRows = (if cls == .fail then sat 16 (s.med.ch[c].failRows + 1) else s.med.ch[c].failRows) ∧
      s'.used.verify = s.used.verify + 1 ∧ s'.med.written.length = s.med.written.length ∧ s'.sad = s.sad ∧ s'.cfg = s.cfg ∧ s'.evt = s.evt) ∧
  (∀ (s : State) (c : ChNo) (r : Nat) (o : VerifyObs), live s = true → s.used.verify < budget s 256 → verifyTarget s c r = none →
    exec (.rowVerify c r o) s = .next { quiet s with used := { s.used with verify := s.used.verify + 1 } }) ∧
  (∀ (s : State) (c : ChNo) (r : Nat) (o : VerifyObs), live s = true → budget s 256 ≤ s.used.verify →
    exec (.rowVerify c r o) s = .next (quiet s)) ∧
  (∀ (s : State) (c : ChNo) (l : List Bool) (a b i : Nat), live s = true → s.pw.mode = .stream → readIdent l = some i →
    i ≠ trackIdent s.med.wrap c.val →
    let run := if (look 3 s.med.inh.holds).isSome then s.med.inh.identRun else s.med.inh.identRun + 1
    ∃ s', exec (.verifyWedge c l a b) s = .next s' ∧ s'.med.inh.inhibited = true ∧ s'.med.inh.ident = true ∧ s'.med.inh.identRun = run ∧
      s'.med.inh.latch = (s.med.inh.latch || decide (pnat s .identMax ≤ run)) ∧ s'.cfg = s.cfg ∧ s'.cart = s.cart) ∧
  (∀ (s : State) (c : ChNo) (l : List Bool) (a b : Nat), live s = true → s.pw.mode = .stream →
    (∀ i, readIdent l = some i → i = trackIdent s.med.wrap c.val) → s.med.inh.inhibited = false → (chansOut s).contains c.val = false →
    exec (.verifyWedge c l a b) s = .next { quiet s with med := { s.med with delta := s.med.delta ++ [(c,
      wedgeDelta s (if slotOfWrap s.med.wrap % 2 = 1 then b else a) (if slotOfWrap s.med.wrap % 2 = 1 then a else b))] } }) ∧
  (∀ (s : State) (c : ChNo) (l : List Bool) (a b : Nat), live s = true → s.pw.mode ≠ .stream →
    exec (.verifyWedge c l a b) s = .next (quiet s))

/-- The write inhibit (R150, R297, R299, R311, R313, R315, R318, R474): SHOCK_N in STREAM inhibits writing at once, lowers the gates and
counts; its rise ends the cause; the inhibit clears once no cause remains, and the loop settles; a stuck pin is logged once; a saddle whose
girths have waited too long meets GUARD and no other saddle changes; of a group's link, a good frame ends its run of bad ones, a bad one
counts, and from the third in a row its gate is low. -/
def Obligations.WriteInhibit : Prop :=
  (∀ s : State, live s = true → s.pw.mode = .stream → s.med.inh.inhibited = false →
    ∃ s', exec .shockNFall s = .next s' ∧ s'.med.inh.inhibited = true ∧ s'.med.inh.shockPin = true ∧ s'.med.inh.cnt = inc s.med.inh.cnt ∧
      s'.med.gates = Vector.replicate 4 false ∧ s'.sens = { s.sens with pinLow := true } ∧ s'.cfg = s.cfg ∧ s'.cart = s.cart) ∧
  (∀ s : State, live s = true → s.pw.mode ≠ .stream →
    ∃ s', exec .shockNFall s = .next s' ∧ s'.med.inh.inhibited = s.med.inh.inhibited ∧ s'.med.inh.shockPin = true ∧
      s'.sens = { s.sens with pinLow := true } ∧ s'.med.gates = s.med.gates ∧ s'.sad = s.sad) ∧
  (∀ s : State, live s = true → exec .shockNRise s = .next { quiet s with
    med := { s.med with inh := { s.med.inh with shockPin := false } }, sens := { s.sens with pinLow := false, stuckTold := false } }) ∧
  (∀ s : State, live s = true → s.med.inh.inhibited = true → s.med.inh.holds = [] → exec .inhibitClear s = .next { quiet s with
    med := { s.med with inh := { s.med.inh with inhibited := false }, settle := pnat s .wplSettle } }) ∧
  (∀ s : State, live s = true → s.sens.pinLow = true → s.sens.stuckTold = false →
    exec .shockStuck s = .next (logE { quiet s with sens := { s.sens with stuckTold := true } } .warn srcChip 0x0907)) ∧
  (∀ s : State, live s = true → ∃ s', exec .guardHoldTimeout s = .next s' ∧
    (∀ n : SadNo, s.sad[n].unsync ≠ [] → pnat s .guardHoldTicks ≤ s.sad[n].guardTicks →
      s'.sad[n] = { s.sad[n] with guardTicks := 0, defPend := if s.sad[n].defPend.contains .guard then s.sad[n].defPend else s.sad[n].defPend ++ [.guard] }) ∧
    (∀ n : SadNo, (s.sad[n].unsync = [] ∨ s.sad[n].guardTicks < pnat s .guardHoldTicks) → s'.sad[n] = s.sad[n]) ∧
    s' = { quiet s with sad := s'.sad }) ∧
  (∀ (s : State) (g : GroupNo) (f : List Byte), live s = true → pclRxOk s f = true →
    ∃ s', exec (.pclRxFrame g (some f)) s = .next s' ∧ s'.med.pclRun[g] = 0 ∧ s'.med.pclErr = s.med.pclErr ∧ s'.med.gates = s.med.gates ∧
      s'.sad = s.sad ∧ s'.evt = s.evt) ∧
  (∀ (s : State) (g : GroupNo) (f : Option (List Byte)), live s = true → (∀ l, f = some l → pclRxOk s l = false) →
    ∃ s', exec (.pclRxFrame g f) s = .next s' ∧ s'.med.pclRun[g] = s.med.pclRun[g] + 1 ∧ s'.med.pclErr[g] = sat 8 (s.med.pclErr[g] + 1) ∧
      (2 ≤ s.med.pclRun[g] → s'.med.gates[g] = false ∧ ∀ c : ChNo, c.val / 16 = g.val → s'.med.ch[c].chsRun = 2) ∧
      (s.med.pclRun[g] < 2 → s'.med.gates = s.med.gates ∧ s'.evt = s.evt) ∧ s'.cfg = s.cfg)

/-! ### Reading, servo and motion -/

/-- The read chain (R19, R323, R325-R329, R333-R341, R343, R371). A wedge read against the writing direction changes nothing. Acquisition
runs at every other; without the sync mark in the window nothing else changes; with it the channel locks, and the identity that is read tells
whether the wrap is the one expected. A leader starts its data set. A row that passes R335's checks joins the
data set with nothing erased; a row whose decoder does not converge counts as erased; outside a data set a row
that does not decode does nothing; C1 never runs more than its iterations. C3 with every
column decoded makes the data set final. A rescue pass counts, and adds the stored rows that it accepts. Past the tick's budget rows and
C3 change nothing (log 129). Read-ahead stops the tape when full and starts it again. -/
def Obligations.ReadPath : Prop :=
  (∀ (c : ChNo) (q : AcqObs) (i : List Bool) (a b : Nat) (s : State), live s = true → readsAlong s = false →
    exec (.readWedgeSync c q i a b) s = .next (quiet s)) ∧
  (∀ (c : ChNo) (q : AcqObs) (i : List Bool) (a b : Nat) (s : State), live s = true → readsAlong s = true →
    4 < (bestMatch syncBits q.sync).2 → exec (.readWedgeSync c q i a b) s = .next (modRCh (quiet s) c (acquire s q))) ∧
  (∀ (c : ChNo) (q : AcqObs) (i : List Bool) (a b : Nat) (s : State), live s = true → readsAlong s = true →
    (bestMatch syncBits q.sync).2 ≤ 4 →
    let x := acquire s q s.rd.ch[c]
    ∃ s', exec (.readWedgeSync c q i a b) s = .next s' ∧
      s'.rd.ch[c] = { x with locked := true, missRun := 0, frame := 0,
                             ident := ((readIdent i).map fun k => decide (k = trackIdent s.rd.wrap c.val)).getD x.ident } ∧
      (∀ d : ChNo, d ≠ c → s'.rd.ch[d] = s.rd.ch[d]) ∧ s'.rd.cur = s.rd.cur ∧ s'.med = s.med ∧ s'.sad = s.sad ∧ s'.cfg = s.cfg) ∧
  (∀ (c : ChNo) (p : Nat) (o : RowObs) (s : State), live s = true → readsAlong s = false ∨ budget s 256 ≤ s.used.rows →
    exec (.readRowDecode c p o) s = .next (quiet s)) ∧
  (∀ (c : ChNo) (o : RowObs) (f : LeadFacts) (s : State), live s = true → readsAlong s = true → s.used.rows < budget s 256 →
    s.rd.cur = none → f.kind < 4 → parseLeader (copyBytes o) = some f →
    ∃ s' d l, exec (.readRowDecode c 254 o) s = .next s' ∧ s'.rd.cur = some d ∧ d.dsn = f.dsn ∧ d.rows = [] ∧ d.lead = some l ∧
      l.dsn = f.dsn ∧ l.firstSeq = f.firstSeq ∧ l.nextSeq = f.nextSeq ∧ s'.rd.dsNow = some f.dsn ∧ s'.rd.reading = true ∧
      (s.rd.recon = [] ∨ s.rd.dsNow.map (· + 1) = some f.dsn →
        s'.sad = s.sad ∧ s'.evt = s.evt ∧ s'.cfg = s.cfg ∧ s'.rd.recon = s.rd.recon ∧ s'.used.rows = s.used.rows + 1)) ∧
  (∀ (c : ChNo) (p : Nat) (o : RowObs) (s : State), live s = true → readsAlong s = true → s.used.rows < budget s 256 →
    p < 254 → s.rd.cur = none → c1Ok (rowWord s c p (rowFlags s c o) o).1 = false →
    exec (.readRowDecode c p o) s = .next { quiet s with used := { s.used with rows := s.used.rows + 1 } }) ∧
  (∀ (c : ChNo) (p : Nat) (o : RowObs) (s : State) (d : RDs) (r : RRow), live s = true → readsAlong s = true →
    s.used.rows < budget s 256 → p < 254 → s.rd.cur = some d →
    d.trailer = false → s.rd.ch[c].locked = true → s.rd.ch[c].ident = true → ignored s c = false →
    (bestMatch resyncBits o.resync).2 ≤ 4 → o.phaseErr ≤ 25 → acceptRow d c p (rowWord s c p (rowFlags s c o) o).1 = some r →
    ∃ s', exec (.readRowDecode c p o) s = .next s' ∧ s'.rd.cur = some { d with seen := d.seen + 1, rows := d.rows ++ [r], sadRow := some r.sad } ∧
      s'.rd.ch[c].rows = inc s.rd.ch[c].rows ∧ s'.rd.ch[c].erased = s.rd.ch[c].erased ∧ s'.rd.ch[c].locked = true ∧
      s'.rd.ch[c].iterSum = s.rd.ch[c].iterSum + (rowWord s c p (rowFlags s c o) o).2 ∧ s'.rd.ch[c].snrQ = o.snrQ ∧
      (∀ e : ChNo, e ≠ c → s'.rd.ch[e] = s.rd.ch[e]) ∧ s'.used.rows = s.used.rows + 1 ∧ s'.med = s.med ∧ s'.sad = s.sad ∧
      s'.evt = s.evt ∧ s'.cfg = s.cfg) ∧
  (∀ (c : ChNo) (p : Nat) (o : RowObs) (s : State) (d : RDs), live s = true → readsAlong s = true → s.used.rows < budget s 256 →
    p < 254 → s.rd.cur = some d → d.trailer = false → ignored s c = false → c1Ok (rowWord s c p (rowFlags s c o) o).1 = false →
    ∃ s' d', exec (.readRowDecode c p o) s = .next s' ∧ s'.rd.cur = some d' ∧ d'.rows = d.rows ∧ d'.seen = d.seen + 1 ∧
      s'.rd.ch[c].rows = inc s.rd.ch[c].rows ∧ s'.rd.ch[c].erased = sat 16 (s.rd.ch[c].erased + 1) ∧
      (∀ e : ChNo, e ≠ c → s'.rd.ch[e] = s.rd.ch[e]) ∧ s'.med = s.med ∧ s'.sad = s.sad ∧ s'.evt = s.evt ∧ s'.cfg = s.cfg) ∧
  (∀ (s : State) (c : ChNo) (p : Nat) (l : List Bool) (o : RowObs), (rowWord s c p l o).2 ≤ pnat s .ldpcIter) ∧
  (∀ (s : State) (d : RDs), live s = true → s.rd.recon = [d] → d.c3done = false → d.c2due = false → 0 < c3Room s → d.needC3 = false →
    anyUndec d = false →
    ∃ s', exec .c3Decode s = .next s' ∧ s'.rd.recon = [] ∧ s'.rd.lastDs = max s.rd.lastDs d.dsn ∧ s'.rd.cur = s.rd.cur ∧
      s'.rd.c3n = s.rd.c3n ∧ s'.used.c3 = s.used.c3 + 1 ∧ s'.sad = s.sad ∧ s'.cfg = s.cfg) ∧
  (∀ s : State, live s = true → c3Room s = 0 → exec .c3Decode s = .next (quiet s)) ∧
  (∀ (obs : List RescueObs) (s : State) (d : RDs), live s = true → s.rd.recon = [d] → d.c3done = true → d.waits = false → 0 < c3Room s →
    anyUndec d = true →
    ∃ s', exec (.rescuePass obs) s = .next s' ∧ s'.rd.rescue = inc s.rd.rescue ∧ s'.rd.cur = s.rd.cur ∧ s'.used.c3 = s.used.c3 + 1 ∧
      (∀ c : ChNo, (∀ x ∈ rescueRows s d obs, x.1.ch ≠ c) → s'.rd.ch[c] = s.rd.ch[c]) ∧
      (∀ d' ∈ s'.rd.recon, d'.passes = d.passes + 1 ∧ d'.rows = d.rows ++ (rescueRows s d obs).map (·.2)) ∧
      s'.sad = s.sad ∧ s'.cfg = s.cfg) ∧
  (∀ (obs : List RescueObs) (s : State), live s = true → c3Room s = 0 → exec (.rescuePass obs) s = .next (quiet s)) ∧
  (∀ s : State, live s = true → s.rd.reading = true → (∀ n ∈ readers s, pnat s .aheadDs ≤ aheadOf s n) →
    exec .readaheadFull s = .next { quiet s with rd := { s.rd with reading := false, stopped := true } }) ∧
  (∀ (s : State) (n : SadNo), live s = true → s.rd.reading = false → s.rd.stopped = true → s.srv.lost = false → s.pw.mode = .stream →
    s.cart.loaded = true → n ∈ readers s → aheadOf s n ≤ (pnat s .aheadDs + 1) / 2 →
    exec .readaheadResume s = .next { quiet s with rd := { s.rd with reading := true, stopped := false } })

/-- Servo decoding and loss (R352, R353, R358, R360). A frame time in which no reader gives a valid sample counts against both bands and
exceeds the PES limit; a valid one counts for its band and adds its PES and speed to the tick's. A band is lost after
`servo.lost_frames` and regained after `servo.regain_frames`; with both lost, reading goes over to wedge mode or stops; in wedge mode the
tape stops after four data sets without a wedge. -/
def Obligations.ServoDecoding : Prop :=
  (∀ (l : List (Fin 4 × StripeTimes)) (s : State), live s = true → (∀ x ∈ l, readFrame x.2 = none) →
    ∃ s', exec (.servoFrame l) s = .next s' ∧ (∀ k : Fin 2, s'.srv.miss[k] = s.srv.miss[k] + 1 ∧ s'.srv.good[k] = 0) ∧
      s'.med.inh.pes = true ∧ s'.srv.pesN = s.srv.pesN ∧ s'.srv.pesSum = s.srv.pesSum ∧ s'.srv.speedN = s.srv.speedN ∧
      s'.rd = s.rd ∧ s'.cfg = s.cfg ∧ s'.cart = s.cart) ∧
  (∀ (r : Fin 4) (t : StripeTimes) (y : Int) (b : Bool) (v : Nat) (s : State), live s = true → readFrame t = some (y, b, v) →
    let k : Fin 2 := if readerHi r then 1 else 0
    ∃ s', exec (.servoFrame [(r, t)]) s = .next s' ∧ s'.srv.miss[k] = 0 ∧ s'.srv.good[k] = s.srv.good[k] + 1 ∧
      s'.srv.miss[1 - k] = s.srv.miss[1 - k] + 1 ∧ s'.srv.good[1 - k] = 0 ∧ s'.srv.pesN = s.srv.pesN + 1 ∧
      s'.srv.pesSum = s.srv.pesSum + ((y : Rat) - yTarget s).floor ∧ s'.srv.speedN = s.srv.speedN + 1 ∧
      s'.srv.speedSum = s.srv.speedSum + v ∧ s'.rd = s.rd ∧ s'.cfg = s.cfg ∧ s'.cart = s.cart) ∧
  (∀ (hi : Bool) (s : State), live s = true →
    let k : Fin 2 := if hi then 1 else 0
    s.srv.gone[k] = false → pnat s .lostFrames ≤ s.srv.miss[k] →
    ∃ s', exec (.servoBandLost hi) s = .next s' ∧ s'.srv.gone[k] = true ∧ s'.srv.gone[1 - k] = s.srv.gone[1 - k] ∧
      s'.srv.prev[k] = none ∧ (hi = true → s'.srv.bandHi = false ∧ s'.srv.bandLo = s.srv.bandLo) ∧
      (hi = false → s'.srv.bandLo = false ∧ s'.srv.bandHi = s.srv.bandHi) ∧
      (s.srv.gone[1 - k] = false → s'.srv.wedgeMode = s.srv.wedgeMode ∧ s'.rd = s.rd ∧ s'.med = s.med ∧ s'.evt = s.evt) ∧
      (s.srv.gone[1 - k] = true → s.rd.reading = true → s.srv.wedgeMode = false →
        (pnat s .wedgeMode = 1 → s'.srv.wedgeMode = true ∧ s'.rd.wedge = true ∧ s'.med.inh.pes = true ∧ s'.rd.reading = true) ∧
        (pnat s .wedgeMode ≠ 1 → s'.srv.wedgeMode = false ∧ s'.rd.reading = false ∧ s'.med = s.med)) ∧ s'.cfg = s.cfg) ∧
  (∀ (hi : Bool) (s : State), live s = true →
    let k : Fin 2 := if hi then 1 else 0
    (if hi then s.srv.bandHi else s.srv.bandLo) = false → pnat s .regainFrames ≤ s.srv.good[k] →
    exec (.servoBandRegained hi) s = .next { quiet s with
      srv := { s.srv with bandLo := s.srv.bandLo || !hi, bandHi := s.srv.bandHi || hi, gone := s.srv.gone.set k false, wedgeMode := false }
      rd := { s.rd with wedge := false } }) ∧
  (∀ s : State, live s = true → s.srv.wedgeMode = true → 4 * bitsNm3 (frameLen 0) ≤ s.rd.noWedge →
    exec .wedgePositionLost s = .next { quiet s with srv := { s.srv with lost := true }, rd := { s.rd with reading := false, stopped := true } })

/-- The motor drive link (R381) and the backhitch (R372-R374). A frame that is missing or fails its checks counts, and the third in a row
asks for HALT with cause MOTION; a valid frame ends the run and brings the encoders and currents. A backhitch starts with a FILL data set
after `rein.dwell` ticks at the lower limit when a FILL would be written next; its wait ends when something wants the tape or its time is
over, and the tape runs up. -/
def Obligations.MotionLinkAndBackhitch : Prop :=
  (∀ (f : Option (List Byte)) (s : State), live s = true → s.pw.dom.motion ≠ .off → (∀ l, f = some l → mdlRxOk s l = false) →
    let srv := { s.srv with mdlErr := sat 16 (s.srv.mdlErr + 1), mdlRun := s.srv.mdlRun + 1 }
    exec (.mdlRxFrame f) s = .next (if s.srv.mdlRun < 2 then { quiet s with srv := srv } else haltRequest { quiet s with srv := srv } .motion)) ∧
  (∀ (l : List Byte) (s : State), live s = true → s.pw.dom.motion ≠ .off → mdlRxOk s l = true →
    ∃ s', exec (.mdlRxFrame (some l)) s = .next s' ∧ s'.srv.mdlRun = 0 ∧ s'.srv.mdlErr = s.srv.mdlErr ∧ s'.srv.encS = beField l 4 4 ∧
      s'.srv.encT = beField l 8 4 ∧ s'.srv.iS = signed 16 (beField l 14 2) ∧ s'.srv.iT = signed 16 (beField l 16 2) ∧
      (beField l 3 1 < 128 → s'.srv.mdlFaults = 0 ∧ s'.pw = s.pw) ∧
      (128 ≤ beField l 3 1 → 1 ≤ s.srv.mdlFaults → s'.pw.haltPend = some (s.pw.haltPend.getD .motion)) ∧
      s'.rein = s.rein ∧ s'.med = s.med ∧ s'.rd = s.rd ∧ s'.sad = s.sad ∧ s'.cart = s.cart ∧ s'.cfg = s.cfg) ∧
  (∀ (f : Option (List Byte)) (s : State), live s = true → s.pw.dom.motion = .off → exec (.mdlRxFrame f) s = .next (quiet s)) ∧
  (∀ s : State, live s = true → s.pw.mode = .stream → s.med.positioned = true → s.rein.bh = .none → pnat s .lowPolicy = 1 →
    s.med.flush = false → s.med.stopAfter = false → pnat s .reinDwell ≤ s.rein.lowTicks → fillNext s = true →
    exec .backhitchStart s = .next { quiet s with
      rein := { s.rein with bh := .fill, bhCnt := inc s.rein.bhCnt, lowTicks := 0 }
      med := { s.med with stopAfter := true, fillOwed := true } }) ∧
  (∀ s : State, live s = true → s.rein.bh = .wait → s.rein.bhAt.toNat ≤ now s →
    (bhWanted s = true ∨ s.rein.bhAt.toNat + pnat s .bhMaxTicks ≤ now s) →
    exec .backhitchResume s = .next { quiet s with
      rein := { s.rein with bh := .runUp, bhAt := BitVec.ofNat 64 (now s + ticksOf s (bhTimes s).2) } })

/-! ### Pool and flash -/

/-- The leak audit (R228, R229), flash work (R393-R399, R403, R408) and the trial of firmware (R418-R420). A walk leaves every owner's
tally and oldest age; a tally that differs from the live count sets LEAK. An erase that ends takes its END into the journal, one that fails
counts and is logged; a read suspends an erase that has run long enough and otherwise waits for it; a descriptor is refused for alignment or protection, or reads the die into the buffer DRAM; an access from
outside the ROM only logs. Each MARK takes its entry, and a trial image that may confirm itself does so. -/
def Obligations.PoolAndFlashWork : Prop :=
  (∀ (tally : List (Fin 12 × Nat)) (s : State), live s = true → s.pool.audRun = true →
    ∃ s', exec (.poolAuditWalkEnd tally) s = .next s' ∧
      (∀ o : Fin 12, s'.pool.aud[o] = ((look o tally).getD (heldBy s o), sat 32 (oldestAge s o))) ∧
      s'.pool.leak = (s.pool.leak || owners.any fun o => decide ((look o tally).getD (heldBy s o) ≠ heldBy s o)) ∧
      s'.pool.audDone = true ∧ s'.pool.audRun = s.pool.audCont ∧ s'.pool.caddies = s.pool.caddies ∧ s'.cfg = s.cfg ∧ s'.med = s.med) ∧
  (∀ (k addr : Nat) (s : State), live s = true → s.fl.erasing = some k → flashCommand s = none → s.fl.todo = [] →
    s.fl.journal.entries.length < 509 → k ≠ 0x46 → k ≠ 0x47 →
    exec (.flashOpComplete .erase true addr) s = .next { quiet s with fl := { s.fl with
      erasing := none, suspended := false, erases := inc s.fl.erases
      journal := { s.fl.journal with entries := s.fl.journal.entries ++ [{ type := 0x02, arg := 0, value := k }] } } }) ∧
  (∀ (k addr : Nat) (s : State), live s = true → s.fl.erasing = some k → flashCommand s = none → s.fl.todo = [] →
    ∃ s', exec (.flashOpComplete .erase false addr) s = .next s' ∧ s'.fl = { s.fl with
        erasing := none, suspended := false, erases := inc s.fl.erases, fails := inc s.fl.fails } ∧
      s'.evt = (logE s .error srcChip 0x0801 [("addr", 4, addr), ("op", 1, 0)]).evt ∧ s'.adm = s.adm ∧ s'.cfg = s.cfg ∧ s'.sad = s.sad) ∧
  (∀ s : State, live s = true → s.fl.erasing.isSome = true → s.fl.suspended = false →
    exec .flashReadSuspend s = .next { quiet s with
      fl := if maySuspend s then { s.fl with suspended := true } else { s.fl with readWaits := true } }) ∧
  (∀ s : State, live s = true → s.fl.erasing = none ∨ s.fl.suspended = true → exec .flashReadSuspend s = .next (quiet s)) ∧
  (∀ (i : Fin 16) (d : Desc) (s : State), live s = true → s.fl.queueOpen = true → firstPending s = some i.val →
    s.fl.queue[i.val]? = some d → flashCommand s = none → (descMisaligned d = true ∨ descProtected s d = true) →
    exec (.flashDescriptor i none) s = (if (d.op = 1 ∨ d.op = 2) ∧ descMisaligned d = false ∧ dramSize s < d.daddr + d.len
      then .fault (.dramHole d.daddr)
      else .next { quiet s with fl := { s.fl with
        queue := s.fl.queue.set i.val { d with status := if descMisaligned d then 2 else 1, erraddr := d.faddr } } })) ∧
  (∀ (i : Fin 16) (d : Desc) (s : State), live s = true → s.fl.queueOpen = true → firstPending s = some i.val →
    s.fl.queue[i.val]? = some d → flashCommand s = none → d.op = 1 → descMisaligned d = false → descProtected s d = false →
    d.daddr + d.len ≤ dramSize s →
    ∃ s', exec (.flashDescriptor i none) s = .next s' ∧ s'.fl = { s.fl with queue := s.fl.queue.set i.val { d with status := 0, erraddr := 0 } } ∧
      s'.dram = (dramWrite s d.daddr ((List.range d.len).map fun j => flashByte s (d.faddr + j))).dram ∧ s'.cfg = s.cfg ∧ s'.sad = s.sad) ∧
  (∀ (addr : Nat) (s : State), live s = true →
    exec (.flashAccess true addr) s = .next (quiet s) ∧
    exec (.flashAccess false addr) s = .next (logE (quiet s) .error srcChip 0x0802 [("addr", 4, addr)])) ∧
  (∀ s : State, live s = true → s.fw.trial = true → s.fw.expired = false → s.fw.marks < 9 → s.fl.boot.entries.length < 511 →
    exec .trialMark s = .next { quiet s with fw := { s.fw with marks := s.fw.marks + 1 }, fl := { s.fl with
      boot := { s.fl.boot with entries := s.fl.boot.entries ++ [{ type := 0x12, arg := s.fw.marks + 1, value := 0 }] } } }) ∧
  (∀ s : State, live s = true → s.fw.trial = true → s.fw.expired = false → s.fw.marks = 9 →
    ∃ s', exec .trialMark s = .next s' ∧ s'.fw.expired = true ∧ s'.fw.marks = 10 ∧ s'.cfg = s.cfg ∧ s'.sad = s.sad) ∧
  (∀ s : State, live s = true → mayConfirm s = true → s.fl.boot.entries.length < 511 →
    let slot := (runningSlot s).getD .a
    ∃ s', exec .fwConfirm s = .next s' ∧ s'.fw.trial = false ∧ s'.fw.confirmed = true ∧
      s'.fl.boot.entries = s.fl.boot.entries ++ [{ type := 0x13, arg := slotNo slot, value := imgVersion (imageOf s slot) (slotNo slot) }] ∧
      s'.cfg = s.cfg ∧ s'.sad = s.sad ∧ s'.adm = s.adm)

/-! ### The host's side -/

/-- The rings (R432, R436-R440). A doorbell before DEV_READY is kept, one on a function that ignores it is counted, and any other acts on
its ring's indices: a valid one that lies further ahead than the seen index replaces it, any other valid one changes nothing, and an invalid
one sets BADIDX and latches ATTENTION. A slot that may be fetched joins the lines that wait; one with a wrong SEQ, or whose fetch fails, is fetched once more from the next tick
on, and is answered when it fails again; a failed fetch counts in DMA_STAT. -/
def Obligations.Rings : Prop :=
  (∀ (f : FnNo) (v : W32) (s : State), live s = true → s.pw.devReady = false →
    let e := s.pcie.fn[f].early.getD (none, none)
    exec (.cmdDb f v) s = .next (modFn (quiet s) f fun x => { x with early := some (some (v.toNat % 65536), e.2) }) ∧
    exec (.rplDb f v) s = .next (modFn (quiet s) f fun x => { x with early := some (e.1, some (v.toNat % 65536)) })) ∧
  (∀ (f : FnNo) (v : W32) (s : State), live s = true → s.pw.devReady = true → bellIgnored s f = true →
    exec (.cmdDb f v) s = .next (modFn (quiet s) f fun x => { x with dbIgn := inc x.dbIgn }) ∧
    exec (.rplDb f v) s = .next (modFn (quiet s) f fun x => { x with dbIgn := inc x.dbIgn })) ∧
  (∀ (f : FnNo) (v : W32) (s : State), live s = true → s.pw.devReady = true → bellIgnored s f = false →
    let p := v.toNat % 65536
    let x := s.pcie.fn[f]
    ((p + 65536 - x.cmdCons) % 65536 ≤ 64 → (x.pSeen + 65536 - x.cmdCons) % 65536 < (p + 65536 - x.cmdCons) % 65536 →
      exec (.cmdDb f v) s = .next (modFn (quiet s) f fun x => { x with pSeen := p, dbCnt := inc x.dbCnt })) ∧
    ((p + 65536 - x.cmdCons) % 65536 ≤ (x.pSeen + 65536 - x.cmdCons) % 65536 → (p + 65536 - x.cmdCons) % 65536 ≤ 64 →
      exec (.cmdDb f v) s = .next (quiet s)) ∧
    (64 < (p + 65536 - x.cmdCons) % 65536 →
      exec (.cmdDb f v) s = .next (latchFn (modFn (quiet s) f fun x => { x with badIdx := true }) f)) ∧
    ((x.rplProd + 65536 - p) % 65536 ≤ 64 → (x.rplProd + 65536 - p) % 65536 < (x.rplProd + 65536 - x.cSeen) % 65536 →
      exec (.rplDb f v) s = .next (modFn (quiet s) f fun x => { x with cSeen := p, dbCnt := inc x.dbCnt })) ∧
    ((x.rplProd + 65536 - x.cSeen) % 65536 ≤ (x.rplProd + 65536 - p) % 65536 → (x.rplProd + 65536 - p) % 65536 ≤ 64 →
      exec (.rplDb f v) s = .next (quiet s)) ∧
    (64 < (x.rplProd + 65536 - p) % 65536 →
      exec (.rplDb f v) s = .next (latchFn (modFn (quiet s) f fun x => { x with badIdx := true }) f))) ∧
  (∀ (f : FnNo) (b : List Byte) (s : State), live s = true → fetchable s f = true → leVal (slice b 2 2) = s.pcie.fn[f].fetched →
    ∃ s', exec (.cmdSlotFetch f (.ok b)) s = .next s' ∧
      look (transOfFn f) s'.fil.waiting = some ((look (transOfFn f) s.fil.waiting).getD [] ++ [{
        bytes := slice b 8 (min (leVal (slice b 0 2)) 248), long := decide (200 < leVal (slice b 0 2)), slot := some (s.pcie.fn[f].fetched % 64) }]) ∧
      s'.pcie.fn[f] = { s.pcie.fn[f] with fetched := (s.pcie.fn[f].fetched + 1) % 65536, retry := false } ∧
      (∀ g : FnNo, g ≠ f → s'.pcie.fn[g] = s.pcie.fn[g]) ∧ s'.sad = s.sad ∧ s'.adm = s.adm ∧ s'.cfg = s.cfg) ∧
  (∀ (f : FnNo) (b : List Byte) (s : State), live s = true → fetchable s f = true → leVal (slice b 2 2) ≠ s.pcie.fn[f].fetched →
    (s.pcie.fn[f].retry = false →
      exec (.cmdSlotFetch f (.ok b)) s = .next (modFn (quiet s) f fun x => { x with retry := true, retryAt := now s + 1, seqErr := true })) ∧
    (s.pcie.fn[f].retry = true →
      ∃ s', exec (.cmdSlotFetch f (.ok b)) s = .next s' ∧
        look (transOfFn f) s'.fil.waiting = some ((look (transOfFn f) s.fil.waiting).getD [] ++ [{
          bytes := [], slot := some (s.pcie.fn[f].fetched % 64)
          rej := some (failWhy .badline "syntax" [fnum "slot" (s.pcie.fn[f].fetched % 64)]) }]) ∧
        s'.pcie.fn[f] = { s.pcie.fn[f] with fetched := (s.pcie.fn[f].fetched + 1) % 65536, retry := false } ∧ s'.sad = s.sad ∧ s'.cfg = s.cfg)) ∧
  (∀ (f : FnNo) (x : DmaErr) (s : State), live s = true → fetchable s f = true →
    let t := countDma (quiet s) f 0 x (s.pcie.fn[f].cmdBase.toNat + 256 * (s.pcie.fn[f].fetched % 64))
    (s.pcie.fn[f].retry = false →
      exec (.cmdSlotFetch f (.err x)) s = .next (modFn t f fun x => { x with retry := true, retryAt := now s + 1, seqErr := true })) ∧
    (s.pcie.fn[f].retry = true →
      ∃ s', exec (.cmdSlotFetch f (.err x)) s = .next s' ∧
        look (transOfFn f) s'.fil.waiting = some ((look (transOfFn f) s.fil.waiting).getD [] ++ [{
          bytes := [], slot := some (s.pcie.fn[f].fetched % 64)
          rej := some (failWhy .fault "internal" [fld "dma" (DmaErr.name x), fnum "slot" (s.pcie.fn[f].fetched % 64)]) }]) ∧
        s'.pcie.fn[f] = { t.pcie.fn[f] with fetched := (s.pcie.fn[f].fetched + 1) % 65536, retry := false } ∧ s'.sad = s.sad ∧ s'.cfg = s.cfg)) ∧
  (∀ (f : FnNo) (r : Res DmaErr (List Byte)) (s : State), live s = true → fetchable s f = false →
    exec (.cmdSlotFetch f r) s = .next (quiet s))

/-- Register writes and vectors (R79, R80, R429, R430, R435, R446, R447). RING_CTL and the coalescing registers act from the next boundary; a
1 written to a cause register clears that cause and no other; a write to a saddle block that the function's window does not show does
nothing; the ring bases are fixed while the rings are enabled; REGISTER_WRITE at a register's offset is a write of that register, and a write
of a wrong size or alignment is dropped and logged. A read across an 8 B boundary is a Completer Abort. Unmasking a vector posts the
message that was pending. -/
def Obligations.RegisterWrites : Prop :=
  (∀ (f : FnNo) (v : W32) (s : State), live s = true →
    exec (.ringCtlWrite f v) s = .next (modFn (quiet s) f fun x => { x with enPend := some (decide (v.toNat % 2 = 1)) })) ∧
  (∀ (f : FnNo) (n : SadNo) (v : W32) (s : State), live s = true → (f = 0 ∨ f = vfOf n) →
    (∃ s', exec (.irqCauseWrite f n v) s = .next s' ∧ s' = { quiet s with sad := s'.sad } ∧
      (∀ k, k < 4 → (k ∈ s'.sad[n].irq.cause ↔ k ∈ s.sad[n].irq.cause ∧ v.toNat.testBit k = false)) ∧
      s'.sad[n] = { s.sad[n] with irq := { s.sad[n].irq with cause := s'.sad[n].irq.cause } } ∧ ∀ m : SadNo, m ≠ n → s'.sad[m] = s.sad[m]) ∧
    exec (.irqCoalWrite f n v) s = .next (modSad (quiet s) n fun x => { x with irq := { x.irq with
      pendTicks := some (v.toNat % 64 + 1, v.toNat / 256 % 32 + 1) } })) ∧
  (∀ (f : FnNo) (n : SadNo) (v : W32) (s : State), live s = true → f ≠ 0 → f ≠ vfOf n →
    exec (.irqCauseWrite f n v) s = .next (quiet s) ∧ exec (.irqCoalWrite f n v) s = .next (quiet s)) ∧
  (∀ (v : W32) (s : State), live s = true →
    (∃ s', exec (.pfIrqCauseWrite v) s = .next s' ∧
      s' = { quiet s with pcie := { s.pcie with irq := { s.pcie.irq with cause := s'.pcie.irq.cause } } } ∧
      ∀ k, k < 5 → (k ∈ s'.pcie.irq.cause ↔ k ∈ s.pcie.irq.cause ∧ v.toNat.testBit k = false)) ∧
    exec (.pfIrqCoalWrite v) s = .next { quiet s with pcie := { s.pcie with irq := { s.pcie.irq with
      pendTicks := some (v.toNat % 64 + 1, v.toNat / 256 % 32 + 1) } } }) ∧
  (∀ (f : FnNo) (v : W64) (s : State), live s = true →
    exec (.registerWrite f 0x844 4 v) s = .next (modFn (quiet s) f fun x => { x with scratch := v.setWidth 32 }) ∧
    exec (.registerWrite f 0x818 4 v) s = exec (.ringCtlWrite f (v.setWidth 32)) s ∧
    (s.pcie.fn[f].en = true → exec (.registerWrite f 0x800 8 v) s = .next (quiet s)) ∧
    (s.pcie.fn[f].en = false → exec (.registerWrite f 0x800 8 v) s = .next (modFn (quiet s) f fun x => { x with
      cmdBase := BitVec.ofNat 64 (v.toNat - v.toNat % 4096) }))) ∧
  (∀ (n : SadNo) (v : W64) (s : State),
    exec (.registerWrite (vfOf n) 0x208 4 v) s = exec (.irqCauseWrite (vfOf n) n (v.setWidth 32)) s ∧
    exec (.registerWrite (vfOf n) 0x20C 4 v) s = exec (.irqCoalWrite (vfOf n) n (v.setWidth 32)) s ∧
    exec (.registerWrite 0 0x898 4 v) s = exec (.pfIrqCauseWrite (v.setWidth 32)) s ∧
    exec (.registerWrite 0 0x89C 4 v) s = exec (.pfIrqCoalWrite (v.setWidth 32)) s) ∧
  (∀ (f : FnNo) (off len : Nat) (v : W64) (s : State), live s = true → ¬ (len = 4 ∧ off % 4 = 0) →
    ¬ (len = 8 ∧ (off = 0x800 ∨ off = 0x808 ∨ off = 0x810)) →
    exec (.registerWrite f off len v) s = .next (logE (quiet s) .warn srcChip 0x0901 [("fn", 1, f.val), ("off", 2, off % 65536)])) ∧
  (∀ (f : FnNo) (off len : Nat) (s : State), live s = true → (8 < len ∨ off / 8 ≠ (off + len - 1) / 8) →
    exec (.barBadRead f off len) s = .next { quiet s with out := { abort := true } }) ∧
  (∀ (f : FnNo) (vec : Fin 16) (s : State), live s = true → vec.val < (if f = 0 then 16 else 4) →
    ∃ s', exec (.msixUnmask f vec) s = .next s' ∧ s'.pcie.fn[f].masked[vec] = false ∧ s'.pcie.fn[f].pba[vec] = false ∧
      s'.out.msix = (if s.pcie.fn[f].pba[vec] then [(f, vec.val)] else []) ∧
      (∀ w : Fin 16, w ≠ vec → s'.pcie.fn[f].masked[w] = s.pcie.fn[f].masked[w] ∧ s'.pcie.fn[f].pba[w] = s.pcie.fn[f].pba[w]) ∧
      (∀ g : FnNo, g ≠ f → s'.pcie.fn[g] = s.pcie.fn[g]) ∧ s'.sad = s.sad ∧ s'.cfg = s.cfg)

/-- Reads that change the machine (R431 and the notes of the registers in file 15). A register that clears when it is read gives its value
before the read, and exactly the bits that the spec names clear. A read of a low half latches the high half for that function, the next read
of the high half gives what was latched, and one with nothing latched gives the live half and sets STALE. -/
def Obligations.ReadsThatClear : Prop :=
  ∀ s : State, live s = true →
    let gives (v : Nat) : State := { quiet s with out := { rdata := some (BitVec.ofNat 64 v) } }
    exec .tickStatRead s = .next { gives (tickStat (quiet s)) with tk := { s.tk with range := false } } ∧
    exec .pwrStatRead s = .next { gives (pwrStat (quiet s)) with
      pw := { s.pw with pf := { s.pw.pf with flushDone := false, pfRecord := false } } } ∧
    exec .conStatRead s = .next { gives (conStat (quiet s)) with fil := { s.fil with conBreak := false, conRestored := false } } ∧
    (∀ n : SadNo, exec (.codeStatRead n) s = .next (modSad (gives (codeStat s.sad[n])) n fun x => { x with maxK := 0 })) ∧
    exec .poolStatRead s = .next { gives (poolStat (quiet s)) with pool := { s.pool with audDone := false, leak := false } } ∧
    (∀ f : FnNo, exec (.ringStatRead f) s = .next (modFn (gives (ringStat s.pcie.fn[f])) f fun x =>
      { x with badIdx := false, enBusy := false, seqErr := false })) ∧
    (∀ f : FnNo, exec (.halfStatRead f) s = .next (modFn (gives (halfStat s.pcie.fn[f])) f fun x => { x with stale := false })) ∧
    exec .spStatRead s = .next (modPort (gives (spStat (quiet s) (portNo s.pcie.spSel))) (portNo s.pcie.spSel) fun x =>
      { x with underrun := false, overrun := false }) ∧
    exec .shockMgRead s = .next { gives (shockMg (quiet s)) with sens := { s.sens with peak := 0 } } ∧
    exec .evtStatRead s = .next { gives (evtStat (quiet s)) with evt := { s.evt with drop := false } } ∧
    exec .flashStatRead s = .next { gives (flashStat (quiet s)) with fl := { s.fl with reerased := false } } ∧
    (∀ (f : FnNo) (off v : Nat), pairAt (quiet s) f off = some v →
      exec (.loHalfRead f off) s = .next (modFn (gives (regRead (quiet s) f off)) f fun x =>
        { x with latch := put (off + 4) (BitVec.ofNat 32 (halfOf v true)) x.latch })) ∧
    (∀ (f : FnNo) (off : Nat) (v : W32), (pairAt (quiet s) f off).isSome = true → look (off + 4) s.pcie.fn[f].latch = some v →
      exec (.hiHalfRead f (off + 4)) s = .next (modFn (gives v.toNat) f fun x =>
        { x with latch := x.latch.filter (·.1 ≠ off + 4) })) ∧
    (∀ (f : FnNo) (off : Nat), (pairAt (quiet s) f off).isSome = true → look (off + 4) s.pcie.fn[f].latch = none →
      exec (.hiHalfRead f (off + 4)) s = .next (modFn (gives (regRead (quiet s) f (off + 4))) f fun x =>
        { x with stale := true, halfOff := off + 4 }))

/-- Resets and errors of the link (R95, R444, R445, R448, R450). A VF's FLR resets its ring block, and asks for a reset of a saddle bound to
it; a PF reset resets every ring block, removes the VFs and takes the admin channel into its reset; disabling VFs resets those it removes
and no other; link-up ends the admin channel's reset; an error counts as its kind. Bytes that a DMA brings for a WRITE join its data within
the tick's budget (log 129), and wait for the engine past it; a failed one counts in DMA_STAT. -/
def Obligations.LinkEvents : Prop :=
  (∀ (n : SadNo) (s : State), live s = true →
    ∃ s', exec (.vfFlr n) s = .next s' ∧ s'.pcie.fn[vfOf n] = {} ∧ (∀ f : FnNo, f ≠ vfOf n → s'.pcie.fn[f] = s.pcie.fn[f]) ∧
      s'.pcie.vfFlrs = sat 16 (s.pcie.vfFlrs + 1) ∧ (∀ m : SadNo, m ≠ n → s'.sad[m] = s.sad[m]) ∧
      (bindOf s n = .vf → s'.sad[n].resetReq = true ∧ s'.sad[n].irq.cause = []) ∧
      (bindOf s n = .console → s'.sad[n] = s.sad[n]) ∧ s'.adm = s.adm ∧ s'.cfg = s.cfg) ∧
  (∀ (k : PfResetKind) (s : State), live s = true →
    ∃ s', exec (.pfReset k) s = .next s' ∧ (∀ f : FnNo, s'.pcie.fn[f] = {}) ∧ s'.pcie.numVfs = 0 ∧ s'.pcie.vfEn = false ∧
      s'.pcie.pfResets = sat 16 (s.pcie.pfResets + 1) ∧ s'.pcie.admReset = true ∧ s'.pcie.irq.cause = [] ∧
      (k = .flr → s'.pcie.up = s.pcie.up) ∧ (k ≠ .flr → s'.pcie.up = false) ∧
      s'.pcie.linkDown = (if k = .dlDown then inc s.pcie.linkDown else s.pcie.linkDown) ∧
      (∀ n : SadNo, bindOf s n = .vf → s'.sad[n].resetReq = true) ∧ (∀ n : SadNo, bindOf s n ≠ .vf → s'.sad[n] = { s.sad[n] with
        posLost := s'.sad[n].posLost, resetReq := s'.sad[n].resetReq }) ∧
      s'.cfg = s.cfg ∧ s'.fl = s.fl) ∧
  (∀ (en : Bool) (k : Nat) (s : State), live s = true →
    ∃ s', exec (.vfEnableChange en k) s = .next s' ∧ s'.pcie.vfEn = en ∧ s'.pcie.numVfs = min 8 k ∧
      (∀ n : SadNo, (s.pcie.vfEn = true ∧ n.val < s.pcie.numVfs) → (en = false ∨ k ≤ n.val) → s'.pcie.fn[vfOf n] = {} ∧
        (bindOf s n = .vf → s'.sad[n].resetReq = true)) ∧
      (∀ n : SadNo, (s.pcie.vfEn = false ∨ s.pcie.numVfs ≤ n.val ∨ (en = true ∧ n.val < k)) →
        s'.pcie.fn[vfOf n] = s.pcie.fn[vfOf n] ∧ s'.sad[n] = s.sad[n]) ∧ s'.pcie.fn[(0 : FnNo)] = s.pcie.fn[(0 : FnNo)] ∧ s'.adm = s.adm ∧ s'.cfg = s.cfg) ∧
  (∀ (sp w : Nat) (s : State), live s = true → exec (.pcieLinkUp sp w) s = .next { quiet s with
    pcie := { s.pcie with up := true, l1 := false, speed := sp % 16, width := w % 16, admReset := false } }) ∧
  (∀ (e : AerErr) (s : State), live s = true → exec (.tlpError e) s = .next { quiet s with pcie :=
    (if AerErr.correctable e then { s.pcie with aerCor := inc s.pcie.aerCor } else { s.pcie with aerUnc := inc s.pcie.aerUnc }) }) ∧
  (∀ (n : SadNo) (b : List Byte) (e : Entry) (a : WriteArgs) (s : State), live s = true → bindOf s n = .vf → writeWanted s n = some e →
    e.verb = .write a → b.length ≤ a.len - e.data.length → b.length ≤ dmaInRoom s n → roomFor s n (blockOf s n) b.length = true → entryOf s (.sad n) e.tag = some e →
    ∃ s' e', exec (.dmaComplete (vfOf n) .writeData (.ok b)) s = .next s' ∧ entryOf s' (.sad n) e.tag = some e' ∧ e'.data = e.data ++ b ∧
      e'.got = e.got + b.length ∧ s'.used.dmaIn = s.used.dmaIn + b.length ∧ OthersKept s s' (.sad n) e.tag ∧ s'.pcie = s.pcie ∧ s'.cfg = s.cfg ∧ s'.med = s.med) ∧
  (∀ (n : SadNo) (b : List Byte) (e : Entry) (a : WriteArgs) (s : State), live s = true → bindOf s n = .vf → writeWanted s n = some e →
    e.verb = .write a → 0 < b.length → dmaInRoom s n = 0 → entryOf s (.sad n) e.tag = some e →
    ∃ s', exec (.dmaComplete (vfOf n) .writeData (.ok b)) s = .next s' ∧ entryOf s' (.sad n) e.tag = some { e with why := .engine } ∧
      s'.used = s.used ∧ OthersKept s s' (.sad n) e.tag ∧ s'.pcie = s.pcie ∧ s'.cfg = s.cfg) ∧
  (∀ (n : SadNo) (x : DmaErr) (a : Nat) (e : Entry) (s : State), live s = true → writeWanted s n = some e → entryOf s (.sad n) e.tag = some e →
    ∃ s', exec (.dmaComplete (vfOf n) .writeData (.err (x, a))) s = .next s' ∧ EndedWith s' (.sad n) e.tag (dmaFault x a) ∧
      s'.pcie.fn[vfOf n] = { s.pcie.fn[vfOf n] with
        dmaErr := DmaErr.code x, dmaKind := 2, dmaN := sat 16 (s.pcie.fn[vfOf n].dmaN + 1), dmaAddr := BitVec.ofNat 64 a } ∧
      OthersKept s s' (.sad n) e.tag ∧ s'.cfg = s.cfg ∧ s'.adm = s.adm) ∧
  (∀ (f : FnNo) (r : Res (DmaErr × Nat) (List Byte)) (s : State), live s = true → exec (.dmaComplete f .readData r) s = .next (quiet s))

/-- Sample ports (R451, R454, R455, R457, R459, R461, R462) and the sensor bus (R470). The select that is low alone owns the port, and with neither low no
channel does. Within the tick's budget (R19; log 129) a clock edge moves a data word in and out while the data channel owns the port and is ready: the word waits in the port's lead
or goes to the WRITE that wants it; a port that is not ready moves nothing; a blocked word under FREE counts as an overrun. The control
channel's byte reaches its session. A due poll of the shock sensor takes its reading into the peak. -/
def Obligations.PortsAndSensors : Prop :=
  (∀ (p : PortNo) (s : State), live s = true →
    (∃ s', exec (.spSelect p false false) s = .next s' ∧ s'.port[p].owner = 0 ∧ s'.port[p].selD = false ∧ s'.port[p].selC = false ∧
      (∀ q : PortNo, q ≠ p → s'.port[q] = s.port[q]) ∧ s'.sad = s.sad ∧ s'.cfg = s.cfg) ∧
    (∃ s', exec (.spSelect p true false) s = .next s' ∧ s'.port[p].owner = 1 ∧ s'.port[p].selD = true ∧ s'.port[p].selC = false ∧
      (∀ q : PortNo, q ≠ p → s'.port[q] = s.port[q]) ∧ s'.sad = s.sad ∧ s'.cfg = s.cfg) ∧
    (∃ s', exec (.spSelect p false true) s = .next s' ∧ s'.port[p].owner = 2 ∧ s'.port[p].selC = true ∧ s'.port[p].selD = false ∧
      (∀ q : PortNo, q ≠ p → s'.port[q] = s.port[q]) ∧ s'.sad = s.sad ∧ s'.cfg = s.cfg)) ∧
  (∀ (p : PortNo) (w : W32) (s : State), live s = true → s.port[p].owner ≠ 1 →
    exec (.spDataWord p w) s = .next (modPort (quiet s) p fun x => { x with edge := true })) ∧
  (∀ (p : PortNo) (w : W32) (s : State), live s = true → s.port[p].owner = 1 → pnat s .portFlow p.val = 0 → readyData s p = false →
    s.used.port[p] + wordBytes s p ≤ budget s 20000 →
    exec (.spDataWord p w) s = .next (modPort (quiet s) p fun x => { x with edge := true, low := true })) ∧
  (∀ (p : PortNo) (w : W32) (s : State), live s = true → budget s 20000 < s.used.port[p] + wordBytes s p →
    exec (.spDataWord p w) s = .next (modPort (quiet s) p fun x => { x with edge := true })) ∧
  (∀ (p : PortNo) (n : SadNo) (w : W32) (s : State), live s = true → s.port[p].owner = 1 → readyData s p = true → portBlocked s p = false →
    s.used.port[p] + wordBytes s p ≤ budget s 20000 →
    sadOfPort s p = some n → writeWanted s n = none → wordBytes s p ≤ s.port[p].fifo.length →
    let k := wordBytes s p
    ∃ s', exec (.spDataWord p w) s = .next s' ∧ s'.port[p].lead = s.port[p].lead ++ leBytes k (w.toNat % 2 ^ (8 * k)) ∧
      s'.used.port[p] = s.used.port[p] + k ∧ s'.port[p].inWords = s.port[p].inWords + 1 ∧
      s'.out.spOut = some (BitVec.ofNat 32 (leVal (s.port[p].fifo.take k))) ∧ s'.port[p].ovr = s.port[p].ovr ∧
      (∀ q : PortNo, q ≠ p → s'.port[q] = s.port[q]) ∧ s'.evt = s.evt ∧ s'.cfg = s.cfg ∧
      ((∀ e ∈ s.sad[n].q.entries, e.ended.isSome = true ∨ e.res = none) →
        s'.port[p].fifo = s.port[p].fifo.drop k ∧ s'.sad = s.sad)) ∧
  (∀ (p : PortNo) (w : W32) (s : State), live s = true → s.port[p].owner = 1 → pnat s .portFlow p.val = 1 → portBlocked s p = true →
    sadOfPort s p = none → s.port[p].fifo = [] → s.used.port[p] + wordBytes s p ≤ budget s 20000 →
    ∃ s', exec (.spDataWord p w) s = .next s' ∧ s'.port[p].lead = s.port[p].lead ∧ s'.port[p].ovr = inc s.port[p].ovr ∧
      s'.port[p].underrun = true ∧ s'.port[p].rep = inc s.port[p].rep ∧ s'.out.spOut = some s.port[p].last ∧
      (∀ q : PortNo, q ≠ p → s'.port[q] = s.port[q]) ∧ s'.sad = s.sad ∧ s'.cfg = s.cfg) ∧
  (∀ (p : PortNo) (b : Byte) (s : State), live s = true → (s.port[p].owner ≠ 2 ∨ readyCtl s p = false) →
    exec (.spControlByte p b) s = .next (modPort (quiet s) p fun x => { x with edge := true })) ∧
  (∀ (p : PortNo) (b : Byte) (s : State), live s = true → s.port[p].owner = 2 → readyCtl s p = true → s.port[p].ses.mode = .generated →
    b ≠ 0x0D → b ≠ 0x0A → s.port[p].ses.line.length < 200 →
    ∃ s', exec (.spControlByte p b) s = .next s' ∧ s'.port[p].ses.line = s.port[p].ses.line ++ [b] ∧
      s'.port[p].ses.out = s.port[p].ses.out.drop 1 ∧ s'.out.spOut = some ((s.port[p].ses.out.headD 0).setWidth 32) ∧
      s'.fil = s.fil ∧ (∀ q : PortNo, q ≠ p → s'.port[q] = s.port[q]) ∧ s'.sad = s.sad ∧ s'.cfg = s.cfg) ∧
  (∀ (a b c : List I2cObs) (s : State), live s = true → (ready s = false ∨ pollDue s = false) →
    exec (.sensorPoll a b c) s = .next (quiet s)) ∧
  (∀ (d : List Byte) (c : Bool) (s : State), live s = true → ready s = true → pollDue s = true → s.sens.shock.absent = false →
    ∃ s', exec (.sensorPoll [.good d c] [] []) s = .next s' ∧ s'.sens.lastPoll = s.clk.ptc ∧ s'.sens.shock.present = true ∧
      s'.sens.shock.absent = false ∧ s'.sens.window.length = min 1024 (s.sens.window.length + 1) ∧ s.sens.peak ≤ s'.sens.peak ∧
      s'.sens.mg ≤ s'.sens.peak ∧ s'.med.inh.sensor = false ∧ s'.cfg = s.cfg ∧ s'.cart = s.cart)
end

