-- ==== Sys2Proof/Laws/State.lean ====
section
/-! SUPPORT. The small laws of the named state updates: which field of State each leaves as it is, and what it leaves in
the one it changes. -/

namespace Sys2Proof.Machine

open Sys2Proof

@[simp] theorem modSad_pending (s : State) (n : SadNo) (f : Saddle → Saddle) : (modSad s n f).pending = s.pending := rfl
@[simp] theorem modSad_clk (s : State) (n : SadNo) (f : Saddle → Saddle) : (modSad s n f).clk = s.clk := rfl
@[simp] theorem modSad_tk (s : State) (n : SadNo) (f : Saddle → Saddle) : (modSad s n f).tk = s.tk := rfl
@[simp] theorem modSad_pw (s : State) (n : SadNo) (f : Saddle → Saddle) : (modSad s n f).pw = s.pw := rfl
@[simp] theorem modSad_cfg (s : State) (n : SadNo) (f : Saddle → Saddle) : (modSad s n f).cfg = s.cfg := rfl
@[simp] theorem modSad_adm (s : State) (n : SadNo) (f : Saddle → Saddle) : (modSad s n f).adm = s.adm := rfl
@[simp] theorem modSad_fil (s : State) (n : SadNo) (f : Saddle → Saddle) : (modSad s n f).fil = s.fil := rfl
@[simp] theorem modSad_pool (s : State) (n : SadNo) (f : Saddle → Saddle) : (modSad s n f).pool = s.pool := rfl
@[simp] theorem modSad_keys (s : State) (n : SadNo) (f : Saddle → Saddle) : (modSad s n f).keys = s.keys := rfl
@[simp] theorem modSad_med (s : State) (n : SadNo) (f : Saddle → Saddle) : (modSad s n f).med = s.med := rfl
@[simp] theorem modSad_rd (s : State) (n : SadNo) (f : Saddle → Saddle) : (modSad s n f).rd = s.rd := rfl
@[simp] theorem modSad_srv (s : State) (n : SadNo) (f : Saddle → Saddle) : (modSad s n f).srv = s.srv := rfl
@[simp] theorem modSad_rein (s : State) (n : SadNo) (f : Saddle → Saddle) : (modSad s n f).rein = s.rein := rfl
@[simp] theorem modSad_cart (s : State) (n : SadNo) (f : Saddle → Saddle) : (modSad s n f).cart = s.cart := rfl
@[simp] theorem modSad_fl (s : State) (n : SadNo) (f : Saddle → Saddle) : (modSad s n f).fl = s.fl := rfl
@[simp] theorem modSad_fw (s : State) (n : SadNo) (f : Saddle → Saddle) : (modSad s n f).fw = s.fw := rfl
@[simp] theorem modSad_svc (s : State) (n : SadNo) (f : Saddle → Saddle) : (modSad s n f).svc = s.svc := rfl
@[simp] theorem modSad_pcie (s : State) (n : SadNo) (f : Saddle → Saddle) : (modSad s n f).pcie = s.pcie := rfl
@[simp] theorem modSad_port (s : State) (n : SadNo) (f : Saddle → Saddle) : (modSad s n f).port = s.port := rfl
@[simp] theorem modSad_sens (s : State) (n : SadNo) (f : Saddle → Saddle) : (modSad s n f).sens = s.sens := rfl
@[simp] theorem modSad_evt (s : State) (n : SadNo) (f : Saddle → Saddle) : (modSad s n f).evt = s.evt := rfl
@[simp] theorem modSad_diag (s : State) (n : SadNo) (f : Saddle → Saddle) : (modSad s n f).diag = s.diag := rfl
@[simp] theorem modSad_dram (s : State) (n : SadNo) (f : Saddle → Saddle) : (modSad s n f).dram = s.dram := rfl
@[simp] theorem modSad_dramFill (s : State) (n : SadNo) (f : Saddle → Saddle) : (modSad s n f).dramFill = s.dramFill := rfl
@[simp] theorem modSad_out (s : State) (n : SadNo) (f : Saddle → Saddle) : (modSad s n f).out = s.out := rfl
@[simp] theorem modSad_free (s : State) (n : SadNo) (f : Saddle → Saddle) : (modSad s n f).free = s.free := rfl
@[simp] theorem modSad_used (s : State) (n : SadNo) (f : Saddle → Saddle) : (modSad s n f).used = s.used := rfl
@[simp] theorem modSad_stat (s : State) (n : SadNo) (f : Saddle → Saddle) : (modSad s n f).stat = s.stat := rfl

@[simp] theorem mapSad_pending (s : State) (f : SadNo → Saddle → Saddle) : (mapSad s f).pending = s.pending := rfl
@[simp] theorem mapSad_clk (s : State) (f : SadNo → Saddle → Saddle) : (mapSad s f).clk = s.clk := rfl
@[simp] theorem mapSad_tk (s : State) (f : SadNo → Saddle → Saddle) : (mapSad s f).tk = s.tk := rfl
@[simp] theorem mapSad_pw (s : State) (f : SadNo → Saddle → Saddle) : (mapSad s f).pw = s.pw := rfl
@[simp] theorem mapSad_cfg (s : State) (f : SadNo → Saddle → Saddle) : (mapSad s f).cfg = s.cfg := rfl
@[simp] theorem mapSad_adm (s : State) (f : SadNo → Saddle → Saddle) : (mapSad s f).adm = s.adm := rfl
@[simp] theorem mapSad_fil (s : State) (f : SadNo → Saddle → Saddle) : (mapSad s f).fil = s.fil := rfl
@[simp] theorem mapSad_pool (s : State) (f : SadNo → Saddle → Saddle) : (mapSad s f).pool = s.pool := rfl
@[simp] theorem mapSad_keys (s : State) (f : SadNo → Saddle → Saddle) : (mapSad s f).keys = s.keys := rfl
@[simp] theorem mapSad_med (s : State) (f : SadNo → Saddle → Saddle) : (mapSad s f).med = s.med := rfl
@[simp] theorem mapSad_rd (s : State) (f : SadNo → Saddle → Saddle) : (mapSad s f).rd = s.rd := rfl
@[simp] theorem mapSad_srv (s : State) (f : SadNo → Saddle → Saddle) : (mapSad s f).srv = s.srv := rfl
@[simp] theorem mapSad_rein (s : State) (f : SadNo → Saddle → Saddle) : (mapSad s f).rein = s.rein := rfl
@[simp] theorem mapSad_cart (s : State) (f : SadNo → Saddle → Saddle) : (mapSad s f).cart = s.cart := rfl
@[simp] theorem mapSad_fl (s : State) (f : SadNo → Saddle → Saddle) : (mapSad s f).fl = s.fl := rfl
@[simp] theorem mapSad_fw (s : State) (f : SadNo → Saddle → Saddle) : (mapSad s f).fw = s.fw := rfl
@[simp] theorem mapSad_svc (s : State) (f : SadNo → Saddle → Saddle) : (mapSad s f).svc = s.svc := rfl
@[simp] theorem mapSad_pcie (s : State) (f : SadNo → Saddle → Saddle) : (mapSad s f).pcie = s.pcie := rfl
@[simp] theorem mapSad_port (s : State) (f : SadNo → Saddle → Saddle) : (mapSad s f).port = s.port := rfl
@[simp] theorem mapSad_sens (s : State) (f : SadNo → Saddle → Saddle) : (mapSad s f).sens = s.sens := rfl
@[simp] theorem mapSad_evt (s : State) (f : SadNo → Saddle → Saddle) : (mapSad s f).evt = s.evt := rfl
@[simp] theorem mapSad_diag (s : State) (f : SadNo → Saddle → Saddle) : (mapSad s f).diag = s.diag := rfl
@[simp] theorem mapSad_dram (s : State) (f : SadNo → Saddle → Saddle) : (mapSad s f).dram = s.dram := rfl
@[simp] theorem mapSad_dramFill (s : State) (f : SadNo → Saddle → Saddle) : (mapSad s f).dramFill = s.dramFill := rfl
@[simp] theorem mapSad_out (s : State) (f : SadNo → Saddle → Saddle) : (mapSad s f).out = s.out := rfl
@[simp] theorem mapSad_free (s : State) (f : SadNo → Saddle → Saddle) : (mapSad s f).free = s.free := rfl
@[simp] theorem mapSad_used (s : State) (f : SadNo → Saddle → Saddle) : (mapSad s f).used = s.used := rfl
@[simp] theorem mapSad_stat (s : State) (f : SadNo → Saddle → Saddle) : (mapSad s f).stat = s.stat := rfl

@[simp] theorem modFn_pending (s : State) (n : FnNo) (f : Fn → Fn) : (modFn s n f).pending = s.pending := rfl
@[simp] theorem modFn_clk (s : State) (n : FnNo) (f : Fn → Fn) : (modFn s n f).clk = s.clk := rfl
@[simp] theorem modFn_tk (s : State) (n : FnNo) (f : Fn → Fn) : (modFn s n f).tk = s.tk := rfl
@[simp] theorem modFn_pw (s : State) (n : FnNo) (f : Fn → Fn) : (modFn s n f).pw = s.pw := rfl
@[simp] theorem modFn_cfg (s : State) (n : FnNo) (f : Fn → Fn) : (modFn s n f).cfg = s.cfg := rfl
@[simp] theorem modFn_sad (s : State) (n : FnNo) (f : Fn → Fn) : (modFn s n f).sad = s.sad := rfl
@[simp] theorem modFn_adm (s : State) (n : FnNo) (f : Fn → Fn) : (modFn s n f).adm = s.adm := rfl
@[simp] theorem modFn_fil (s : State) (n : FnNo) (f : Fn → Fn) : (modFn s n f).fil = s.fil := rfl
@[simp] theorem modFn_pool (s : State) (n : FnNo) (f : Fn → Fn) : (modFn s n f).pool = s.pool := rfl
@[simp] theorem modFn_keys (s : State) (n : FnNo) (f : Fn → Fn) : (modFn s n f).keys = s.keys := rfl
@[simp] theorem modFn_med (s : State) (n : FnNo) (f : Fn → Fn) : (modFn s n f).med = s.med := rfl
@[simp] theorem modFn_rd (s : State) (n : FnNo) (f : Fn → Fn) : (modFn s n f).rd = s.rd := rfl
@[simp] theorem modFn_srv (s : State) (n : FnNo) (f : Fn → Fn) : (modFn s n f).srv = s.srv := rfl
@[simp] theorem modFn_rein (s : State) (n : FnNo) (f : Fn → Fn) : (modFn s n f).rein = s.rein := rfl
@[simp] theorem modFn_cart (s : State) (n : FnNo) (f : Fn → Fn) : (modFn s n f).cart = s.cart := rfl
@[simp] theorem modFn_fl (s : State) (n : FnNo) (f : Fn → Fn) : (modFn s n f).fl = s.fl := rfl
@[simp] theorem modFn_fw (s : State) (n : FnNo) (f : Fn → Fn) : (modFn s n f).fw = s.fw := rfl
@[simp] theorem modFn_svc (s : State) (n : FnNo) (f : Fn → Fn) : (modFn s n f).svc = s.svc := rfl
@[simp] theorem modFn_port (s : State) (n : FnNo) (f : Fn → Fn) : (modFn s n f).port = s.port := rfl
@[simp] theorem modFn_sens (s : State) (n : FnNo) (f : Fn → Fn) : (modFn s n f).sens = s.sens := rfl
@[simp] theorem modFn_evt (s : State) (n : FnNo) (f : Fn → Fn) : (modFn s n f).evt = s.evt := rfl
@[simp] theorem modFn_diag (s : State) (n : FnNo) (f : Fn → Fn) : (modFn s n f).diag = s.diag := rfl
@[simp] theorem modFn_dram (s : State) (n : FnNo) (f : Fn → Fn) : (modFn s n f).dram = s.dram := rfl
@[simp] theorem modFn_dramFill (s : State) (n : FnNo) (f : Fn → Fn) : (modFn s n f).dramFill = s.dramFill := rfl
@[simp] theorem modFn_out (s : State) (n : FnNo) (f : Fn → Fn) : (modFn s n f).out = s.out := rfl
@[simp] theorem modFn_free (s : State) (n : FnNo) (f : Fn → Fn) : (modFn s n f).free = s.free := rfl
@[simp] theorem modFn_used (s : State) (n : FnNo) (f : Fn → Fn) : (modFn s n f).used = s.used := rfl
@[simp] theorem modFn_stat (s : State) (n : FnNo) (f : Fn → Fn) : (modFn s n f).stat = s.stat := rfl

@[simp] theorem modPort_pending (s : State) (n : PortNo) (f : Port → Port) : (modPort s n f).pending = s.pending := rfl
@[simp] theorem modPort_clk (s : State) (n : PortNo) (f : Port → Port) : (modPort s n f).clk = s.clk := rfl
@[simp] theorem modPort_tk (s : State) (n : PortNo) (f : Port → Port) : (modPort s n f).tk = s.tk := rfl
@[simp] theorem modPort_pw (s : State) (n : PortNo) (f : Port → Port) : (modPort s n f).pw = s.pw := rfl
@[simp] theorem modPort_cfg (s : State) (n : PortNo) (f : Port → Port) : (modPort s n f).cfg = s.cfg := rfl
@[simp] theorem modPort_sad (s : State) (n : PortNo) (f : Port → Port) : (modPort s n f).sad = s.sad := rfl
@[simp] theorem modPort_adm (s : State) (n : PortNo) (f : Port → Port) : (modPort s n f).adm = s.adm := rfl
@[simp] theorem modPort_fil (s : State) (n : PortNo) (f : Port → Port) : (modPort s n f).fil = s.fil := rfl
@[simp] theorem modPort_pool (s : State) (n : PortNo) (f : Port → Port) : (modPort s n f).pool = s.pool := rfl
@[simp] theorem modPort_keys (s : State) (n : PortNo) (f : Port → Port) : (modPort s n f).keys = s.keys := rfl
@[simp] theorem modPort_med (s : State) (n : PortNo) (f : Port → Port) : (modPort s n f).med = s.med := rfl
@[simp] theorem modPort_rd (s : State) (n : PortNo) (f : Port → Port) : (modPort s n f).rd = s.rd := rfl
@[simp] theorem modPort_srv (s : State) (n : PortNo) (f : Port → Port) : (modPort s n f).srv = s.srv := rfl
@[simp] theorem modPort_rein (s : State) (n : PortNo) (f : Port → Port) : (modPort s n f).rein = s.rein := rfl
@[simp] theorem modPort_cart (s : State) (n : PortNo) (f : Port → Port) : (modPort s n f).cart = s.cart := rfl
@[simp] theorem modPort_fl (s : State) (n : PortNo) (f : Port → Port) : (modPort s n f).fl = s.fl := rfl
@[simp] theorem modPort_fw (s : State) (n : PortNo) (f : Port → Port) : (modPort s n f).fw = s.fw := rfl
@[simp] theorem modPort_svc (s : State) (n : PortNo) (f : Port → Port) : (modPort s n f).svc = s.svc := rfl
@[simp] theorem modPort_pcie (s : State) (n : PortNo) (f : Port → Port) : (modPort s n f).pcie = s.pcie := rfl
@[simp] theorem modPort_sens (s : State) (n : PortNo) (f : Port → Port) : (modPort s n f).sens = s.sens := rfl
@[simp] theorem modPort_evt (s : State) (n : PortNo) (f : Port → Port) : (modPort s n f).evt = s.evt := rfl
@[simp] theorem modPort_diag (s : State) (n : PortNo) (f : Port → Port) : (modPort s n f).diag = s.diag := rfl
@[simp] theorem modPort_dram (s : State) (n : PortNo) (f : Port → Port) : (modPort s n f).dram = s.dram := rfl
@[simp] theorem modPort_dramFill (s : State) (n : PortNo) (f : Port → Port) : (modPort s n f).dramFill = s.dramFill := rfl
@[simp] theorem modPort_out (s : State) (n : PortNo) (f : Port → Port) : (modPort s n f).out = s.out := rfl
@[simp] theorem modPort_free (s : State) (n : PortNo) (f : Port → Port) : (modPort s n f).free = s.free := rfl
@[simp] theorem modPort_used (s : State) (n : PortNo) (f : Port → Port) : (modPort s n f).used = s.used := rfl
@[simp] theorem modPort_stat (s : State) (n : PortNo) (f : Port → Port) : (modPort s n f).stat = s.stat := rfl

@[simp] theorem modWCh_pending (s : State) (c : ChNo) (f : WCh → WCh) : (modWCh s c f).pending = s.pending := rfl
@[simp] theorem modWCh_clk (s : State) (c : ChNo) (f : WCh → WCh) : (modWCh s c f).clk = s.clk := rfl
@[simp] theorem modWCh_tk (s : State) (c : ChNo) (f : WCh → WCh) : (modWCh s c f).tk = s.tk := rfl
@[simp] theorem modWCh_pw (s : State) (c : ChNo) (f : WCh → WCh) : (modWCh s c f).pw = s.pw := rfl
@[simp] theorem modWCh_cfg (s : State) (c : ChNo) (f : WCh → WCh) : (modWCh s c f).cfg = s.cfg := rfl
@[simp] theorem modWCh_sad (s : State) (c : ChNo) (f : WCh → WCh) : (modWCh s c f).sad = s.sad := rfl
@[simp] theorem modWCh_adm (s : State) (c : ChNo) (f : WCh → WCh) : (modWCh s c f).adm = s.adm := rfl
@[simp] theorem modWCh_fil (s : State) (c : ChNo) (f : WCh → WCh) : (modWCh s c f).fil = s.fil := rfl
@[simp] theorem modWCh_pool (s : State) (c : ChNo) (f : WCh → WCh) : (modWCh s c f).pool = s.pool := rfl
@[simp] theorem modWCh_keys (s : State) (c : ChNo) (f : WCh → WCh) : (modWCh s c f).keys = s.keys := rfl
@[simp] theorem modWCh_rd (s : State) (c : ChNo) (f : WCh → WCh) : (modWCh s c f).rd = s.rd := rfl
@[simp] theorem modWCh_srv (s : State) (c : ChNo) (f : WCh → WCh) : (modWCh s c f).srv = s.srv := rfl
@[simp] theorem modWCh_rein (s : State) (c : ChNo) (f : WCh → WCh) : (modWCh s c f).rein = s.rein := rfl
@[simp] theorem modWCh_cart (s : State) (c : ChNo) (f : WCh → WCh) : (modWCh s c f).cart = s.cart := rfl
@[simp] theorem modWCh_fl (s : State) (c : ChNo) (f : WCh → WCh) : (modWCh s c f).fl = s.fl := rfl
@[simp] theorem modWCh_fw (s : State) (c : ChNo) (f : WCh → WCh) : (modWCh s c f).fw = s.fw := rfl
@[simp] theorem modWCh_svc (s : State) (c : ChNo) (f : WCh → WCh) : (modWCh s c f).svc = s.svc := rfl
@[simp] theorem modWCh_pcie (s : State) (c : ChNo) (f : WCh → WCh) : (modWCh s c f).pcie = s.pcie := rfl
@[simp] theorem modWCh_port (s : State) (c : ChNo) (f : WCh → WCh) : (modWCh s c f).port = s.port := rfl
@[simp] theorem modWCh_sens (s : State) (c : ChNo) (f : WCh → WCh) : (modWCh s c f).sens = s.sens := rfl
@[simp] theorem modWCh_evt (s : State) (c : ChNo) (f : WCh → WCh) : (modWCh s c f).evt = s.evt := rfl
@[simp] theorem modWCh_diag (s : State) (c : ChNo) (f : WCh → WCh) : (modWCh s c f).diag = s.diag := rfl
@[simp] theorem modWCh_dram (s : State) (c : ChNo) (f : WCh → WCh) : (modWCh s c f).dram = s.dram := rfl
@[simp] theorem modWCh_dramFill (s : State) (c : ChNo) (f : WCh → WCh) : (modWCh s c f).dramFill = s.dramFill := rfl
@[simp] theorem modWCh_out (s : State) (c : ChNo) (f : WCh → WCh) : (modWCh s c f).out = s.out := rfl
@[simp] theorem modWCh_free (s : State) (c : ChNo) (f : WCh → WCh) : (modWCh s c f).free = s.free := rfl
@[simp] theorem modWCh_used (s : State) (c : ChNo) (f : WCh → WCh) : (modWCh s c f).used = s.used := rfl
@[simp] theorem modWCh_stat (s : State) (c : ChNo) (f : WCh → WCh) : (modWCh s c f).stat = s.stat := rfl

@[simp] theorem modRCh_pending (s : State) (c : ChNo) (f : RCh → RCh) : (modRCh s c f).pending = s.pending := rfl
@[simp] theorem modRCh_clk (s : State) (c : ChNo) (f : RCh → RCh) : (modRCh s c f).clk = s.clk := rfl
@[simp] theorem modRCh_tk (s : State) (c : ChNo) (f : RCh → RCh) : (modRCh s c f).tk = s.tk := rfl
@[simp] theorem modRCh_pw (s : State) (c : ChNo) (f : RCh → RCh) : (modRCh s c f).pw = s.pw := rfl
@[simp] theorem modRCh_cfg (s : State) (c : ChNo) (f : RCh → RCh) : (modRCh s c f).cfg = s.cfg := rfl
@[simp] theorem modRCh_sad (s : State) (c : ChNo) (f : RCh → RCh) : (modRCh s c f).sad = s.sad := rfl
@[simp] theorem modRCh_adm (s : State) (c : ChNo) (f : RCh → RCh) : (modRCh s c f).adm = s.adm := rfl
@[simp] theorem modRCh_fil (s : State) (c : ChNo) (f : RCh → RCh) : (modRCh s c f).fil = s.fil := rfl
@[simp] theorem modRCh_pool (s : State) (c : ChNo) (f : RCh → RCh) : (modRCh s c f).pool = s.pool := rfl
@[simp] theorem modRCh_keys (s : State) (c : ChNo) (f : RCh → RCh) : (modRCh s c f).keys = s.keys := rfl
@[simp] theorem modRCh_med (s : State) (c : ChNo) (f : RCh → RCh) : (modRCh s c f).med = s.med := rfl
@[simp] theorem modRCh_srv (s : State) (c : ChNo) (f : RCh → RCh) : (modRCh s c f).srv = s.srv := rfl
@[simp] theorem modRCh_rein (s : State) (c : ChNo) (f : RCh → RCh) : (modRCh s c f).rein = s.rein := rfl
@[simp] theorem modRCh_cart (s : State) (c : ChNo) (f : RCh → RCh) : (modRCh s c f).cart = s.cart := rfl
@[simp] theorem modRCh_fl (s : State) (c : ChNo) (f : RCh → RCh) : (modRCh s c f).fl = s.fl := rfl
@[simp] theorem modRCh_fw (s : State) (c : ChNo) (f : RCh → RCh) : (modRCh s c f).fw = s.fw := rfl
@[simp] theorem modRCh_svc (s : State) (c : ChNo) (f : RCh → RCh) : (modRCh s c f).svc = s.svc := rfl
@[simp] theorem modRCh_pcie (s : State) (c : ChNo) (f : RCh → RCh) : (modRCh s c f).pcie = s.pcie := rfl
@[simp] theorem modRCh_port (s : State) (c : ChNo) (f : RCh → RCh) : (modRCh s c f).port = s.port := rfl
@[simp] theorem modRCh_sens (s : State) (c : ChNo) (f : RCh → RCh) : (modRCh s c f).sens = s.sens := rfl
@[simp] theorem modRCh_evt (s : State) (c : ChNo) (f : RCh → RCh) : (modRCh s c f).evt = s.evt := rfl
@[simp] theorem modRCh_diag (s : State) (c : ChNo) (f : RCh → RCh) : (modRCh s c f).diag = s.diag := rfl
@[simp] theorem modRCh_dram (s : State) (c : ChNo) (f : RCh → RCh) : (modRCh s c f).dram = s.dram := rfl
@[simp] theorem modRCh_dramFill (s : State) (c : ChNo) (f : RCh → RCh) : (modRCh s c f).dramFill = s.dramFill := rfl
@[simp] theorem modRCh_out (s : State) (c : ChNo) (f : RCh → RCh) : (modRCh s c f).out = s.out := rfl
@[simp] theorem modRCh_free (s : State) (c : ChNo) (f : RCh → RCh) : (modRCh s c f).free = s.free := rfl
@[simp] theorem modRCh_used (s : State) (c : ChNo) (f : RCh → RCh) : (modRCh s c f).used = s.used := rfl
@[simp] theorem modRCh_stat (s : State) (c : ChNo) (f : RCh → RCh) : (modRCh s c f).stat = s.stat := rfl

@[simp] theorem reply_pending (s : State) (r : Reply) : (reply s r).pending = s.pending := rfl
@[simp] theorem reply_clk (s : State) (r : Reply) : (reply s r).clk = s.clk := rfl
@[simp] theorem reply_tk (s : State) (r : Reply) : (reply s r).tk = s.tk := rfl
@[simp] theorem reply_pw (s : State) (r : Reply) : (reply s r).pw = s.pw := rfl
@[simp] theorem reply_cfg (s : State) (r : Reply) : (reply s r).cfg = s.cfg := rfl
@[simp] theorem reply_sad (s : State) (r : Reply) : (reply s r).sad = s.sad := rfl
@[simp] theorem reply_adm (s : State) (r : Reply) : (reply s r).adm = s.adm := rfl
@[simp] theorem reply_pool (s : State) (r : Reply) : (reply s r).pool = s.pool := rfl
@[simp] theorem reply_keys (s : State) (r : Reply) : (reply s r).keys = s.keys := rfl
@[simp] theorem reply_med (s : State) (r : Reply) : (reply s r).med = s.med := rfl
@[simp] theorem reply_rd (s : State) (r : Reply) : (reply s r).rd = s.rd := rfl
@[simp] theorem reply_srv (s : State) (r : Reply) : (reply s r).srv = s.srv := rfl
@[simp] theorem reply_rein (s : State) (r : Reply) : (reply s r).rein = s.rein := rfl
@[simp] theorem reply_cart (s : State) (r : Reply) : (reply s r).cart = s.cart := rfl
@[simp] theorem reply_fl (s : State) (r : Reply) : (reply s r).fl = s.fl := rfl
@[simp] theorem reply_fw (s : State) (r : Reply) : (reply s r).fw = s.fw := rfl
@[simp] theorem reply_svc (s : State) (r : Reply) : (reply s r).svc = s.svc := rfl
@[simp] theorem reply_pcie (s : State) (r : Reply) : (reply s r).pcie = s.pcie := rfl
@[simp] theorem reply_port (s : State) (r : Reply) : (reply s r).port = s.port := rfl
@[simp] theorem reply_sens (s : State) (r : Reply) : (reply s r).sens = s.sens := rfl
@[simp] theorem reply_evt (s : State) (r : Reply) : (reply s r).evt = s.evt := rfl
@[simp] theorem reply_diag (s : State) (r : Reply) : (reply s r).diag = s.diag := rfl
@[simp] theorem reply_dram (s : State) (r : Reply) : (reply s r).dram = s.dram := rfl
@[simp] theorem reply_dramFill (s : State) (r : Reply) : (reply s r).dramFill = s.dramFill := rfl
@[simp] theorem reply_out (s : State) (r : Reply) : (reply s r).out = s.out := rfl
@[simp] theorem reply_free (s : State) (r : Reply) : (reply s r).free = s.free := rfl
@[simp] theorem reply_used (s : State) (r : Reply) : (reply s r).used = s.used := rfl
@[simp] theorem reply_stat (s : State) (r : Reply) : (reply s r).stat = s.stat := rfl

@[simp] theorem dramWrite_pending (s : State) (a : Nat) (b : List Byte) : (dramWrite s a b).pending = s.pending := rfl
@[simp] theorem dramWrite_clk (s : State) (a : Nat) (b : List Byte) : (dramWrite s a b).clk = s.clk := rfl
@[simp] theorem dramWrite_tk (s : State) (a : Nat) (b : List Byte) : (dramWrite s a b).tk = s.tk := rfl
@[simp] theorem dramWrite_pw (s : State) (a : Nat) (b : List Byte) : (dramWrite s a b).pw = s.pw := rfl
@[simp] theorem dramWrite_cfg (s : State) (a : Nat) (b : List Byte) : (dramWrite s a b).cfg = s.cfg := rfl
@[simp] theorem dramWrite_sad (s : State) (a : Nat) (b : List Byte) : (dramWrite s a b).sad = s.sad := rfl
@[simp] theorem dramWrite_adm (s : State) (a : Nat) (b : List Byte) : (dramWrite s a b).adm = s.adm := rfl
@[simp] theorem dramWrite_fil (s : State) (a : Nat) (b : List Byte) : (dramWrite s a b).fil = s.fil := rfl
@[simp] theorem dramWrite_pool (s : State) (a : Nat) (b : List Byte) : (dramWrite s a b).pool = s.pool := rfl
@[simp] theorem dramWrite_keys (s : State) (a : Nat) (b : List Byte) : (dramWrite s a b).keys = s.keys := rfl
@[simp] theorem dramWrite_med (s : State) (a : Nat) (b : List Byte) : (dramWrite s a b).med = s.med := rfl
@[simp] theorem dramWrite_rd (s : State) (a : Nat) (b : List Byte) : (dramWrite s a b).rd = s.rd := rfl
@[simp] theorem dramWrite_srv (s : State) (a : Nat) (b : List Byte) : (dramWrite s a b).srv = s.srv := rfl
@[simp] theorem dramWrite_rein (s : State) (a : Nat) (b : List Byte) : (dramWrite s a b).rein = s.rein := rfl
@[simp] theorem dramWrite_cart (s : State) (a : Nat) (b : List Byte) : (dramWrite s a b).cart = s.cart := rfl
@[simp] theorem dramWrite_fl (s : State) (a : Nat) (b : List Byte) : (dramWrite s a b).fl = s.fl := rfl
@[simp] theorem dramWrite_fw (s : State) (a : Nat) (b : List Byte) : (dramWrite s a b).fw = s.fw := rfl
@[simp] theorem dramWrite_svc (s : State) (a : Nat) (b : List Byte) : (dramWrite s a b).svc = s.svc := rfl
@[simp] theorem dramWrite_pcie (s : State) (a : Nat) (b : List Byte) : (dramWrite s a b).pcie = s.pcie := rfl
@[simp] theorem dramWrite_port (s : State) (a : Nat) (b : List Byte) : (dramWrite s a b).port = s.port := rfl
@[simp] theorem dramWrite_sens (s : State) (a : Nat) (b : List Byte) : (dramWrite s a b).sens = s.sens := rfl
@[simp] theorem dramWrite_evt (s : State) (a : Nat) (b : List Byte) : (dramWrite s a b).evt = s.evt := rfl
@[simp] theorem dramWrite_diag (s : State) (a : Nat) (b : List Byte) : (dramWrite s a b).diag = s.diag := rfl
@[simp] theorem dramWrite_dramFill (s : State) (a : Nat) (b : List Byte) : (dramWrite s a b).dramFill = s.dramFill := rfl
@[simp] theorem dramWrite_out (s : State) (a : Nat) (b : List Byte) : (dramWrite s a b).out = s.out := rfl
@[simp] theorem dramWrite_free (s : State) (a : Nat) (b : List Byte) : (dramWrite s a b).free = s.free := rfl
@[simp] theorem dramWrite_used (s : State) (a : Nat) (b : List Byte) : (dramWrite s a b).used = s.used := rfl
@[simp] theorem dramWrite_stat (s : State) (a : Nat) (b : List Byte) : (dramWrite s a b).stat = s.stat := rfl

@[simp] theorem haltRequest_pending (s : State) (c : HaltCause) : (haltRequest s c).pending = s.pending := rfl
@[simp] theorem haltRequest_clk (s : State) (c : HaltCause) : (haltRequest s c).clk = s.clk := rfl
@[simp] theorem haltRequest_tk (s : State) (c : HaltCause) : (haltRequest s c).tk = s.tk := rfl
@[simp] theorem haltRequest_cfg (s : State) (c : HaltCause) : (haltRequest s c).cfg = s.cfg := rfl
@[simp] theorem haltRequest_sad (s : State) (c : HaltCause) : (haltRequest s c).sad = s.sad := rfl
@[simp] theorem haltRequest_adm (s : State) (c : HaltCause) : (haltRequest s c).adm = s.adm := rfl
@[simp] theorem haltRequest_fil (s : State) (c : HaltCause) : (haltRequest s c).fil = s.fil := rfl
@[simp] theorem haltRequest_pool (s : State) (c : HaltCause) : (haltRequest s c).pool = s.pool := rfl
@[simp] theorem haltRequest_keys (s : State) (c : HaltCause) : (haltRequest s c).keys = s.keys := rfl
@[simp] theorem haltRequest_med (s : State) (c : HaltCause) : (haltRequest s c).med = s.med := rfl
@[simp] theorem haltRequest_rd (s : State) (c : HaltCause) : (haltRequest s c).rd = s.rd := rfl
@[simp] theorem haltRequest_srv (s : State) (c : HaltCause) : (haltRequest s c).srv = s.srv := rfl
@[simp] theorem haltRequest_rein (s : State) (c : HaltCause) : (haltRequest s c).rein = s.rein := rfl
@[simp] theorem haltRequest_cart (s : State) (c : HaltCause) : (haltRequest s c).cart = s.cart := rfl
@[simp] theorem haltRequest_fl (s : State) (c : HaltCause) : (haltRequest s c).fl = s.fl := rfl
@[simp] theorem haltRequest_fw (s : State) (c : HaltCause) : (haltRequest s c).fw = s.fw := rfl
@[simp] theorem haltRequest_svc (s : State) (c : HaltCause) : (haltRequest s c).svc = s.svc := rfl
@[simp] theorem haltRequest_pcie (s : State) (c : HaltCause) : (haltRequest s c).pcie = s.pcie := rfl
@[simp] theorem haltRequest_port (s : State) (c : HaltCause) : (haltRequest s c).port = s.port := rfl
@[simp] theorem haltRequest_sens (s : State) (c : HaltCause) : (haltRequest s c).sens = s.sens := rfl
@[simp] theorem haltRequest_evt (s : State) (c : HaltCause) : (haltRequest s c).evt = s.evt := rfl
@[simp] theorem haltRequest_diag (s : State) (c : HaltCause) : (haltRequest s c).diag = s.diag := rfl
@[simp] theorem haltRequest_dram (s : State) (c : HaltCause) : (haltRequest s c).dram = s.dram := rfl
@[simp] theorem haltRequest_dramFill (s : State) (c : HaltCause) : (haltRequest s c).dramFill = s.dramFill := rfl
@[simp] theorem haltRequest_out (s : State) (c : HaltCause) : (haltRequest s c).out = s.out := rfl
@[simp] theorem haltRequest_free (s : State) (c : HaltCause) : (haltRequest s c).free = s.free := rfl
@[simp] theorem haltRequest_used (s : State) (c : HaltCause) : (haltRequest s c).used = s.used := rfl
@[simp] theorem haltRequest_stat (s : State) (c : HaltCause) : (haltRequest s c).stat = s.stat := rfl

@[simp] theorem deferErr_pending (s : State) (n : SadNo) (c : DefCause) : (deferErr s n c).pending = s.pending := rfl
@[simp] theorem deferErr_clk (s : State) (n : SadNo) (c : DefCause) : (deferErr s n c).clk = s.clk := rfl
@[simp] theorem deferErr_tk (s : State) (n : SadNo) (c : DefCause) : (deferErr s n c).tk = s.tk := rfl
@[simp] theorem deferErr_pw (s : State) (n : SadNo) (c : DefCause) : (deferErr s n c).pw = s.pw := rfl
@[simp] theorem deferErr_cfg (s : State) (n : SadNo) (c : DefCause) : (deferErr s n c).cfg = s.cfg := rfl
@[simp] theorem deferErr_adm (s : State) (n : SadNo) (c : DefCause) : (deferErr s n c).adm = s.adm := rfl
@[simp] theorem deferErr_fil (s : State) (n : SadNo) (c : DefCause) : (deferErr s n c).fil = s.fil := rfl
@[simp] theorem deferErr_pool (s : State) (n : SadNo) (c : DefCause) : (deferErr s n c).pool = s.pool := rfl
@[simp] theorem deferErr_keys (s : State) (n : SadNo) (c : DefCause) : (deferErr s n c).keys = s.keys := rfl
@[simp] theorem deferErr_med (s : State) (n : SadNo) (c : DefCause) : (deferErr s n c).med = s.med := rfl
@[simp] theorem deferErr_rd (s : State) (n : SadNo) (c : DefCause) : (deferErr s n c).rd = s.rd := rfl
@[simp] theorem deferErr_srv (s : State) (n : SadNo) (c : DefCause) : (deferErr s n c).srv = s.srv := rfl
@[simp] theorem deferErr_rein (s : State) (n : SadNo) (c : DefCause) : (deferErr s n c).rein = s.rein := rfl
@[simp] theorem deferErr_cart (s : State) (n : SadNo) (c : DefCause) : (deferErr s n c).cart = s.cart := rfl
@[simp] theorem deferErr_fl (s : State) (n : SadNo) (c : DefCause) : (deferErr s n c).fl = s.fl := rfl
@[simp] theorem deferErr_fw (s : State) (n : SadNo) (c : DefCause) : (deferErr s n c).fw = s.fw := rfl
@[simp] theorem deferErr_svc (s : State) (n : SadNo) (c : DefCause) : (deferErr s n c).svc = s.svc := rfl
@[simp] theorem deferErr_pcie (s : State) (n : SadNo) (c : DefCause) : (deferErr s n c).pcie = s.pcie := rfl
@[simp] theorem deferErr_port (s : State) (n : SadNo) (c : DefCause) : (deferErr s n c).port = s.port := rfl
@[simp] theorem deferErr_sens (s : State) (n : SadNo) (c : DefCause) : (deferErr s n c).sens = s.sens := rfl
@[simp] theorem deferErr_evt (s : State) (n : SadNo) (c : DefCause) : (deferErr s n c).evt = s.evt := rfl
@[simp] theorem deferErr_diag (s : State) (n : SadNo) (c : DefCause) : (deferErr s n c).diag = s.diag := rfl
@[simp] theorem deferErr_dram (s : State) (n : SadNo) (c : DefCause) : (deferErr s n c).dram = s.dram := rfl
@[simp] theorem deferErr_dramFill (s : State) (n : SadNo) (c : DefCause) : (deferErr s n c).dramFill = s.dramFill := rfl
@[simp] theorem deferErr_out (s : State) (n : SadNo) (c : DefCause) : (deferErr s n c).out = s.out := rfl
@[simp] theorem deferErr_free (s : State) (n : SadNo) (c : DefCause) : (deferErr s n c).free = s.free := rfl
@[simp] theorem deferErr_used (s : State) (n : SadNo) (c : DefCause) : (deferErr s n c).used = s.used := rfl
@[simp] theorem deferErr_stat (s : State) (n : SadNo) (c : DefCause) : (deferErr s n c).stat = s.stat := rfl

@[simp] theorem latchPf_pending (s : State) (k : Nat) : (latchPf s k).pending = s.pending := rfl
@[simp] theorem latchPf_clk (s : State) (k : Nat) : (latchPf s k).clk = s.clk := rfl
@[simp] theorem latchPf_tk (s : State) (k : Nat) : (latchPf s k).tk = s.tk := rfl
@[simp] theorem latchPf_pw (s : State) (k : Nat) : (latchPf s k).pw = s.pw := rfl
@[simp] theorem latchPf_cfg (s : State) (k : Nat) : (latchPf s k).cfg = s.cfg := rfl
@[simp] theorem latchPf_sad (s : State) (k : Nat) : (latchPf s k).sad = s.sad := rfl
@[simp] theorem latchPf_adm (s : State) (k : Nat) : (latchPf s k).adm = s.adm := rfl
@[simp] theorem latchPf_fil (s : State) (k : Nat) : (latchPf s k).fil = s.fil := rfl
@[simp] theorem latchPf_pool (s : State) (k : Nat) : (latchPf s k).pool = s.pool := rfl
@[simp] theorem latchPf_keys (s : State) (k : Nat) : (latchPf s k).keys = s.keys := rfl
@[simp] theorem latchPf_med (s : State) (k : Nat) : (latchPf s k).med = s.med := rfl
@[simp] theorem latchPf_rd (s : State) (k : Nat) : (latchPf s k).rd = s.rd := rfl
@[simp] theorem latchPf_srv (s : State) (k : Nat) : (latchPf s k).srv = s.srv := rfl
@[simp] theorem latchPf_rein (s : State) (k : Nat) : (latchPf s k).rein = s.rein := rfl
@[simp] theorem latchPf_cart (s : State) (k : Nat) : (latchPf s k).cart = s.cart := rfl
@[simp] theorem latchPf_fl (s : State) (k : Nat) : (latchPf s k).fl = s.fl := rfl
@[simp] theorem latchPf_fw (s : State) (k : Nat) : (latchPf s k).fw = s.fw := rfl
@[simp] theorem latchPf_svc (s : State) (k : Nat) : (latchPf s k).svc = s.svc := rfl
@[simp] theorem latchPf_port (s : State) (k : Nat) : (latchPf s k).port = s.port := rfl
@[simp] theorem latchPf_sens (s : State) (k : Nat) : (latchPf s k).sens = s.sens := rfl
@[simp] theorem latchPf_evt (s : State) (k : Nat) : (latchPf s k).evt = s.evt := rfl
@[simp] theorem latchPf_diag (s : State) (k : Nat) : (latchPf s k).diag = s.diag := rfl
@[simp] theorem latchPf_dram (s : State) (k : Nat) : (latchPf s k).dram = s.dram := rfl
@[simp] theorem latchPf_dramFill (s : State) (k : Nat) : (latchPf s k).dramFill = s.dramFill := rfl
@[simp] theorem latchPf_out (s : State) (k : Nat) : (latchPf s k).out = s.out := rfl
@[simp] theorem latchPf_free (s : State) (k : Nat) : (latchPf s k).free = s.free := rfl
@[simp] theorem latchPf_used (s : State) (k : Nat) : (latchPf s k).used = s.used := rfl
@[simp] theorem latchPf_stat (s : State) (k : Nat) : (latchPf s k).stat = s.stat := rfl

@[simp] theorem latch_pending (s : State) (n : SadNo) (k : Nat) : (latch s n k).pending = s.pending := rfl
@[simp] theorem latch_clk (s : State) (n : SadNo) (k : Nat) : (latch s n k).clk = s.clk := rfl
@[simp] theorem latch_tk (s : State) (n : SadNo) (k : Nat) : (latch s n k).tk = s.tk := rfl
@[simp] theorem latch_pw (s : State) (n : SadNo) (k : Nat) : (latch s n k).pw = s.pw := rfl
@[simp] theorem latch_cfg (s : State) (n : SadNo) (k : Nat) : (latch s n k).cfg = s.cfg := rfl
@[simp] theorem latch_adm (s : State) (n : SadNo) (k : Nat) : (latch s n k).adm = s.adm := rfl
@[simp] theorem latch_fil (s : State) (n : SadNo) (k : Nat) : (latch s n k).fil = s.fil := rfl
@[simp] theorem latch_pool (s : State) (n : SadNo) (k : Nat) : (latch s n k).pool = s.pool := rfl
@[simp] theorem latch_keys (s : State) (n : SadNo) (k : Nat) : (latch s n k).keys = s.keys := rfl
@[simp] theorem latch_med (s : State) (n : SadNo) (k : Nat) : (latch s n k).med = s.med := rfl
@[simp] theorem latch_rd (s : State) (n : SadNo) (k : Nat) : (latch s n k).rd = s.rd := rfl
@[simp] theorem latch_srv (s : State) (n : SadNo) (k : Nat) : (latch s n k).srv = s.srv := rfl
@[simp] theorem latch_rein (s : State) (n : SadNo) (k : Nat) : (latch s n k).rein = s.rein := rfl
@[simp] theorem latch_cart (s : State) (n : SadNo) (k : Nat) : (latch s n k).cart = s.cart := rfl
@[simp] theorem latch_fl (s : State) (n : SadNo) (k : Nat) : (latch s n k).fl = s.fl := rfl
@[simp] theorem latch_fw (s : State) (n : SadNo) (k : Nat) : (latch s n k).fw = s.fw := rfl
@[simp] theorem latch_svc (s : State) (n : SadNo) (k : Nat) : (latch s n k).svc = s.svc := rfl
@[simp] theorem latch_pcie (s : State) (n : SadNo) (k : Nat) : (latch s n k).pcie = s.pcie := rfl
@[simp] theorem latch_port (s : State) (n : SadNo) (k : Nat) : (latch s n k).port = s.port := rfl
@[simp] theorem latch_sens (s : State) (n : SadNo) (k : Nat) : (latch s n k).sens = s.sens := rfl
@[simp] theorem latch_evt (s : State) (n : SadNo) (k : Nat) : (latch s n k).evt = s.evt := rfl
@[simp] theorem latch_diag (s : State) (n : SadNo) (k : Nat) : (latch s n k).diag = s.diag := rfl
@[simp] theorem latch_dram (s : State) (n : SadNo) (k : Nat) : (latch s n k).dram = s.dram := rfl
@[simp] theorem latch_dramFill (s : State) (n : SadNo) (k : Nat) : (latch s n k).dramFill = s.dramFill := rfl
@[simp] theorem latch_out (s : State) (n : SadNo) (k : Nat) : (latch s n k).out = s.out := rfl
@[simp] theorem latch_free (s : State) (n : SadNo) (k : Nat) : (latch s n k).free = s.free := rfl
@[simp] theorem latch_used (s : State) (n : SadNo) (k : Nat) : (latch s n k).used = s.used := rfl
@[simp] theorem latch_stat (s : State) (n : SadNo) (k : Nat) : (latch s n k).stat = s.stat := rfl

theorem modSad_get (s : State) (n m : SadNo) (f : Saddle → Saddle) :
    (modSad s n f).sad[m] = if n = m then f s.sad[n] else s.sad[m] := by
  simp only [modSad, Fin.getElem_fin, Vector.getElem_set, Fin.ext_iff]

@[simp] theorem modSad_get_same (s : State) (n : SadNo) (f : Saddle → Saddle) : (modSad s n f).sad[n.val] = f s.sad[n.val] := by
  simp [modSad]

theorem modSad_get_other (s : State) {n m : SadNo} (f : Saddle → Saddle) (h : n ≠ m) : (modSad s n f).sad[m.val] = s.sad[m.val] := by
  have h := modSad_get s n m f
  simp_all

theorem modFn_get (s : State) (n m : FnNo) (f : Fn → Fn) :
    (modFn s n f).pcie.fn[m] = if n = m then f s.pcie.fn[n] else s.pcie.fn[m] := by
  simp only [modFn, Fin.getElem_fin, Vector.getElem_set, Fin.ext_iff]

@[simp] theorem modFn_get_same (s : State) (n : FnNo) (f : Fn → Fn) : (modFn s n f).pcie.fn[n.val] = f s.pcie.fn[n.val] := by
  simp [modFn]

theorem modFn_get_other (s : State) {n m : FnNo} (f : Fn → Fn) (h : n ≠ m) : (modFn s n f).pcie.fn[m.val] = s.pcie.fn[m.val] := by
  have h := modFn_get s n m f
  simp_all

theorem modPort_get (s : State) (n m : PortNo) (f : Port → Port) :
    (modPort s n f).port[m] = if n = m then f s.port[n] else s.port[m] := by
  simp only [modPort, Fin.getElem_fin, Vector.getElem_set, Fin.ext_iff]

@[simp] theorem modPort_get_same (s : State) (n : PortNo) (f : Port → Port) : (modPort s n f).port[n.val] = f s.port[n.val] := by
  simp [modPort]

theorem modPort_get_other (s : State) {n m : PortNo} (f : Port → Port) (h : n ≠ m) : (modPort s n f).port[m.val] = s.port[m.val] := by
  have h := modPort_get s n m f
  simp_all

theorem modWCh_get (s : State) (n m : ChNo) (f : WCh → WCh) :
    (modWCh s n f).med.ch[m] = if n = m then f s.med.ch[n] else s.med.ch[m] := by
  simp only [modWCh, Fin.getElem_fin, Vector.getElem_set, Fin.ext_iff]

@[simp] theorem modWCh_get_same (s : State) (n : ChNo) (f : WCh → WCh) : (modWCh s n f).med.ch[n.val] = f s.med.ch[n.val] := by
  simp [modWCh]

theorem modWCh_get_other (s : State) {n m : ChNo} (f : WCh → WCh) (h : n ≠ m) : (modWCh s n f).med.ch[m.val] = s.med.ch[m.val] := by
  have h := modWCh_get s n m f
  simp_all

theorem modRCh_get (s : State) (n m : ChNo) (f : RCh → RCh) :
    (modRCh s n f).rd.ch[m] = if n = m then f s.rd.ch[n] else s.rd.ch[m] := by
  simp only [modRCh, Fin.getElem_fin, Vector.getElem_set, Fin.ext_iff]

@[simp] theorem modRCh_get_same (s : State) (n : ChNo) (f : RCh → RCh) : (modRCh s n f).rd.ch[n.val] = f s.rd.ch[n.val] := by
  simp [modRCh]

theorem modRCh_get_other (s : State) {n m : ChNo} (f : RCh → RCh) (h : n ≠ m) : (modRCh s n f).rd.ch[m.val] = s.rd.ch[m.val] := by
  have h := modRCh_get s n m f
  simp_all

@[simp] theorem mapSad_get (s : State) (f : SadNo → Saddle → Saddle) (m : SadNo) : (mapSad s f).sad[m.val] = f m s.sad[m.val] := by
  simp [mapSad]

@[simp] theorem reply_outq (s : State) (r : Reply) : (reply s r).fil.outq = s.fil.outq ++ [r] := rfl

/-- An interrupt latch changes a saddle's latches only. -/
theorem latch_saddle (s : State) (n m : SadNo) (k : Nat) : ∃ i, (latch s n k).sad[m] = { s.sad[m] with irq := i } := by
  unfold latch
  rw [modSad_get]
  split
  · rename_i h
    subst h
    dsimp only
    split
    · exact ⟨_, rfl⟩
    · split <;> exact ⟨_, rfl⟩
  · exact ⟨_, rfl⟩

/-- A latch of the physical function changes its latches only. -/
theorem latchPf_pcie (s : State) (k : Nat) : ∃ i, (latchPf s k).pcie = { s.pcie with irq := i } := by
  unfold latchPf
  dsimp only
  split <;> exact ⟨_, rfl⟩

/-- Staging an event writes the event log only. -/
theorem stage_eq (s : State) (e : Evt) : ∃ v, stage s e = { s with evt := v } := by
  unfold stage
  dsimp only
  split
  · exact ⟨_, rfl⟩
  · split <;> exact ⟨_, rfl⟩

/-- An event record writes the event log, and the ATTENTION latches of the physical function and of the saddle it names. -/
theorem logE_eq (s : State) (sev : Sev) (src code : Nat) (body : List (String × Nat × Nat)) (text : Option String) :
    ∃ v p d, logE s sev src code body text = { s with evt := v, pcie := p, sad := d } := by
  unfold logE
  dsimp only
  obtain ⟨v, hv⟩ := stage_eq s { ptc := s.clk.ptc, session := s.clk.session, sev := sev, src := src, code := code, body := body, text := text }
  rw [hv]
  split
  · exact ⟨v, _, _, rfl⟩
  · split
    · exact ⟨v, _, _, rfl⟩
    · exact ⟨v, _, _, rfl⟩

@[simp] theorem logE_pending (s : State) (sev : Sev) (src code : Nat) (body : List (String × Nat × Nat)) (text : Option String) :
    (logE s sev src code body text).pending = s.pending := by
  obtain ⟨v, p, d, h⟩ := logE_eq s sev src code body text
  rw [h]

@[simp] theorem logE_clk (s : State) (sev : Sev) (src code : Nat) (body : List (String × Nat × Nat)) (text : Option String) :
    (logE s sev src code body text).clk = s.clk := by
  obtain ⟨v, p, d, h⟩ := logE_eq s sev src code body text
  rw [h]

@[simp] theorem logE_tk (s : State) (sev : Sev) (src code : Nat) (body : List (String × Nat × Nat)) (text : Option String) :
    (logE s sev src code body text).tk = s.tk := by
  obtain ⟨v, p, d, h⟩ := logE_eq s sev src code body text
  rw [h]

@[simp] theorem logE_pw (s : State) (sev : Sev) (src code : Nat) (body : List (String × Nat × Nat)) (text : Option String) :
    (logE s sev src code body text).pw = s.pw := by
  obtain ⟨v, p, d, h⟩ := logE_eq s sev src code body text
  rw [h]

@[simp] theorem logE_cfg (s : State) (sev : Sev) (src code : Nat) (body : List (String × Nat × Nat)) (text : Option String) :
    (logE s sev src code body text).cfg = s.cfg := by
  obtain ⟨v, p, d, h⟩ := logE_eq s sev src code body text
  rw [h]

@[simp] theorem logE_adm (s : State) (sev : Sev) (src code : Nat) (body : List (String × Nat × Nat)) (text : Option String) :
    (logE s sev src code body text).adm = s.adm := by
  obtain ⟨v, p, d, h⟩ := logE_eq s sev src code body text
  rw [h]

@[simp] theorem logE_fil (s : State) (sev : Sev) (src code : Nat) (body : List (String × Nat × Nat)) (text : Option String) :
    (logE s sev src code body text).fil = s.fil := by
  obtain ⟨v, p, d, h⟩ := logE_eq s sev src code body text
  rw [h]

@[simp] theorem logE_pool (s : State) (sev : Sev) (src code : Nat) (body : List (String × Nat × Nat)) (text : Option String) :
    (logE s sev src code body text).pool = s.pool := by
  obtain ⟨v, p, d, h⟩ := logE_eq s sev src code body text
  rw [h]

@[simp] theorem logE_keys (s : State) (sev : Sev) (src code : Nat) (body : List (String × Nat × Nat)) (text : Option String) :
    (logE s sev src code body text).keys = s.keys := by
  obtain ⟨v, p, d, h⟩ := logE_eq s sev src code body text
  rw [h]

@[simp] theorem logE_med (s : State) (sev : Sev) (src code : Nat) (body : List (String × Nat × Nat)) (text : Option String) :
    (logE s sev src code body text).med = s.med := by
  obtain ⟨v, p, d, h⟩ := logE_eq s sev src code body text
  rw [h]

@[simp] theorem logE_rd (s : State) (sev : Sev) (src code : Nat) (body : List (String × Nat × Nat)) (text : Option String) :
    (logE s sev src code body text).rd = s.rd := by
  obtain ⟨v, p, d, h⟩ := logE_eq s sev src code body text
  rw [h]

@[simp] theorem logE_srv (s : State) (sev : Sev) (src code : Nat) (body : List (String × Nat × Nat)) (text : Option String) :
    (logE s sev src code body text).srv = s.srv := by
  obtain ⟨v, p, d, h⟩ := logE_eq s sev src code body text
  rw [h]

@[simp] theorem logE_rein (s : State) (sev : Sev) (src code : Nat) (body : List (String × Nat × Nat)) (text : Option String) :
    (logE s sev src code body text).rein = s.rein := by
  obtain ⟨v, p, d, h⟩ := logE_eq s sev src code body text
  rw [h]

@[simp] theorem logE_cart (s : State) (sev : Sev) (src code : Nat) (body : List (String × Nat × Nat)) (text : Option String) :
    (logE s sev src code body text).cart = s.cart := by
  obtain ⟨v, p, d, h⟩ := logE_eq s sev src code body text
  rw [h]

@[simp] theorem logE_fl (s : State) (sev : Sev) (src code : Nat) (body : List (String × Nat × Nat)) (text : Option String) :
    (logE s sev src code body text).fl = s.fl := by
  obtain ⟨v, p, d, h⟩ := logE_eq s sev src code body text
  rw [h]

@[simp] theorem logE_fw (s : State) (sev : Sev) (src code : Nat) (body : List (String × Nat × Nat)) (text : Option String) :
    (logE s sev src code body text).fw = s.fw := by
  obtain ⟨v, p, d, h⟩ := logE_eq s sev src code body text
  rw [h]

@[simp] theorem logE_svc (s : State) (sev : Sev) (src code : Nat) (body : List (String × Nat × Nat)) (text : Option String) :
    (logE s sev src code body text).svc = s.svc := by
  obtain ⟨v, p, d, h⟩ := logE_eq s sev src code body text
  rw [h]

@[simp] theorem logE_port (s : State) (sev : Sev) (src code : Nat) (body : List (String × Nat × Nat)) (text : Option String) :
    (logE s sev src code body text).port = s.port := by
  obtain ⟨v, p, d, h⟩ := logE_eq s sev src code body text
  rw [h]

@[simp] theorem logE_sens (s : State) (sev : Sev) (src code : Nat) (body : List (String × Nat × Nat)) (text : Option String) :
    (logE s sev src code body text).sens = s.sens := by
  obtain ⟨v, p, d, h⟩ := logE_eq s sev src code body text
  rw [h]

@[simp] theorem logE_diag (s : State) (sev : Sev) (src code : Nat) (body : List (String × Nat × Nat)) (text : Option String) :
    (logE s sev src code body text).diag = s.diag := by
  obtain ⟨v, p, d, h⟩ := logE_eq s sev src code body text
  rw [h]

@[simp] theorem logE_dram (s : State) (sev : Sev) (src code : Nat) (body : List (String × Nat × Nat)) (text : Option String) :
    (logE s sev src code body text).dram = s.dram := by
  obtain ⟨v, p, d, h⟩ := logE_eq s sev src code body text
  rw [h]

@[simp] theorem logE_dramFill (s : State) (sev : Sev) (src code : Nat) (body : List (String × Nat × Nat)) (text : Option String) :
    (logE s sev src code body text).dramFill = s.dramFill := by
  obtain ⟨v, p, d, h⟩ := logE_eq s sev src code body text
  rw [h]

@[simp] theorem logE_out (s : State) (sev : Sev) (src code : Nat) (body : List (String × Nat × Nat)) (text : Option String) :
    (logE s sev src code body text).out = s.out := by
  obtain ⟨v, p, d, h⟩ := logE_eq s sev src code body text
  rw [h]

@[simp] theorem logE_free (s : State) (sev : Sev) (src code : Nat) (body : List (String × Nat × Nat)) (text : Option String) :
    (logE s sev src code body text).free = s.free := by
  obtain ⟨v, p, d, h⟩ := logE_eq s sev src code body text
  rw [h]

@[simp] theorem logE_used (s : State) (sev : Sev) (src code : Nat) (body : List (String × Nat × Nat)) (text : Option String) :
    (logE s sev src code body text).used = s.used := by
  obtain ⟨v, p, d, h⟩ := logE_eq s sev src code body text
  rw [h]

@[simp] theorem logE_stat (s : State) (sev : Sev) (src code : Nat) (body : List (String × Nat × Nat)) (text : Option String) :
    (logE s sev src code body text).stat = s.stat := by
  obtain ⟨v, p, d, h⟩ := logE_eq s sev src code body text
  rw [h]

/-- A record of the chip itself names no saddle, and latches the physical function's ATTENTION alone. -/
theorem logE_chip (s : State) (sev : Sev) (code : Nat) (body : List (String × Nat × Nat)) (text : Option String) :
    ∃ v p, logE s sev srcChip code body text = { s with evt := v, pcie := p } := by
  unfold logE
  dsimp only
  obtain ⟨v, hv⟩ := stage_eq s { ptc := s.clk.ptc, session := s.clk.session, sev := sev, src := srcChip, code := code, body := body, text := text }
  rw [hv]
  split
  · exact ⟨v, _, rfl⟩
  · have h : ¬ srcChip < 8 := by decide
    simp only [h]
    exact ⟨v, _, rfl⟩

@[simp] theorem logE_chip_sad (s : State) (sev : Sev) (code : Nat) (body : List (String × Nat × Nat)) (text : Option String) :
    (logE s sev srcChip code body text).sad = s.sad := by
  obtain ⟨v, p, h⟩ := logE_chip s sev code body text
  rw [h]

end Sys2Proof.Machine
end

