-- ==== Sys2Proof/Laws/Ops.lean ====
section
/-! SUPPORT. What the shared operations answer: the end of a step, a channel's queue, the outcome of a command, and a verb's
own row. -/

namespace Sys2Proof.Machine

open Sys2Proof

/-! ### The end of a step -/

/-- A step of the running part answers a next state, with the clock and the waiting commands as they were. -/
theorem act_next (s : State) (f : State → State) :
    act s f = .next { (if live s then f (quiet s) else s) with clk := s.clk, pending := s.pending } := rfl

/-- A live part's step is its effect, with the clock and the waiting commands as they were. -/
theorem act_live {s : State} (h : live s = true) (f : State → State) :
    act s f = .next { f (quiet s) with clk := s.clk, pending := s.pending } := by
  simp [act, fin, quiet, h]

/-- The same where the effect keeps both. -/
theorem act_live_kept {s : State} (h : live s = true) (f : State → State) (hc : (f (quiet s)).clk = s.clk)
    (hp : (f (quiet s)).pending = s.pending) : act s f = .next (f (quiet s)) := by
  rw [act_live h, ← hc, ← hp]

/-- An enabled step of a live part is its effect. -/
theorem actIf_live {s : State} {c : Bool} (h : live s = true) (hc : c = true) (f : State → State) :
    actIf s c f = .next { f (quiet s) with clk := s.clk, pending := s.pending } := by
  simp [actIf, act, fin, quiet, h, hc]

/-- The same where the effect keeps the clock and the waiting commands. -/
theorem actIf_live_kept {s : State} {c : Bool} (h : live s = true) (hc : c = true) (f : State → State)
    (hk : (f (quiet s)).clk = s.clk) (hp : (f (quiet s)).pending = s.pending) : actIf s c f = .next (f (quiet s)) := by
  rw [actIf_live h hc, ← hk, ← hp]

/-- A step that is neither a tick nor a reset keeps the clock and the waiting commands, whatever it does. -/
theorem fin_kept {s t s' : State} (h : fin s t = .next s') : s'.clk = s.clk ∧ s'.pending = s.pending := by
  simp only [fin, Host.Outcome.next.injEq] at h
  subst h
  exact ⟨rfl, rfl⟩

@[simp] theorem quiet_live (s : State) : live (quiet s) = live s := rfl
@[simp] theorem quiet_ready (s : State) : ready (quiet s) = ready s := rfl
@[simp] theorem quiet_entryOf (s : State) (ch : Chan) (t : Nat) : entryOf (quiet s) ch t = entryOf s ch t := by cases ch <;> rfl

/-! ### Queues -/

/-- A change of a channel's queue is a change of nothing else. -/
theorem modQ_withQueue (s : State) (ch : Chan) (f : List Entry → List Entry) :
    modQ s ch f = withQueue s ch { entries := f (queueOf s ch).entries } := by
  cases ch <;> rfl

@[simp] theorem queueOf_withQueue (s : State) (ch : Chan) (q : Queue) : queueOf (withQueue s ch q) ch = q := by
  cases ch <;> simp [queueOf, withQueue]

@[simp] theorem withQueue_withQueue (s : State) (ch : Chan) (q r : Queue) :
    withQueue (withQueue s ch q) ch r = withQueue s ch r := by
  cases ch <;> simp [withQueue, modSad]

@[simp] theorem withQueue_clk (s : State) (ch : Chan) (q : Queue) : (withQueue s ch q).clk = s.clk := by cases ch <;> rfl
@[simp] theorem withQueue_pending (s : State) (ch : Chan) (q : Queue) : (withQueue s ch q).pending = s.pending := by
  cases ch <;> rfl

/-- A change of an entry that keeps tags changes the entry of its tag. -/
theorem entryOf_modEntry (s : State) (ch : Chan) (t : Nat) (f : Entry → Entry) (hf : ∀ e, (f e).tag = e.tag) :
    entryOf (modEntry s ch t f) ch t = (entryOf s ch t).map f := by
  simp only [entryOf, modEntry, modQ_withQueue, queueOf_withQueue]
  induction (queueOf s ch).entries with
  | nil => rfl
  | cons e l ih =>
    by_cases h : (e.tag == t) = true
    · simp only [List.map_cons, List.find?_cons, h, if_true, hf, Option.map_some]
    · simp only [List.map_cons, List.find?_cons, h, ih, Bool.false_eq_true, if_false]

/-- A command without an outcome gets one. -/
theorem complete_ended {s : State} {ch : Chan} {t : Nat} {e : Entry} (he : entryOf s ch t = some e) (hn : e.ended = none)
    (o : Outc) : EndedWith (complete s ch t o) ch t o := by
  refine ⟨{ e with ended := some o, phase := .committed }, ?_, rfl⟩
  rw [complete, entryOf_modEntry _ _ _ _ (by intro e; split <;> rfl), he]
  simp [hn]

/-- Completing changes the channel's queue only. -/
theorem complete_withQueue (s : State) (ch : Chan) (t : Nat) (o : Outc) :
    ∃ q, complete s ch t o = withQueue s ch q := ⟨_, modQ_withQueue _ _ _⟩

/-- Changing an entry changes the channel's queue only. -/
theorem modEntry_withQueue (s : State) (ch : Chan) (t : Nat) (f : Entry → Entry) :
    ∃ q, modEntry s ch t f = withQueue s ch q := ⟨_, modQ_withQueue _ _ _⟩

/-! ### A verb's own row -/

/-- The state in which a verb's effect runs: its entry has begun. -/
def begins (s : State) (ch : Chan) (t : Nat) : State := modEntry (quiet s) ch t fun e => { e with begun := true }

/-- When a command's effect is due, its entry in the state that the effect sees. -/
theorem begins_entry {s : State} {ch : Chan} {t : Nat} {v : Verb} (h : Runs s ch t v) :
    ∃ e, entryOf (begins s ch t) ch t = some e ∧ e.ended = none ∧ e.begun = true ∧ e.phase = .executing := by
  obtain ⟨_, _, _, e, he, h1, _, _, h4⟩ := h
  refine ⟨{ e with begun := true }, ?_, h4, rfl, h1⟩
  have h := entryOf_modEntry (quiet s) ch t (fun e => { e with begun := true }) (fun _ => rfl)
  rw [begins, h, quiet_entryOf, he]
  rfl

/-- Beginning changes the channel's queue and clears the outputs. -/
theorem begins_withQueue (s : State) (ch : Chan) (t : Nat) : ∃ q, begins s ch t = withQueue (quiet s) ch q :=
  modEntry_withQueue _ _ _ _

/-- A verb's row whose command executes runs the verb's effect once. -/
theorem verbRow_runs {s : State} {ch : Chan} {t : Nat} {v : Verb} (h : Runs s ch t v) (body : Nat → State → State) :
    verbRow ch (some t) v body s = .next { body t (begins s ch t) with clk := s.clk, pending := s.pending } := by
  obtain ⟨hl, hr, ht, e, he, h1, h2, h3, h4⟩ := h
  rw [verbRow, actIf_live hl hr]
  have he' : entryOf (quiet s) ch t = some e := by rw [quiet_entryOf, he]
  have hn : ¬ tagCount ch ≤ t := by omega
  simp [hn, he', h1, h2, h3, h4, begins]

/-- A change of one tag's entry leaves the others. -/
theorem entryOf_modEntry_other (s : State) (ch : Chan) {t k : Nat} (h : k ≠ t) (f : Entry → Entry) (hf : ∀ e, (f e).tag = e.tag) :
    entryOf (modEntry s ch t f) ch k = entryOf s ch k := by
  simp only [entryOf, modEntry, modQ_withQueue, queueOf_withQueue]
  induction (queueOf s ch).entries with
  | nil => rfl
  | cons e l ih =>
    by_cases ht : (e.tag == t) = true
    · have hk : (e.tag == k) = false := by
        simp only [beq_iff_eq] at ht
        simp [ht, Ne.symm h]
      simp only [List.map_cons, List.find?_cons, ht, if_true, hf, hk, ih]
    · simp only [List.map_cons, List.find?_cons, ht, ih, Bool.false_eq_true, if_false]

/-- What a channel's queue holds once a command's own step has begun. -/
def begunQueue (s : State) (ch : Chan) (t : Nat) : Queue :=
  { entries := (queueOf s ch).entries.map fun e => if e.tag == t then { e with begun := true } else e }

theorem begins_eq (s : State) (ch : Chan) (t : Nat) : begins s ch t = withQueue (quiet s) ch (begunQueue s ch t) := by
  cases ch <;> rfl

/-- Entries of a channel whose queue is put in place of another. -/
theorem entryOf_withQueue (s u : State) (ch : Chan) (q : Queue) (k : Nat) :
    entryOf (withQueue u ch q) ch k = entryOf (withQueue s ch q) ch k := by
  simp [entryOf]

/-- Changing an entry of a state with a queue in place changes that queue alone. -/
theorem modEntry_withQueue_eq (u : State) (ch : Chan) (q : Queue) (t : Nat) (f : Entry → Entry) :
    modEntry (withQueue u ch q) ch t f = withQueue u ch { entries := q.entries.map fun e => if e.tag == t then f e else e } := by
  simp [modEntry, modQ_withQueue]

/-- Other commands are untouched from the step's beginning to a change of the command's own entry. -/
theorem others_kept (s u : State) (ch : Chan) (t : Nat) (f : Entry → Entry) (hf : ∀ e, (f e).tag = e.tag) :
    OthersKept s (modEntry (withQueue u ch (begunQueue s ch t)) ch t f) ch t := by
  intro k hk
  have h := entryOf_modEntry_other (quiet s) ch hk (fun e => { e with begun := true }) (fun _ => rfl)
  rw [entryOf_modEntry_other _ _ hk _ hf, entryOf_withQueue (quiet s), ← begins_eq, begins, h, quiet_entryOf]

/-- A verb's row whose effect changes the state to `u` and then completes the command. -/
theorem verbRow_ends {s u : State} {ch : Chan} {t : Nat} {v : Verb} {body : Nat → State → State} {o : Outc}
    (h : Runs s ch t v) (hb : body t (withQueue (quiet s) ch (begunQueue s ch t)) = complete (withQueue u ch (begunQueue s ch t)) ch t o)
    (hk : u.clk = s.clk) (hp : u.pending = s.pending) :
    ∃ q, verbRow ch (some t) v body s = .next (withQueue u ch q) ∧ EndedWith (withQueue u ch q) ch t o ∧
      OthersKept s (withQueue u ch q) ch t := by
  obtain ⟨e, he, hn, _⟩ := begins_entry h
  rw [begins_eq, entryOf_withQueue u] at he
  refine ⟨{ entries := (begunQueue s ch t).entries.map fun e =>
    if e.tag == t then (if e.ended.isNone then { e with ended := some o, phase := .committed } else e) else e }, ?_, ?_, ?_⟩
  · rw [verbRow_runs h, begins_eq, hb, complete, modEntry_withQueue_eq, ← hk, ← hp]
    cases ch <;> rfl
  · have := complete_ended he hn o
    rwa [complete, modEntry_withQueue_eq] at this
  · have := others_kept s u ch t (fun e => if e.ended.isNone then { e with ended := some o, phase := .committed } else e)
      (by intro e; split <;> rfl)
    rwa [modEntry_withQueue_eq] at this

/-- A verb's row whose effect changes the state to `u`, changes its entry and goes on. -/
theorem verbRow_goes {s u : State} {ch : Chan} {t : Nat} {v : Verb} {body : Nat → State → State} (f : Entry → Entry)
    (h : Runs s ch t v) (hb : body t (withQueue (quiet s) ch (begunQueue s ch t)) = modEntry (withQueue u ch (begunQueue s ch t)) ch t f)
    (hf : ∀ e, (f e).tag = e.tag ∧ (f e).begun = e.begun ∧ (f e).ended = e.ended ∧ (f e).phase = e.phase)
    (hk : u.clk = s.clk) (hp : u.pending = s.pending) :
    ∃ q, verbRow ch (some t) v body s = .next (withQueue u ch q) ∧ Going (withQueue u ch q) ch t ∧
      OthersKept s (withQueue u ch q) ch t := by
  obtain ⟨e, he, hn, hbg, hph⟩ := begins_entry h
  rw [begins_eq, entryOf_withQueue u] at he
  refine ⟨{ entries := (begunQueue s ch t).entries.map fun e => if e.tag == t then f e else e }, ?_, ?_, ?_⟩
  · rw [verbRow_runs h, begins_eq, hb, modEntry_withQueue_eq, ← hk, ← hp]
    cases ch <;> rfl
  · rw [← modEntry_withQueue_eq]
    refine ⟨f e, ?_, ?_, ?_, ?_⟩
    · rw [entryOf_modEntry _ _ _ _ (fun e => (hf e).1), he]; rfl
    · rw [(hf e).2.1, hbg]
    · rw [(hf e).2.2.1, hn]
    · rw [(hf e).2.2.2, hph]
  · rw [← modEntry_withQueue_eq]
    exact others_kept s u ch t f (fun e => (hf e).1)

end Sys2Proof.Machine
end

