-- ==== Sys2Proof/Laws/Shared.lean ====
section
/-! SUPPORT. What the shared operations of flash, configuration, the guard and cartridge memory can change: one lemma each, which
names the parts of State they write. -/

namespace Sys2Proof.Machine

open Sys2Proof

/-- An entry appended to the journal writes the flash die only. -/
theorem appendJournal_eq (s : State) (e : LogEntry) : ∃ f, appendJournal s e = { s with fl := f } := by
  unfold appendJournal
  dsimp only
  split <;> exact ⟨_, rfl⟩

/-- A journaled erase writes the flash die only. -/
theorem journaled_eq (s : State) (k : Nat) : ∃ f, journaled s k = { s with fl := f } := by
  unfold journaled
  obtain ⟨f, h⟩ := appendJournal_eq s { type := 0x01, arg := 0, value := k }
  rw [h]
  obtain ⟨g, h'⟩ := appendJournal_eq { s with fl := f } { type := 0x02, arg := 0, value := k }
  exact ⟨g, h'⟩

/-- An entry appended to a log region writes the flash die only. -/
theorem appendLog_eq (s : State) (r : LogRegion) (e : LogEntry) : ∃ f, appendLog s r e = { s with fl := f } := by
  have h : ∀ r, ∃ f, (if (logOf s.fl r).entries.length < 511 then
      { s with fl := setLog s.fl r { logOf s.fl r with entries := (logOf s.fl r).entries ++ [e] } }
      else compactLog (journaled s (spareSector s.fl r)) r e) = { s with fl := f } := by
    intro r
    split
    · exact ⟨_, rfl⟩
    · obtain ⟨f, hf⟩ := journaled_eq s (spareSector s.fl r)
      rw [hf]
      exact ⟨_, rfl⟩
  cases r with
  | journal => exact appendJournal_eq s e
  | boot => exact h .boot
  | select => exact h .select

/-- A started erase writes the flash die only. -/
theorem startErase_eq (s : State) (k : Nat) : ∃ f, startErase s k = { s with fl := f } := by
  unfold startErase
  split
  · exact ⟨_, rfl⟩
  · obtain ⟨f, hf⟩ := appendLog_eq s .journal { type := 0x01, arg := 0, value := k }
    rw [hf]
    exact ⟨_, rfl⟩

/-- A failed flash operation is counted and logged. -/
theorem flashFail_eq (s : State) (a o : Nat) : ∃ f v p d, flashFail s a o = { s with fl := f, evt := v, pcie := p, sad := d } := by
  unfold flashFail
  obtain ⟨v, p, d, h⟩ := logE_eq { s with fl := { s.fl with fails := inc s.fl.fails } } .error srcChip 0x0801 [("addr", 4, a), ("op", 1, o)] none
  rw [h]
  exact ⟨_, v, p, d, rfl⟩

/-- A change that writes only the parts that a predicate keeps, folded over a list, keeps the predicate. -/
theorem foldl_keeps {α : Type} (P : State → Prop) (f : State → α → State) (h : ∀ s a, P s → P (f s a)) :
    ∀ (l : List α) (s : State), P s → P (l.foldl f s)
  | [], _, hs => hs
  | a :: l, s, hs => foldl_keeps P f h l (f s a) (h s a hs)

/-- What the write guard may change: the media side, the event log and interrupt latches. -/
def GuardKeeps (s t : State) : Prop :=
  ∃ m v p d, t = { s with med := m, evt := v, pcie := p, sad := d }

theorem GuardKeeps.refl (s : State) : GuardKeeps s s := ⟨_, _, _, _, rfl⟩

theorem GuardKeeps.trans {s t u : State} (h : GuardKeeps s t) (g : GuardKeeps t u) : GuardKeeps s u := by
  obtain ⟨m, v, p, d, rfl⟩ := h
  obtain ⟨m', v', p', d', rfl⟩ := g
  exact ⟨m', v', p', d', rfl⟩

theorem logE_guard (s : State) (sev : Sev) (src code : Nat) (body : List (String × Nat × Nat)) (text : Option String) :
    GuardKeeps s (logE s sev src code body text) := by
  obtain ⟨v, p, d, h⟩ := logE_eq s sev src code body text
  rw [h]
  exact ⟨s.med, v, p, d, rfl⟩

theorem foldl_guard {α : Type} (f : State → α → State) (h : ∀ s a, GuardKeeps s (f s a)) :
    ∀ (l : List α) (s : State), GuardKeeps s (l.foldl f s)
  | [], s => .refl s
  | a :: l, s => (h s a).trans (foldl_guard f h l (f s a))

theorem abandon_guard (s : State) : GuardKeeps s (abandon s) := by
  unfold abandon
  split
  · exact .refl s
  · split
    · exact .refl s
    · exact ⟨_, s.evt, s.pcie, s.sad, rfl⟩

/-- Bringing the causes up to date writes the media side, the event log and interrupt latches only. -/
theorem guardCauses_guard (s : State) : GuardKeeps s (guardCauses s) := by
  unfold guardCauses
  have h0 : GuardKeeps s { s with med := { s.med with inh := { s.med.inh with holds := causesHeld s } } } :=
    ⟨_, s.evt, s.pcie, s.sad, rfl⟩
  dsimp only
  split
  · exact h0.trans (foldl_guard _ (fun s c => logE_guard s _ _ _ _ _) _ _)
  · exact h0

/-- The guard writes the media side, the event log and interrupt latches only. -/
theorem guardScan_guard (s : State) : GuardKeeps s (guardScan s) := by
  unfold guardScan
  dsimp only
  have h2 := guardCauses_guard s
  split
  · refine h2.trans ?_
    have h3 : ∀ (s : State) (n : SadNo), GuardKeeps s (if s.sad[n].unsync.isEmpty then s else latch s n 1) := by
      intro s n
      split
      · exact .refl s
      · exact ⟨s.med, s.evt, s.pcie, _, rfl⟩
    refine (foldl_guard _ h3 allSads _).trans ?_
    refine GuardKeeps.trans ?_ (abandon_guard _)
    exact ⟨_, _, _, _, rfl⟩
  · exact h2

end Sys2Proof.Machine
end

