-- ==== Sys2Proof/Laws/Mem.lean ====
section
/-! SUPPORT. The canonical form of the addressed memories (buffer DRAM, cartridge memory, programmed flash bytes): every operation
keeps it, and the reset state has it. -/

namespace Sys2Proof.Machine

open Sys2Proof

theorem cellsWf_cons (k : Nat) (v : Byte) (t : List Host.Cell) :
    cellsWf ((k, v) :: t) = true ↔ v ≠ memBlank ∧ (∀ c ∈ t, k < c.1) ∧ cellsWf t = true := by
  simp [cellsWf, and_assoc]

/-- The addresses of cells after a write are those before and the one written. -/
theorem cellSet_mem {a : Nat} {b : Byte} {c : Host.Cell} : ∀ {l : List Host.Cell}, c ∈ cellSet a b l → c = (a, b) ∨ c ∈ l
  | [], h => by
    simp only [cellSet] at h
    split at h
    · exact .inr h
    · simp at h
      exact .inl h
  | (k, v) :: t, h => by
    simp only [cellSet] at h
    split at h
    · split at h
      · exact .inr h
      · rcases List.mem_cons.1 h with h | h
        · exact .inl h
        · exact .inr h
    · split at h
      · split at h
        · exact .inr (List.mem_cons_of_mem _ h)
        · rename_i hk _
          rcases List.mem_cons.1 h with h | h
          · exact .inl (by rw [h, hk])
          · exact .inr (List.mem_cons_of_mem _ h)
      · rcases List.mem_cons.1 h with h | h
        · exact .inr (by rw [h]; exact List.mem_cons_self)
        · rcases cellSet_mem h with h | h
          · exact .inl h
          · exact .inr (List.mem_cons_of_mem _ h)

/-- A write keeps the order of cells and lists no blank one. -/
theorem cellSet_wf (a : Nat) (b : Byte) : ∀ l : List Host.Cell, cellsWf l = true → cellsWf (cellSet a b l) = true
  | [], _ => by
    simp only [cellSet]
    split
    · rfl
    · rename_i h
      exact (cellsWf_cons _ _ _).2 ⟨h, by simp, rfl⟩
  | (k, v) :: t, h => by
    have hw := (cellsWf_cons k v t).1 h
    simp only [cellSet]
    split
    · rename_i hak
      split
      · exact h
      · rename_i hb
        refine (cellsWf_cons _ _ _).2 ⟨hb, ?_, h⟩
        intro c hc
        rcases List.mem_cons.1 hc with hc | hc
        · rw [hc]; exact hak
        · exact Nat.lt_trans hak (hw.2.1 c hc)
    · split
      · split
        · exact hw.2.2
        · rename_i hb
          exact (cellsWf_cons _ _ _).2 ⟨hb, hw.2.1, hw.2.2⟩
      · rename_i h1 h2
        refine (cellsWf_cons _ _ _).2 ⟨hw.1, ?_, cellSet_wf a b t hw.2.2⟩
        intro c hc
        rcases cellSet_mem hc with hc | hc
        · rw [hc]
          exact Nat.lt_of_le_of_ne (Nat.le_of_not_lt h1) (Ne.symm h2)
        · exact hw.2.1 c hc

/-- Dropping cells keeps the form. -/
theorem filter_wf (p : Host.Cell → Bool) : ∀ l : List Host.Cell, cellsWf l = true → cellsWf (l.filter p) = true
  | [], _ => rfl
  | (k, v) :: t, h => by
    have hw := (cellsWf_cons k v t).1 h
    rw [List.filter_cons]
    split
    · exact (cellsWf_cons _ _ _).2 ⟨hw.1, fun c hc => hw.2.1 c (List.mem_filter.1 hc).1, filter_wf p t hw.2.2⟩
    · exact filter_wf p t hw.2.2

/-- Writing a byte keeps the canonical form. -/
theorem Mem.set_wf {m : Mem} (a : Nat) (b : Byte) (h : m.wf = true) : (m.set a b).wf = true := cellSet_wf a b m.cells h

/-- Writing bytes keeps the canonical form. -/
theorem Mem.put_wf : ∀ {m : Mem} (a : Nat) (l : List Byte), m.wf = true → (m.put a l).wf = true
  | _, _, [], h => h
  | _, a, b :: t, h => Mem.put_wf (a + 1) t (Mem.set_wf a b h)

/-- The empty memory is in canonical form. -/
theorem Mem.empty_wf : ({} : Mem).wf = true := rfl

/-- A write of the buffer DRAM keeps its form. -/
theorem dramWrite_wf {s : State} (a : Nat) (l : List Byte) (h : s.dram.wf = true) : (dramWrite s a l).dram.wf = true :=
  Mem.put_wf a _ h

/-- A program of flash bytes keeps the form of the programmed cells. -/
theorem programBytes_wf {s : State} (a : Nat) (l : List Byte) (h : s.fl.cells.wf = true) : (programBytes s a l).fl.cells.wf = true := by
  have hk : ∀ (r : List (Byte × Nat)) (m : Mem), m.wf = true →
      (r.foldl (fun m (b, i) => Mem.set m (a + i) (m.get (a + i) ||| (b ^^^ 0xFF#8))) m).wf = true := by
    intro r
    induction r with
    | nil => intro m hm; exact hm
    | cons x r ih => intro m hm; exact ih _ (Mem.set_wf _ _ hm)
  exact hk _ _ h

/-- An erased sector keeps the form of the programmed cells. -/
theorem eraseSector_wf {s : State} (k : Nat) (h : s.fl.cells.wf = true) : (eraseSector s k).fl.cells.wf = true :=
  filter_wf _ _ h

/-- The reset state's memories are in canonical form. -/
theorem reset_wf : State.reset.dram.wf = true ∧ State.reset.cart.mem.wf = true ∧ State.reset.fl.cells.wf = true :=
  ⟨rfl, rfl, rfl⟩

end Sys2Proof.Machine
end

