-- ==== Sys2Proof/WellFormed.lean ====
section
/-! DEFINITION. Which commands the language, the registers and the wires can bring: the ranges that the verb
entries of file 06, the register layout of file 15 and the frames of files 08 to 17 give the operands. The
meanings do not depend on it: a command outside it still has its outcome. -/

namespace Sys2Proof

/-- Tags that a channel accepts: 00-07 on the admin channel, 00-1F on a saddle (R108, R110). -/
def tagOk (ch : Chan) (t : Option Nat) : Bool :=
  match ch with
  | .adm => t.all (· < 8)
  | .sad _ => t.all (· < 32)

/-- A text: at most 64 printable characters without a quote (R111). -/
def textOk (t : String) : Bool :=
  t.length ≤ 64 && t.toList.all fun c => 0x20 ≤ c.toNat && c.toNat ≤ 0x7E && c != '"'

/-- A register access: inside the 64 KiB window, of 1, 2, 4 or 8 bytes (R430). -/
def barOk (off len : Nat) : Bool := off < 0x10000 && (len == 1 || len == 2 || len == 4 || len == 8)

/-- A girth number (40 bits, file 00). -/
def girthOk (g : Nat) : Bool := g < 2 ^ 40

/-- A data set of a cartridge. -/
def dsOk (d : Nat) : Bool := d < 7553088

/-- A saddle's `saddle=` names no other saddle (R170). -/
def scopeOk (ch : Chan) (sad : Option SadNo) : Bool :=
  match ch with
  | .adm => true
  | .sad n => sad.all (· == n)

/-- A verb that acts on one saddle: the admin channel names it (R170). -/
def sadOk (ch : Chan) (sad : Option SadNo) : Bool :=
  scopeOk ch sad && (ch != .adm || sad.isSome)

/-- A host list of a WRITE or READ (R444): 1 to 8 pairs, a table of 1 to 1,024, or 1 to 8 words. -/
def xferOk : XferList → Bool
  | .none => true
  | .sg l => 1 ≤ l.length && l.length ≤ 8 && l.all fun p => p.1 < 2 ^ 64 && 1 ≤ p.2 && p.2 < 2 ^ 64
  | .sgt a c => a < 2 ^ 64 && 1 ≤ c && c ≤ 1024
  | .words l => 1 ≤ l.length && l.length ≤ 8

/-- SADDLE op=SET gives at least one key, each in its range (file 06, SADDLE). -/
def sadSetOk (a : SadSetArgs) : Bool :=
  (a.cls.isSome || a.rate.isSome || a.weight.isSome || a.policy.isSome || a.ratio.isSome || a.format.isSome || a.lanes.isSome) &&
    a.rate.all (· ≤ 3612) && a.weight.all (fun w => 1 ≤ w && w ≤ 64) && a.ratio.all (· ≤ 4) &&
    a.lanes.all fun l => 1 ≤ l && l ≤ 8

/-- An ARM code (file 06, ARM). -/
def codeOk (c : String) : Bool :=
  c.length == 6 && c.toList.all fun x => ('A' ≤ x && x ≤ 'Z') || ('2' ≤ x && x ≤ '9')

/-- The part of cartridge memory a CM READ takes (file 06, CM). -/
def partOk : CmPart → Bool
  | .raw a l => a < 32768 && 1 ≤ l && l ≤ 64
  | _ => true

/-- A LOCATE's target (R189). -/
def locOk : LocTarget → Bool
  | .girth g => girthOk g
  | .ds d => dsOk d
  | .bot => true
  | .eod => true

/-- A SPACE's distance is not zero (file 06, SPACE). -/
def spaceOk : SpaceBy → Bool
  | .marks n => n != 0 && n.natAbs < 65536
  | .girths n => n != 0 && n.natAbs < 2 ^ 40

/-- The passes of a TEST (file 06, TEST). -/
def passOk (p : Nat) : Bool := 1 ≤ p && p ≤ 1000

/-- A mode that MODE asks for (file 06, MODE). -/
def targetOk : Mode → Bool
  | .park => true
  | .stage => true
  | .stream => true
  | .service => true
  | .starting => false
  | .halt => false

/-- What a command carries is in range; which ranges, the entry of its row says. -/
def Instr.wf : Instr → Bool
  | .tickBoundary x => x.busyPct ≤ 100
  | .ftickEdge p _ => 0 < p
  | .ftickMissing => true
  | .porstAssert => true
  | .porstDeassert _ _ _ _ => true
  | .startUpComplete => true
  | .supplyUndervoltage => true
  | .xtalLost => true
  | .pwrFailRecognised => true
  | .powerFailRecordDone => true
  | .flushDone => true
  | .pwrFailReturn => true
  | .watchdogExpiry _ => true
  | .coreRestart _ => true
  | .avsUpdate _ _ _ => true
  | .thermWarn _ => true
  | .lineIntake _ _ => true
  | .consoleRxByte _ _ => true
  | .consoleBreak b => 0 < b
  | .consoleRestore => true
  | .lineFault => true
  | .lineFaultRecovery _ => true
  | .commandStart _ t => t.all fun l => l.all fun p => p.1 < 2 ^ 64 && p.2 < 2 ^ 64
  | .abort ch t sad => (if ch == .adm && sad.isNone then t < 8 else t < 32) && scopeOk ch sad
  | .activate tag _ _ => tagOk .adm tag
  | .arm tag _ => tagOk .adm tag
  | .armExpiry => true
  | .cal tag items _ => tagOk .adm tag && 1 ≤ items.length && items.length ≤ 6
  | .calComplete r _ => r.all fun x => x.perCh.all fun p => p.1 < 8 && p.2.length ≤ 64
  | .chanList tag => tagOk .adm tag
  | .chanOut tag _ => tagOk .adm tag
  | .chanIn tag _ => tagOk .adm tag
  | .clear ch tag sad => tagOk ch tag && sadOk ch sad
  | .cmRead tag part => tagOk .adm tag && partOk part
  | .cmRepair tag => tagOk .adm tag
  | .commit tag note => tagOk .adm tag && textOk note
  | .configs ch tag => tagOk ch tag
  | .confirm tag _ code => tagOk .adm tag && codeOk code
  | .discard ch tag sad g => tagOk ch tag && sadOk ch sad && g.all girthOk
  | .events ch tag after n _ => tagOk ch tag && after.all (· < 2 ^ 32) && 1 ≤ n && n ≤ 64
  | .get ch tag names => tagOk ch tag && !names.isEmpty
  | .hello ch tag _ => tagOk ch tag
  | .infoDev ch tag => tagOk ch tag
  | .infoFw ch tag => tagOk ch tag
  | .infoLink ch tag => tagOk ch tag
  | .infoDram ch tag => tagOk ch tag
  | .infoPorts ch tag => tagOk ch tag
  | .keyPart tag _ _ _ => tagOk .adm tag
  | .keyLoad tag _ => tagOk .adm tag
  | .keyZero tag _ => tagOk .adm tag
  | .keyList tag => tagOk .adm tag
  | .keyKek tag _ _ => tagOk .adm tag
  | .load tag => tagOk .adm tag
  | .loadComplete o => o.cm.all (·.length == 32768)
  | .locate ch tag sad t => tagOk ch tag && scopeOk ch sad && locOk t
  | .tapePositioned _ d _ _ g => dsOk d && g.all girthOk
  | .logText ch tag text => tagOk ch tag && textOk text && text != ""
  | .logSave tag => tagOk .adm tag
  | .mark n tag note => tagOk (.sad n) tag && textOk note
  | .mode ch tag t => tagOk ch tag && targetOk t
  | .modeComplete => true
  | .plaitShow ch tag start n => tagOk ch tag && start < 256 && 1 ≤ n && n ≤ 256
  | .plaitPut tag pos els => tagOk .adm tag && pos < 256 && 1 ≤ els.length && els.length ≤ 64
  | .plaitApply tag => tagOk .adm tag
  | .plaitAuto tag => tagOk .adm tag
  | .qreset ch sad => scopeOk ch sad
  | .read n tag a => tagOk (.sad n) tag && a.girth.all girthOk && 1 ≤ a.len && a.len ≤ 67108864 && xferOk a.dst
  | .readDelivered _ => true
  | .rollback tag t => tagOk .adm tag && t.all (· < 2 ^ 32)
  | .saddleOpen tag _ => tagOk .adm tag
  | .saddleClose tag _ => tagOk .adm tag
  | .saddleSet ch tag n a => tagOk ch tag && scopeOk ch (some n) && sadSetOk a
  | .seal tag _ on slot => tagOk .adm tag && (!on || slot.isSome)
  | .set ch tag pairs => tagOk ch tag && !pairs.isEmpty && (pairs.map (·.1)).Nodup
  | .space ch tag sad b => tagOk ch tag && sadOk ch sad && spaceOk b
  | .sreset ch tag sad => tagOk ch tag && sadOk ch sad
  | .status ch tag sad => tagOk ch tag && scopeOk ch sad
  | .sync n tag => tagOk (.sad n) tag
  | .syncComplete _ => true
  | .testDram tag p => tagOk .adm tag && passOk p
  | .testFlash tag p => tagOk .adm tag && passOk p
  | .testLoop tag p => tagOk .adm tag && passOk p
  | .testPattern tag p => tagOk .adm tag && passOk p
  | .testComplete _ => true
  | .time ch tag t text => tagOk ch tag && (t.isSome || text.isSome) && text.all textOk &&
      t.all fun x => -(2 : Int) ^ 63 ≤ x && x < (2 : Int) ^ 63
  | .unload tag => tagOk .adm tag
  | .unloadComplete _ => true
  | .updateBegin tag target len =>
    tagOk .adm tag && 520 ≤ len && len % 8 == 0 && len ≤ (if target == .stage1 then 262144 else 16777216)
  | .updateData tag off d _ => tagOk .adm tag && off ≤ 16777216 && 8 ≤ d.length && d.length ≤ 56 && d.length % 8 == 0
  | .updateDma tag off addr len d _ =>
    tagOk .adm tag && off ≤ 16777216 && addr < 2 ^ 64 && 1 ≤ len && len ≤ 16777216 && d.length == len
  | .updateEnd tag _ => tagOk .adm tag
  | .updateCancel tag => tagOk .adm tag
  | .write n tag a => tagOk (.sad n) tag && 1 ≤ a.len && a.len ≤ 1610612736 && xferOk a.src
  | .acknowledge _ => true
  | .saddleReset _ => true
  | .saddleResetDone _ => true
  | .guardHoldTimeout => true
  | .lockWaitExpiry _ => true
  | .closeTicksExpiry _ => true
  | .plaitEpochStart => true
  | .dataSetBoundary => true
  | .wrapEnd => true
  | .appendPositioning _ => true
  | .rewriteAreaClose => true
  | .rowVerify _ p o => p < 256 && o.bytes.all (·.length == 528)
  | .verifyWedge _ bits _ _ => bits.length ≤ 64
  | .inhibitClear => true
  | .shockNFall => true
  | .shockNRise => true
  | .shockStuck => true
  | .pclRxFrame _ f => f.all (·.length ≤ 64)
  | .readWedgeSync _ w bits _ _ => w.sync.length ≤ 96 && w.bits.length ≤ 256 && bits.length ≤ 64
  | .readRowDecode _ p o => p < 256 && o.resync.length == 36 && o.rounds.all (·.length ≤ 4950)
  | .c3Decode => true
  | .rescuePass obs => obs.all fun o => o.slotpos < 256 && o.rounds.all (·.length == 4752)
  | .readaheadFull => true
  | .readaheadResume => true
  | .servoFrame r => (r.map (·.1)).Nodup
  | .servoBandLost _ => true
  | .servoBandRegained _ => true
  | .wedgePositionLost => true
  | .tensionFault => true
  | .mdlRxFrame f => f.all (·.length ≤ 64)
  | .backhitchStart => true
  | .backhitchResume => true
  | .cmBackoffExpiry _ => true
  | .cmTimeout => true
  | .poolAuditWalkEnd t => (t.map (·.1)).Nodup
  | .descriptorParityError => true
  | .flashOpComplete _ _ a => a < 2 ^ 26
  | .flashReadSuspend => true
  | .flashDescriptor _ _ => true
  | .flashAccess _ a => a < 2 ^ 32
  | .trialMark => true
  | .fwConfirm => true
  | .cmdDb _ _ => true
  | .rplDb _ _ => true
  | .cmdSlotFetch _ _ => true
  | .ringCtlWrite _ _ => true
  | .irqCauseWrite _ _ _ => true
  | .irqCoalWrite _ _ _ => true
  | .pfIrqCauseWrite _ => true
  | .pfIrqCoalWrite _ => true
  | .registerWrite _ off len _ => barOk off len
  | .barBadRead _ off len => barOk off len
  | .loHalfRead _ off => barOk off 4
  | .hiHalfRead _ off => barOk off 4
  | .tickStatRead => true
  | .pwrStatRead => true
  | .conStatRead => true
  | .codeStatRead _ => true
  | .poolStatRead => true
  | .ringStatRead _ => true
  | .halfStatRead _ => true
  | .spStatRead => true
  | .shockMgRead => true
  | .evtStatRead => true
  | .flashStatRead => true
  | .msixUnmask _ _ => true
  | .vfFlr _ => true
  | .pfReset _ => true
  | .vfEnableChange _ n => n < 65536
  | .dmaComplete _ _ _ => true
  | .tlpError _ => true
  | .spDataWord _ _ => true
  | .spControlByte _ _ => true
  | .spSelect _ _ _ => true
  | .sensorPoll s t u => s.length ≤ 4 && t.length ≤ 4 && u.length ≤ 4
  | .undervoltageRelease _ _ _ _ => true
  | .pcieLinkUp speed width => 1 ≤ speed && speed ≤ 4 && (width == 1 || width == 2 || width == 4 || width == 8)
  | .firmwareAssertion => true
  | .thermalCauseCleared _ => true
  | .crystalReturn => true

end Sys2Proof
end

