-- ==== Sys2Proof/Tests/Slice0.lean ====
section
/-! SUPPORT. The author's own tests: what WellFormed refuses, states that meet the hypotheses of every statement, and single steps
against values worked out from spec/. -/

namespace Sys2Proof.Tests

open Sys2Proof Sys2Proof.Machine

set_option Elab.async false

/-! ### WellFormed -/

/-- Commands at the limits of their ranges are well formed. -/
theorem test_wf_accepts : ([
    .tickBoundary { busyPct := 100 }, .ftickEdge 1 0, .consoleBreak 1, .commandStart .adm (some [(2 ^ 64 - 1, 1)]), .abort .adm 7 none,
    .activate (some 7) .b true, .cal none [.adc] none, .clear .adm (some 0) (some 7), .cmRead none (.raw 32767 64), .commit none "",
    .confirm none .kek "A2Z9BC", .discard (.sad 1) (some 31) none (some (2 ^ 40 - 1)), .events .adm none none 64 .info,
    .locate .adm none none (.ds 7553087), .logText .adm none "x", .mode .adm none .service, .plaitPut none 255 [.fill],
    .read 0 (some 31) { len := 67108864 }, .saddleSet .adm none 0 { rate := some 3612 }, .seal none 0 false none,
    .set .adm none [({ id := .sadRate }, .n 0)], .space .adm none (some 0) (.marks (-65535)), .testDram none 1000,
    .time .adm none (some (-(2 ^ 63))) none, .updateBegin none .stage1 262144, .updateData none 0 [0, 0, 0, 0, 0, 0, 0, 0] true,
    .write 0 none { len := 1, src := .sgt 0 1024 }, .registerWrite 0 0xFFFF 8 0, .vfEnableChange true 8, .pcieLinkUp 4 8] : List Instr).all
    Instr.wf = true := by decide +kernel

/-- Each check of WellFormed refuses a term: the tick, periods, tables, tags, scopes, texts, codes, ranges, lists and lengths. -/
theorem test_wf_refuses : ([
    .tickBoundary { busyPct := 101 }, .ftickEdge 0 0, .consoleBreak 0, .commandStart .adm (some [(2 ^ 64, 1)]), .abort .adm 8 none,
    .abort (.sad 0) 0 (some 1), .activate (some 8) .b true, .cal none [] none, .calComplete [{ item := .eq, pass := true, value := 0, perCh := [(8, [])] }] 0,
    .clear .adm (some 0) none, .clear (.sad 0) (some 32) none, .cmRead none (.raw 32768 1), .commit none "a\"b", .confirm none .kek "A1Z9BC",
    .discard .adm none (some 0) (some (2 ^ 40)), .events .adm none none 65 .info, .get .adm none [], .loadComplete { cm := some [] },
    .locate .adm none none (.ds 7553088), .tapePositioned .adm 7553088 0 0 none, .logText .adm none "", .mode .adm none .halt,
    .plaitShow .adm none 256 1, .plaitPut none 0 [], .read 0 none { len := 0 }, .rollback none (some (2 ^ 32)), .saddleSet .adm none 0 {},
    .saddleSet .adm none 0 { rate := some 3613 }, .seal none 0 true none, .set .adm none [({ id := .sadRate }, .n 0), ({ id := .sadRate }, .n 1)],
    .space .adm none (some 0) (.marks 0), .testDram none 1001, .time .adm none none none, .updateBegin none .a 519,
    .updateData none 0 [0] true, .updateDma none 0 0 2 [0] true, .write 0 none { len := 1, src := .sg [] }, .rowVerify 0 256 { bytes := none, iters := 0, snrQ := 0 },
    .readRowDecode 0 0 { resync := [], rounds := [] }, .rescuePass [{ ch := 0, slotpos := 0, rounds := [[]] }], .readWedgeSync 0 { sync := List.replicate 97 true } [] 0 0,
    .servoFrame [(0, { p := [], v := [], n := [], pNext := [] }), (0, { p := [], v := [], n := [], pNext := [] })],
    .poolAuditWalkEnd [(0, 1), (0, 2)], .flashOpComplete .erase true (2 ^ 26), .flashAccess true (2 ^ 32), .registerWrite 0 0x10000 4 0,
    .barBadRead 0 0 3, .vfEnableChange true 65536, .sensorPoll [.fail true, .fail true, .fail true, .fail true, .fail true] [] [],
    .pcieLinkUp 5 1] : List Instr).all (fun i => !i.wf) = true := by decide +kernel

/-! ### States -/

/-- A running part in PARK: out of reset, start-up ended, nothing loaded. -/
def on : State := { State.reset with clk := { porst := false, session := 1 }, pw := { devReady := true, mode := .park, target := .park } }

/-- A running part in STREAM with a cartridge at its append point and the tape at speed. -/
def str : State := { on with
  pw := { on.pw with mode := .stream, target := .stream, dom := { motion := .on } }
  cart := { loaded := true, threaded := true, present := true }
  med := { positioned := true, plait := { marker := some 1, slots := [.owner 2, .fill] } }
  srv := { speed := 5000, setSpeed := 5 } }

/-- The state after a command, where it gives one. -/
def after (c : Instr) (s : State) : Option State := match exec c s with
  | .next t => some t
  | _ => none

/-- The fault of a command, where it ends in one. -/
def faultOf (c : Instr) (s : State) : Option Fault := match exec c s with
  | .fault f => some f
  | _ => none

/-- `s` with one executing command on a channel. -/
def exe (s : State) (ch : Chan) (t : Nat) (v : Verb) (tr : Transport := .pf0) : State :=
  withQueue s ch { entries := [{ tag := t, verb := v, tr := tr, seq := 0, phase := .executing }] }

/-- `s` with some entries on a saddle's channel. -/
def sadQ (s : State) (n : SadNo) (l : List Entry) : State := withQueue s (.sad n) { entries := l }

/-- A verb runs in a state that holds it alone, executing. -/
theorem exe_runs {s : State} {ch : Chan} {t : Nat} {v : Verb} {tr : Transport} (h : t < tagCount ch) (hl : live s = true)
    (hr : ready s = true) : Runs (exe s ch t v tr) ch t v := by
  cases ch with
  | adm => exact ⟨hl, hr, h, { tag := t, verb := v, tr := tr, seq := 0, phase := .executing },
      by simp [entryOf, queueOf, exe, withQueue], rfl, rfl, rfl, rfl⟩
  | sad n => exact ⟨hl, hr, h, { tag := t, verb := v, tr := tr, seq := 0, phase := .executing },
      by simp [entryOf, queueOf, exe, withQueue, modSad], rfl, rfl, rfl, rfl⟩

/-- A running verb beside a further hypothesis. -/
theorem met {ch : Chan} {t : Nat} {v : Verb} {h : State → Prop} (s : State) (tr : Transport) (ht : t < tagCount ch)
    (hs : live s = true ∧ ready s = true) (hh : h (exe s ch t v tr)) : ∃ u, Runs u ch t v ∧ h u :=
  ⟨_, exe_runs ht hs.1 hs.2, hh⟩

/-- A running verb of the part in PARK beside a further hypothesis. -/
theorem runs_on' {ch : Chan} {t : Nat} {v : Verb} {h : State → Prop} (ht : t < tagCount ch) (hh : h (exe on ch t v .pf0)) : ∃ s, Runs s ch t v ∧ h s :=
  met on .pf0 ht ⟨rfl, rfl⟩ hh

/-- A running verb, with the entry that holds it. -/
theorem metE {ch : Chan} {t : Nat} {v : Verb} {h : State → Prop} (s : State) (tr : Transport) (ht : t < tagCount ch)
    (hs : live s = true ∧ ready s = true) (hh : h (exe s ch t v tr)) :
    ∃ u e, Runs u ch t v ∧ entryOf u ch t = some e ∧ e.tr = tr ∧ h u :=
  ⟨exe s ch t v tr, { tag := t, verb := v, tr := tr, seq := 0, phase := .executing }, exe_runs ht hs.1 hs.2, by
    cases ch <;> simp [entryOf, queueOf, exe, withQueue, modSad], rfl, hh⟩

/-! ### Witnesses: the block, the tick and the chip -/

/-- PartInResetDoesNothing: a part in reset for either cause, and one stopped at boot. -/
theorem wit_part_in_reset : live State.reset = false ∧ State.reset.clk.porst = true ∧
    (let s := { State.reset with clk := { porst := false, uv := true } }; live s = false ∧ s.clk.uv = true) ∧
    (let s := { on with pw := { on.pw with dead := true } }; live s = false ∧ s.clk.porst = false ∧ s.clk.uv = false ∧ s.pw.dead = true) := by
  decide +kernel

/-- OnlyDescriptorBeyondDramFaults: the fault occurs. -/
theorem wit_descriptor_faults : faultOf (.flashDescriptor 0 none) { on with fl := { on.fl with
    queueOpen := true, queue := [{ op := 1, faddr := 0, daddr := 0x3FFFFFFFC, len := 8 }] } } = some (.dramHole 0x3FFFFFFFC) := by decide +kernel

/-- EveryStepKeepsClock and OnlyTicksAndResetsAlterPtc: a step of a state that meets the invariant answers a next state. -/
theorem wit_clock : ClkInv on ∧ clkStepOf .xtalLost = false ∧ (match step { on with pending := [.xtalLost] } with
    | .next t => t.clk.session == 1#64
    | _ => false) = true :=
  ⟨⟨fun h => absurd h (by decide +kernel), fun _ => by decide +kernel⟩, rfl, by decide +kernel⟩

/-- MemoryReadAfterWrite: memories in canonical form. -/
theorem wit_memory : Mem.wf { cells := [(3, 1), (7, 255)] } = true ∧ on.dram.wf = true := by decide +kernel

/-- TickBoundaryAdvancesPtc and FtickLocksAndFlywheels: the crystal, FTICK locked and unlocked, with the eighth consistent period and one that
does not fit, at both ends of the range and just out of it. -/
theorem wit_ticks : live on = true ∧ on.tk.ftick = false ∧ (let s := { on with tk := { on.tk with ftick := true, locked := true } }
    live s = true ∧ s.tk.ftick = true ∧ s.tk.locked = true) ∧
    (let s := { on with tk := { on.tk with ftick := true, run := List.replicate 7 100000 } }
     live s = true ∧ s.tk.ftick = true ∧ s.tk.locked = false ∧ consistent (100000 :: s.tk.run) = true ∧
     8 ≤ ((fitRun 100000 s.tk.run).take 8).length ∧ ((fitRun 200000 s.tk.run).take 8).length = 1) ∧
    consistent [100000, 100101] = false ∧ 49999 < 50000 ∧ 200000 < 200001 ∧ 50000 ≤ 200000 := by decide +kernel

/-- ResetsClearTheState and StartsDrawASessionId: either cause alone, and both. -/
theorem wit_resets : on.clk.porst = false ∧ on.pw.pf.recPend = false ∧
    (∀ b, let s := { on with pw := { on.pw with pf := { recPend := true } }, fl := { on.fl with pfSecond := b } }
      s.pw.pf.recPend = true ∧ s.fl.pfSecond = b ∧ s.clk.porst = false) ∧ State.reset.clk.porst = true ∧ State.reset.clk.uv = false ∧
    (let s := { State.reset with clk := { porst := false, uv := true } }; s.clk.uv = true ∧ s.clk.porst = false) ∧
    (let s := { State.reset with clk := { porst := true, uv := true } }; s.clk.uv = true ∧ s.clk.porst = true) ∧ (1#64 ≠ 0#64) := by decide +kernel

/-- StartUpEndsInParkOrHalt and CoreRestartsRunStartUpAgain: start-up alone, with HALT in force, and after the watchdog with its cause to
enter or in force; a part that restarts. -/
theorem wit_start_up : (let s := { on with pw := {} }; live s = true ∧ s.pw.recovery = false ∧ s.pw.devReady = false ∧ s.pw.restartHalt = false) ∧
    (let s := { on with pw := { restartHalt := true, mode := .halt, cause := .firmware } }
     live s = true ∧ s.pw.devReady = false ∧ s.pw.restartHalt = true ∧ s.pw.mode = .halt) ∧
    (let s := { on with pw := { restartHalt := true, haltPend := some .watchdog } }
     live s = true ∧ s.pw.devReady = false ∧ s.pw.restartHalt = true ∧ s.pw.mode ≠ .halt ∧ s.pw.haltPend = some .watchdog) ∧
    (let s := { on with pw := { on.pw with restartPend := true } }; live s = true ∧ s.pw.restartPend = true) ∧ live on = true ∧ ready on = true := by
  decide +kernel

/-- HaltCauses and PowerFailSteps. -/
theorem wit_halt_and_power_fail : (let s := { on with srv := { outTicks := 20 } }; live s = true ∧ 20 ≤ s.srv.outTicks) ∧
    ({ on with pw := { on.pw with thermCap := true } } : State).pw.thermCap = true ∧ (99 : Int) < 100 ∧
    live on = true ∧ on.pw.pf.recognised = false ∧ on.pw.pf.waiting = false ∧ on.pw.pf.recPend = false ∧ on.med.flush = false ∧
    (let s := { on with pw := { on.pw with pf := { recPend := true, waiting := true } } }; live s = true ∧ s.pw.pf.recPend = true ∧ s.pw.pf.waiting = true) ∧
    (let s := { on with med := { flush := true, flushStep := 4 } }; live s = true ∧ s.med.flush = true ∧ 4 ≤ s.med.flushStep) ∧
    (let s := { on with med := { flush := true, flushStep := 3 } }; live s = true ∧ s.med.flushStep < 4) := by decide +kernel

/-- VoltageLoopUpdates: 16 ticks after the update before, the loop runs, has failed twice, and has written a setpoint; a frozen loop; an
update that comes early. -/
theorem wit_voltage_loop : (let s := { on with clk := { on.clk with ptc := 16 }, pw := { on.pw with avs := { enabled := true, failRun := 2, wrote := true } } }
    live s = true ∧ s.pw.avs.enabled = true ∧ s.pw.avs.offBit = false ∧ s.pw.avs.last.toNat + 16 ≤ now s ∧
    0 ≤ pint s .avsFloor ∧ pint s .avsFloor ≤ pint s .avsCeiling ∧
    s.pw.avs.failRun = 2 ∧ s.pw.avs.wrote = true ∧ (((850 : Nat) : Int) - s.pw.avs.vset).natAbs ≤ 15) ∧
    (let s := { on with clk := { on.clk with ptc := 16 }, pw := { on.pw with avs := { frozen := true } } }
     live s = true ∧ s.pw.avs.frozen = true ∧ s.pw.avs.last.toNat + 16 ≤ now s) ∧
    (let s := { on with clk := { on.clk with ptc := 15 } }; live s = true ∧ now s < s.pw.avs.last.toNat + 16) := by decide +kernel

/-! ### Witnesses: lines and queues -/

/-- ConsoleLineSteps. -/
theorem wit_console : live on = true ∧ on.fil.conIgnore = false ∧ on.fil.con.mode = .typed ∧ on.fil.con.line.length < 200 ∧
    (let s := { on with fil := { con := { mode := .generated } } }; live s = true ∧ s.fil.conIgnore = false ∧ s.fil.con.mode = .generated) ∧
    on.fil.conFault = false ∧ 2 * 57599 < on.fil.baud ∧ live { on with fil := { conFault := true } } = true := by decide +kernel

/-- LinesAreTakenInTurn: the turn after the console is PF0's; a spent budget; no line. -/
theorem wit_intake : (let s := { on with fil := { waiting := [(.vf 0, [{ bytes := [] }]), (.pf0, [{ bytes := [] }, { bytes := [1] }])] } }
    live s = true ∧ s.fil.taken < budget s 32 ∧ nextTransport s = some (.pf0, false) ∧ look .pf0 s.fil.waiting = some [{ bytes := [] }, { bytes := [1] }]) ∧
    (let s := { on with fil := { taken := 32 } }; live s = true ∧ budget s 32 ≤ s.fil.taken) ∧ nextTransport on = none ∧
    isRead on .pf0 = true ∧ bindOf (cfgPut on { id := .sadBind, i := 3 } (.n 6)) 3 ≠ .vf := by decide +kernel

/-- An entry of a verb. -/
def ent (t : Nat) (v : Verb) : Entry := { tag := t, verb := v, tr := .pf0, seq := 0 }

/-- QueueAdmission: seven tags in use, all eight, and a tag in use. -/
theorem wit_admission : (let l := (List.range 7).map fun k => ent k .configs; l.length < 8 ∧ ∀ e ∈ l, e.tag ≠ 7) ∧
    tagCount .adm ≤ ((List.range 8).map fun k => ent k .configs).length ∧ tagCount (.sad 0) = 32 ∧
    (let s := { on with adm := { entries := [ent 3 .configs] } }; (queueOf s .adm).entries.length < tagCount .adm ∧ ent 3 .configs ∈ (queueOf s .adm).entries) := by
  decide +kernel

/-- CommandStarts: in HALT a verb that HALT does not permit, a refused one, and one that starts. -/
theorem wit_command_start :
    (let s := { on with pw := { on.pw with mode := .halt }, adm := { entries := [ent 3 .load] } }
     live s = true ∧ nextStart s.adm.entries = some (ent 3 .load) ∧ s.pw.trans = none ∧ modePermits .halt .adm .load = false) ∧
    (let s := sadQ { on with sad := on.sad.set 2 { st := .hold } } 2 [ent 3 (.mark "")]
     live s = true ∧ nextStart (queueOf s (.sad 2)).entries = some (ent 3 (.mark "")) ∧ s.sad[(2 : SadNo)].reset = none ∧
     s.pw.mode ≠ .halt ∧ (turnRefusal s (.sad 2) (.mark "")).isSome = true) ∧
    (let s := { on with adm := { entries := [ent 3 .configs] } }
     live s = true ∧ nextStart s.adm.entries = some (ent 3 .configs) ∧ s.pw.mode ≠ .halt ∧ turnRefusal s .adm .configs = none ∧ runKind .configs = 0) ∧
    (∀ v ∈ [Verb.read { len := 1, dst := .sg [(0, 1)] }, .mark "", .write { len := 8, src := .words [5] }, .write { len := 8, src := .sg [(0, 8)] }],
     let s := sadQ { str with sad := str.sad.set 2 { st := .opened } } 2 [ent 3 v]
     let u := cfgPut s { id := .sadFollow, i := 1 } (.n 3)
     let f := { u with med := { u.med with locks := List.replicate 64 (2, 4, 0, 1) } }
     live s = true ∧ nextStart (queueOf s (.sad 2)).entries = some (ent 3 v) ∧ s.sad[(2 : SadNo)].reset = none ∧ s.pw.trans = none ∧
     s.pw.mode ≠ .halt ∧ turnRefusal s (.sad 2) v = none ∧ followed s 2 = false ∧ followed u 2 = true ∧ turnRefusal u (.sad 2) v = none ∧
     u.med.locks.length < 64 ∧ turnRefusal f (.sad 2) v = none ∧ followed f 2 = true ∧ 64 ≤ f.med.locks.length) := by
  decide +kernel

/-- AbortAtBoundary: no such tag, a queued command, one that has committed, one whose outcome has not, and a sample port's saddle. -/
theorem wit_abort : entryOf on .adm 3 = none ∧
    (let e := { ent 3 .configs with ended := some { status := .ok }, phase := .committed }
     entryOf { on with adm := { entries := [e] } } .adm 3 = some e ∧ e.phase = .committed) ∧
    (let e := ent 3 .configs; let s := { on with adm := { entries := [e] } }
     entryOf s .adm 3 = some e ∧ e.ended = none ∧ e.phase = .queued ∧ e.posted = false ∧ s.pw.trans = none) ∧
    (let e := { ent 3 .configs with ended := some { status := .eom } }
     entryOf { on with adm := { entries := [e] } } .adm 3 = some e ∧ e.phase ≠ .committed ∧ e.posted = false ∧ e.ended.isSome = true) ∧
    (let s := cfgPut on { id := .sadBind, i := 2 } (.n 3); bindOf s 2 = .sp 1 ∧ s.sad[(2 : SadNo)].reset = none) ∧ bindOf on 2 ≠ .sp 1 := by
  decide +kernel

/-- ReportsChangeNothing: on the admin channel and on a saddle's. -/
theorem wit_reports : (∃ s, Runs s .adm 7 .keyList) ∧ (∃ s, Runs s (.sad 7) 31 .infoDev) ∧ (∃ s, Runs s .adm 0 (.get ["tick.state"])) ∧
    getScope .adm ["tick.state"] = .ok () ∧ (∃ s, Runs s (.sad 0) 0 (.events none 64 .info)) ∧ (∃ s, Runs s .adm 0 (.plaitShow 0 256)) ∧
    (∃ s, Runs s .adm 0 (.status none)) ∧ (∃ s, Runs s .adm 0 (.hello none)) :=
  ⟨⟨exe on _ _ _, exe_runs (by decide) rfl rfl⟩, ⟨exe on _ _ _, exe_runs (by decide) rfl rfl⟩, ⟨exe on _ _ _, exe_runs (by decide) rfl rfl⟩, rfl,
   ⟨exe on _ _ _, exe_runs (by decide) rfl rfl⟩, ⟨exe on _ _ _, exe_runs (by decide) rfl rfl⟩, ⟨exe on _ _ _, exe_runs (by decide) rfl rfl⟩,
   ⟨exe on _ _ _, exe_runs (by decide) rfl rfl⟩⟩

/-! ### Witnesses: saddles, settings and services -/

/-- A channel whose verb runs while nothing else is asked of the state. -/
theorem runs_on {ch : Chan} {t : Nat} {v : Verb} (h : t < tagCount ch) : ∃ s, Runs s ch t v := ⟨exe on _ _ _, exe_runs h rfl rfl⟩

/-- Saddle 2 bound to VF3 and open. -/
def bound : State := cfgPut (cfgPut { on with sad := on.sad.set 2 { st := .opened, next := 9, unsync := [(5, 4096), (7, 4096)] } }
  { id := .sadBind, i := 2 } (.n 1)) { id := .sadBind, i := 3 } (.n 6)

/-- ClearAndDiscard: CLEAR out of HOLD and in HOLD; DISCARD from the first that can be dropped, below it, and beside a WRITE. -/
theorem wit_clear_discard : targetOf .adm (some 2) = some 2 ∧ targetOf (.sad 2) none = some 2 ∧
    (∃ s, Runs s .adm 0 (.clear (some 2)) ∧ s.sad[(2 : SadNo)].st ≠ .hold) ∧
    (∃ s, Runs s (.sad 2) 31 (.clear none) ∧ s.sad[(2 : SadNo)].st = .hold) ∧
    (∃ s, Runs s .adm 0 (.discard (some 2) (some 5)) ∧ (s.sad[(2 : SadNo)].q.entries.any fun e =>
      e.phase == .executing && e.ended.isNone && runKind e.verb = 1) = false ∧ firstDroppable s 2 = 5) ∧
    (∃ s, Runs s .adm 0 (.discard (some 2) (some 4)) ∧ 4 < firstDroppable s 2) ∧
    (∃ s, Runs s .adm 0 (.discard (some 2) none) ∧ (s.sad[(2 : SadNo)].q.entries.any fun e =>
      e.phase == .executing && e.ended.isNone && runKind e.verb = 1) = true) :=
  ⟨rfl, rfl, met bound .pf0 (by decide) ⟨rfl, rfl⟩ (by decide +kernel),
   met { on with sad := on.sad.set 2 { st := .hold } } .pf0 (by decide) ⟨rfl, rfl⟩ (by decide +kernel),
   met bound .pf0 (by decide) ⟨rfl, rfl⟩ (by decide +kernel), met bound .pf0 (by decide) ⟨rfl, rfl⟩ (by decide +kernel),
   met (sadQ bound 2 [{ ent 0 (.mark "") with phase := .executing }]) .pf0 (by decide) ⟨rfl, rfl⟩ (by decide +kernel)⟩

/-- SaddleResets: asked for, asked for while one runs, run for its 17 ticks, and masked. -/
theorem wit_saddle_resets : (∃ s, Runs s .adm 0 (.sreset (some 2))) ∧
    (let s := { on with sad := on.sad.set 2 { resetReq := true } }; live s = true ∧ s.sad[(2 : SadNo)].resetReq = true ∧ s.sad[(2 : SadNo)].reset = none) ∧
    (let s := { on with sad := on.sad.set 2 { resetReq := true, reset := some { start := 1, ticks := 18, overruns := 1 }, irq := { masked := true } } }
     live s = true ∧ s.sad[(2 : SadNo)].resetReq = true ∧ s.sad[(2 : SadNo)].reset = some { start := 1, ticks := 18, overruns := 1 } ∧
     16 ≤ 17 - 1 ∧ 16 - 1 < 16 ∧ s.sad[(2 : SadNo)].irq.masked = true) :=
  ⟨runs_on (by decide), by decide +kernel, by decide +kernel⟩

/-- SaddleVerbs: saddles that open, close, are open, unbound or busy; SEAL of a loaded slot, of an empty one, and off. -/
theorem wit_saddle_verbs :
    (∃ s, Runs s .adm 0 (.saddleOpen 3) ∧ bindOf s 3 ≠ .none ∧ s.sad[(3 : SadNo)].st = .closed ∧
      (admitPlait (modSad (quiet s) 3 fun x => { x with st := .opened, credits := Vector.replicate 8 0, freeCredit := 0 })).isSome = true) ∧
    (∃ s, Runs s .adm 0 (.saddleOpen 3) ∧ bindOf s 3 ≠ .none ∧ s.sad[(3 : SadNo)].st = .closed ∧
      admitPlait (modSad (quiet s) 3 fun x => { x with st := .opened, credits := Vector.replicate 8 0, freeCredit := 0 }) = none) ∧
    (∃ s, Runs s .adm 0 (.saddleOpen 4) ∧ bindOf s 4 = .none) ∧
    (∃ s, Runs s .adm 0 (.saddleOpen 2) ∧ bindOf s 2 ≠ .none ∧ s.sad[(2 : SadNo)].st ≠ .closed) ∧
    (∃ s, Runs s .adm 0 (.saddleClose 3) ∧ sadIdle s 3 none = true ∧
      (admitPlait (modSad (quiet s) 3 fun x => { x with st := .closed })).isSome = true) ∧
    (∃ s, Runs s .adm 0 (.saddleClose 2) ∧ sadIdle s 2 none = false) ∧
    (∃ s, Runs s .adm 0 (.seal 3 true (some 15)) ∧ sadIdle s 3 none = true ∧ s.keys.slots[(15 : Fin 16)].isSome = true) ∧
    (∃ s, Runs s .adm 0 (.seal 3 false none) ∧ sadIdle s 3 none = true) ∧
    (∃ s, Runs s .adm 0 (.seal 3 true (some 15)) ∧ sadIdle s 3 none = true ∧ s.keys.slots[(15 : Fin 16)] = none) :=
  ⟨met bound .pf0 (by decide) ⟨rfl, rfl⟩ (by decide +kernel),
   met (cfgPut (cfgPut bound { id := .sadClass, i := 3 } (.n 0)) { id := .sadRate, i := 3 } (.n 1)) .pf0 (by decide) ⟨rfl, rfl⟩ (by decide +kernel),
   met (cfgPut bound { id := .sadBind, i := 4 } (.n 0)) .pf0 (by decide) ⟨rfl, rfl⟩ (by decide +kernel),
   met bound .pf0 (by decide) ⟨rfl, rfl⟩ (by decide +kernel), met bound .pf0 (by decide) ⟨rfl, rfl⟩ (by decide +kernel),
   met bound .pf0 (by decide) ⟨rfl, rfl⟩ (by decide +kernel),
   met { bound with keys := { slots := Vector.replicate 16 (some []) } } .pf0 (by decide) ⟨rfl, rfl⟩ (by decide +kernel),
   met bound .pf0 (by decide) ⟨rfl, rfl⟩ (by decide +kernel), met bound .pf0 (by decide) ⟨rfl, rfl⟩ (by decide +kernel)⟩

/-- SettingsWaitForBoundary: a tagged SET and SADDLE SET, and a SET whose parameter the mode does not let change. -/
theorem wit_settings : (∃ s e, Runs s .adm 0 (.set []) ∧ entryOf s .adm 0 = some e ∧ e.tr = .pf0 ∧ True) ∧
    (∃ s e, Runs s (.sad 2) 0 (.saddleSet 2 {}) ∧ entryOf s (.sad 2) 0 = some e ∧ e.tr = .vf 2 ∧ True) ∧
    setScope .adm (some 0).isNone [({ id := .sadBind }, .n 0)] = .ok () ∧ changeable str.pw.mode (pspec PId.sadBind).modes = false :=
  ⟨metE on .pf0 (by decide) ⟨rfl, rfl⟩ trivial, metE on (.vf 2) (by decide) ⟨rfl, rfl⟩ trivial, rfl, by decide +kernel⟩

/-- PlaitVerbs: a list that ends at slot 255, a staged list, an incomplete one, and AUTO with and without room. -/
theorem wit_plait : (∃ s, Runs s .adm 0 (.plaitPut 255 [.fill])) ∧ 255 + [SlotEl.fill].length ≤ 256 ∧
    (∃ s, Runs s .adm 0 .plaitApply ∧ stagedList s = some [.fill, .owner 2] ∧ (manualPlait s [.fill, .owner 2]).isSome = true) ∧
    255 + [SlotEl.fill, .fill].length > 256 ∧ (∃ s, Runs s .adm 0 .plaitApply ∧ stagedList s = none) ∧
    (∃ s, Runs s .adm 0 .plaitApply ∧ stagedList s = some [.fill] ∧ manualPlait s [.fill] = none) ∧ (∃ s, Runs s .adm 0 .plaitAuto ∧ (autoPlait s).isSome = true) ∧
    (∃ s, Runs s .adm 0 .plaitAuto ∧ autoPlait s = none) :=
  ⟨runs_on (by decide), by decide, met { on with med := { staged := [(1, .owner 2), (0, .fill)] } } .pf0 (by decide) ⟨rfl, rfl⟩ (by decide +kernel),
   by decide, met { on with med := { staged := [(1, .owner 2)] } } .pf0 (by decide) ⟨rfl, rfl⟩ (by decide +kernel),
   met (cfgPut (cfgPut (cfgPut { bound with med := { staged := [(0, .fill)] } } { id := .sadBind, i := 2 } (.n 6)) { id := .sadClass, i := 2 } (.n 0))
     { id := .sadRate, i := 2 } (.n 1)) .pf0 (by decide) ⟨rfl, rfl⟩ (by decide +kernel),
   met on .pf0 (by decide) ⟨rfl, rfl⟩ (by decide +kernel),
   met (cfgPut (cfgPut (cfgPut bound { id := .sadBind, i := 2 } (.n 6)) { id := .sadClass, i := 2 } (.n 0)) { id := .sadRate, i := 2 } (.n 1)) .pf0 (by decide) ⟨rfl, rfl⟩ (by decide +kernel)⟩

/-- A kept configuration record. -/
def rec7 : CfgRec := { version := 7, parent := 0, fw := 0, schema := 0, ptc := 0, session := 1, note := "", body := [] }

/-- ConfigurationVersions: COMMIT with and without flash work, one that has programmed, ROLLBACK to a kept version and to none. -/
theorem wit_versions : (∃ s, Runs s .adm 0 (.commit "") ∧ flashBusy s = false) ∧ (∃ s, Runs s .adm 0 (.commit "") ∧ flashBusy s = true) ∧
    (let e := { ent 3 (.commit "x") with phase := .executing, begun := true }
     let s := { on with adm := { entries := [e] }, fl := { opRun := some .program } }
     live s = true ∧ s.fl.opRun = some .program ∧ flashCommand s = some e ∧ entryOf s .adm 3 = some e) ∧
    (∃ s, Runs s .adm 0 (.rollback (some 7)) ∧ rollbackRec s 7 = some rec7 ∧
      (((recordPairs rec7).filter fun (p, _) => cfgVal s p != cfgVal (withRecord s rec7) p).findSome? fun (p, _) =>
        valueBad s (withRecord s rec7) none p) = none ∧ (admitPlait (withRecord s rec7)).isSome = true) ∧
    (∃ s, Runs s .adm 0 (.rollback none) ∧ ∀ c ∈ s.fl.cfgs, c.version ≠ (none : Option Nat).getD s.cfg.parent) :=
  ⟨met on .pf0 (by decide) ⟨rfl, rfl⟩ (by decide +kernel),
   met { on with fl := { erasing := some 0x200 } } .pf0 (by decide) ⟨rfl, rfl⟩ (by decide +kernel), by decide +kernel,
   met { on with fl := { cfgs := [rec7], a := { factory := false } } } .pf0 (by decide) ⟨rfl, rfl⟩ (by decide +kernel),
   met on .pf0 (by decide) ⟨rfl, rfl⟩ (by decide +kernel)⟩

/-- ConfirmationWindows: a slot that passes, one that fails, CONFIRM in time with the code, and one after the window has lapsed. -/
theorem wit_windows : (∃ s, Runs s .adm 0 (.activate .b) ∧ slotFails s .b true = none ∧ flashBusy s = false) ∧
    (∃ s, Runs s .adm 0 (.activate .b) ∧ slotFails s .b false = some "sig") ∧ (∃ s, Runs s .adm 0 (.arm .kek)) ∧
    (∃ s e, Runs s .adm 0 (.confirm .kek "ABCDEF") ∧ entryOf s .adm 0 = some e ∧ e.tr = .console ∧
      s.svc.arm = some (.kek, "ABCDEF", 1) ∧ now s < (1 : W64).toNat) ∧
    (∃ s e, Runs s .adm 0 (.confirm .kek "ABCDEF") ∧ entryOf s .adm 0 = some e ∧ e.tr = .console ∧
      s.svc.arm = some (.kek, "ABCDEF", 0) ∧ (0 : W64).toNat ≤ now s) :=
  ⟨met on .pf0 (by decide) ⟨rfl, rfl⟩ (by decide +kernel), met on .pf0 (by decide) ⟨rfl, rfl⟩ (by decide +kernel), runs_on (by decide),
   metE { on with svc := { arm := some (.kek, "ABCDEF", 1) } } .console (by decide) ⟨rfl, rfl⟩ (by decide +kernel),
   metE { on with svc := { arm := some (.kek, "ABCDEF", 0) } } .console (by decide) ⟨rfl, rfl⟩ (by decide +kernel)⟩

/-- An image of eight bytes behind its header: the header's digest field holds the body's SHA-256. -/
def image520 : List Byte := List.replicate 24 0 ++ sha256 (List.replicate 8 0x5A) ++ List.replicate 456 0 ++ List.replicate 8 0x5A

/-- UpdateSession. -/
theorem wit_update : (∃ s, Runs s .adm 0 (.updateBegin .b 520) ∧ slotInUse s .b = false) ∧
    (∃ s, Runs s .adm 0 (.updateBegin .stage1 520) ∧ windowOpen s .stage1 = true) ∧
    (∃ s, Runs s .adm 0 (.updateBegin .stage1 520) ∧ windowOpen s .stage1 = false) ∧
    (∃ s, Runs s .adm 0 (.updateBegin .a 520) ∧ slotInUse s .a = true) ∧
    (∃ s, Runs s .adm 0 (.updateData 0 [1, 2, 3, 4, 5, 6, 7, 8]) ∧ s.svc.upd = some { target := .b, len := 520 } ∧ s.svc.nextOff = 0 ∧ s.fl.queue = [] ∧ 0 + 8 < 512) ∧
    (∃ s, Runs s .adm 0 (.updateData 8 []) ∧ 8 ≠ s.svc.nextOff) ∧
    (∃ s e, Runs s .adm 0 (.updateDma 0 64 8) ∧ entryOf s .adm 0 = some e ∧ e.tr = .pf0 ∧
      s.svc.upd = some { target := .b, len := 520 } ∧ s.svc.nextOff = 0 ∧ s.fl.queue = []) ∧
    (∃ s e, Runs s .adm 0 (.updateDma 0 64 8) ∧ entryOf s .adm 0 = some e ∧ e.tr = .console ∧ Transport.console ≠ .pf0) ∧
    (∃ s, Runs s .adm 0 .updateEnd ∧ s.svc.upd = some { target := .b, len := 520, bytes := image520 } ∧ image520.length = 520 ∧ digestOk image520 = true) ∧
    (∃ s, Runs s .adm 0 .updateEnd ∧ s.svc.upd = some { target := .b, len := 520 } ∧ ([] : List Byte).length ≠ 520) ∧
    (∃ s, Runs s .adm 0 .updateEnd ∧ s.svc.upd = none) ∧ (∃ s, Runs s .adm 0 .updateCancel) :=
  ⟨met on .pf0 (by decide) ⟨rfl, rfl⟩ (by decide +kernel),
   met { on with svc := { confirm := some (.stage1, 1) } } .pf0 (by decide) ⟨rfl, rfl⟩ (by decide +kernel),
   met on .pf0 (by decide) ⟨rfl, rfl⟩ (by decide +kernel), met on .pf0 (by decide) ⟨rfl, rfl⟩ (by decide +kernel),
   met { on with svc := { upd := some { target := .b, len := 520 } } } .pf0 (by decide) ⟨rfl, rfl⟩ (by decide +kernel),
   met on .pf0 (by decide) ⟨rfl, rfl⟩ (by decide +kernel),
   metE { on with svc := { upd := some { target := .b, len := 520 } } } .pf0 (by decide) ⟨rfl, rfl⟩ (by decide +kernel),
   metE on .console (by decide) ⟨rfl, rfl⟩ (by decide +kernel),
   met { on with svc := { upd := some { target := .b, len := 520, bytes := image520 } } } .pf0 (by decide) ⟨rfl, rfl⟩ ⟨rfl, by decide +kernel, by decide +kernel⟩,
   met { on with svc := { upd := some { target := .b, len := 520 } } } .pf0 (by decide) ⟨rfl, rfl⟩ (by decide +kernel),
   met on .pf0 (by decide) ⟨rfl, rfl⟩ (by decide +kernel), runs_on (by decide)⟩

/-- A part with nine words staged for slot 15. -/
def staged15 : State := { on with keys := { stage := (Vector.replicate 16 []).set 15 ((List.range 9).map fun i => (i, 0)) } }

/-- A part without a KEK, with an open window and three parts staged. -/
def kekless : State := { on with keys := { kekStage := [(0, 1), (1, 2), (2, 3)] }, svc := { confirm := some (.kek, 1) } }

/-- KeyCommands. The kernel would take minutes to unwrap a pair under a KEK; the clause of a pair that unwraps is met outside this file
by one that an implementation of RFC 3394 of its own has wrapped. -/
theorem wit_keys : (∃ s, Runs s .adm 0 (.keyPart 15 8 0)) ∧
    (∃ s, Runs s .adm 0 (.keyLoad 15) ∧ slotHolders s 15 = [] ∧
      partsBytes 9 s.keys.stage[(15 : Fin 16)] = some (List.replicate 72 0) ∧
      loadedPair s (List.replicate 72 0) = none) ∧
    (∃ s, Runs s .adm 0 (.keyLoad 0) ∧ slotHolders s 0 = [] ∧ partsBytes 9 s.keys.stage[(0 : Fin 16)] = none) ∧
    (∃ s, Runs s .adm 0 (.keyZero 0) ∧ slotHolders s 0 = []) ∧ (∃ s, Runs s .adm 0 (.keyZero 4) ∧ slotHolders s 4 ≠ []) ∧
    (∃ s, Runs s .adm 0 (.keyKek 2 9) ∧ s.keys.kek = none ∧ s.fl.locked = false ∧ windowOpen s .kek = true) ∧
    (∃ s, Runs s .adm 0 (.keyKek 3 9) ∧ s.keys.kek = none ∧ s.fl.locked = false ∧ windowOpen s .kek = true ∧
      (partsBytes 4 (put 3 9 s.keys.kekStage)).isSome = true) ∧
    (∃ s, Runs s .adm 0 (.keyKek 0 9) ∧ s.keys.kek.isSome = true) :=
  ⟨runs_on (by decide), met staged15 .pf0 (by decide) ⟨rfl, rfl⟩ (by decide +kernel), met on .pf0 (by decide) ⟨rfl, rfl⟩ (by decide +kernel),
   met on .pf0 (by decide) ⟨rfl, rfl⟩ (by decide +kernel),
   met (cfgPut (cfgPut { on with sad := on.sad.set 2 { blk := { bytes := [1] } } } { id := .sealOn, i := 2 } (.n 1)) { id := .sealSlot, i := 2 } (.n 4))
     .pf0 (by decide) ⟨rfl, rfl⟩ (by decide +kernel),
   met kekless .pf0 (by decide) ⟨rfl, rfl⟩ (by decide +kernel), met kekless .pf0 (by decide) ⟨rfl, rfl⟩ (by decide +kernel),
   met { on with keys := { kek := some [] } } .pf0 (by decide) ⟨rfl, rfl⟩ (by decide +kernel)⟩

/-- ChannelMapping: one channel out, two out, and a failed one. -/
theorem wit_channels : (∃ s, Runs s .adm 0 (.chanOut 63) ∧ (mapOut s).contains (63 : ChNo).val = false ∧ (mapOut s).length < 2) ∧
    (∃ s, Runs s .adm 0 (.chanOut 63) ∧ (mapOut s).contains (63 : ChNo).val = false ∧ 2 ≤ (mapOut s).length) ∧ (∃ s, Runs s .adm 0 (.chanIn 0)) :=
  ⟨met (cfgPut on { id := .chanMapOut } (.l [0])) .pf0 (by decide) ⟨rfl, rfl⟩ (by decide +kernel),
   met (cfgPut on { id := .chanMapOut } (.l [0, 62])) .pf0 (by decide) ⟨rfl, rfl⟩ (by decide +kernel), runs_on (by decide)⟩

/-! ### Witnesses: diagnostics, the cartridge and modes -/

/-- An entry that executes and has begun. -/
def going (t : Nat) (v : Verb) : Entry := { ent t v with phase := .executing, begun := true }

/-- `s` with one begun command on the admin channel. -/
def admGoing (s : State) (t : Nat) (v : Verb) : State := { s with adm := { entries := [going t v] } }

/-- DiagnosticsStart: with a threaded cartridge and without one. -/
theorem wit_diagnostics_start : (∃ s, Runs s .adm 0 (.cal [.eq, .adc] none)) ∧ CalItem.needsTape .adc = false ∧ CalItem.needsTape .eq = false ∧
    (∃ s, Runs s .adm 0 (.cal [.heads] none) ∧ s.cart.threaded = true) ∧ CalItem.needsTape .heads = true ∧
    (∃ s, Runs s .adm 0 (.cal [.heads] none) ∧ s.cart.threaded = false) ∧ (∃ s, Runs s .adm 0 (.testDram 1000)) ∧
    (∃ s, Runs s .adm 0 (.testFlash 1)) ∧ (∃ s, Runs s .adm 0 (.testLoop 1)) ∧
    (∃ s, Runs s .adm 0 (.testPattern 1) ∧ s.cart.threaded = true) ∧ (∃ s, Runs s .adm 0 (.testPattern 1) ∧ s.cart.threaded = false) :=
  ⟨runs_on (by decide), rfl, rfl, met str .pf0 (by decide) ⟨rfl, rfl⟩ rfl, rfl, met on .pf0 (by decide) ⟨rfl, rfl⟩ rfl, runs_on (by decide),
   runs_on (by decide), runs_on (by decide), met str .pf0 (by decide) ⟨rfl, rfl⟩ rfl, met on .pf0 (by decide) ⟨rfl, rfl⟩ rfl⟩

/-- DiagnosticsEnd: a CAL, a CAL that was cut, and the two TESTs whose memories it names. -/
theorem wit_diagnostics_end :
    (let s := { admGoing on 3 (.cal [.adc] none) with diag := { what := .cal, running := true, items := [.adc], tag := some 3 } }
     live s = true ∧ s.diag.running = true ∧ s.diag.what = .cal ∧ (∀ i ∈ s.diag.items, ∃ r ∈ [({ item := .adc, pass := true, value := 0 } : CalResult)], r.item = i) ∧
     s.diag.cut = false ∧ s.diag.tag = some 3 ∧ entryOf s .adm 3 = some (going 3 (.cal [.adc] none))) ∧
    (let s := { on with diag := { what := .cal, running := true, cut := true } }; live s = true ∧ s.diag.running = true ∧ s.diag.cut = true) ∧
    (let s := { admGoing on 3 (.testDram 1) with diag := { what := .dram, running := true, tag := some 3 } }
     live s = true ∧ s.diag.running = true ∧ s.diag.what ≠ .cal ∧ s.diag.what = .dram ∧ s.diag.cut = false ∧ entryOf s .adm 3 = some (going 3 (.testDram 1))) ∧
    (let s := { admGoing on 3 (.testLoop 1) with diag := { what := .loop, running := true, tag := some 3 } }
     s.diag.what ≠ .cal ∧ s.diag.what = .loop ∧ s.diag.cut = false ∧ entryOf s .adm 3 = some (going 3 (.testLoop 1))) := by decide +kernel

/-- LoadAndUnload: each verb with and without a cartridge, and each motion at its end. -/
theorem wit_load_unload :
    (∃ s, Runs s .adm 0 .load ∧ s.cart.loaded = false ∧ streamHeld s .adm = [] ∧ s.cart.motion = none) ∧
    (∃ s, Runs s .adm 0 .load ∧ s.cart.loaded = true) ∧
    (let s := { admGoing on 3 .load with cart := { motion := some .load } }
     live s = true ∧ s.cart.motion = some .load ∧ admOpen s (· == .load) = some (going 3 .load) ∧ entryOf s .adm 3 = some (going 3 .load)) ∧
    (∃ s, Runs s .adm 0 .unload ∧ s.cart.loaded = true ∧ (∀ n : SadNo, s.sad[n].unsync = []) ∧ streamHeld s .adm = [] ∧
      s.pw.mode ≠ .stage ∧ s.cart.motion = none) ∧
    (∃ s, Runs s .adm 0 .unload ∧ s.cart.loaded = false) ∧
    (let s := { admGoing on 3 .unload with cart := { loaded := true, motion := some .unload } }
     live s = true ∧ s.cart.motion = some .unload ∧ s.pw.trans = none ∧ s.pw.reqs = [] ∧ s.pw.mode ≠ .stage ∧
     admOpen s (· == .unload) = some (going 3 .unload) ∧ entryOf s .adm 3 = some (going 3 .unload)) ∧
    (∃ s, Runs s .adm 0 .load ∧ s.cart.loaded = false ∧ streamHeld s .adm ≠ []) ∧
    (∃ s, Runs s .adm 0 .unload ∧ s.cart.loaded = true ∧ s.sad[(2 : SadNo)].unsync ≠ []) ∧
    (∃ s, Runs s .adm 0 .unload ∧ s.cart.loaded = true ∧ (∀ n : SadNo, s.sad[n].unsync = []) ∧ s.pw.mode = .stage ∧ holders s 1 .adm = [] ∧
      s.cart.motion = none) ∧
    (let s := { admGoing on 3 .unload with pw := { on.pw with mode := .stage }, cart := { loaded := true, motion := some .unload } }
     live s = true ∧ s.cart.motion = some .unload ∧ s.pw.trans = none ∧ s.pw.reqs = [] ∧ s.pw.mode = .stage ∧
     admOpen s (· == .unload) = some (going 3 .unload) ∧ entryOf s .adm 3 = some (going 3 .unload)) ∧ live on = true ∧ on.cart.motion ≠ some .unload :=
  ⟨met on .pf0 (by decide) ⟨rfl, rfl⟩ (by decide +kernel), met str .pf0 (by decide) ⟨rfl, rfl⟩ rfl, by decide +kernel,
   met str .pf0 (by decide) ⟨rfl, rfl⟩ (by decide +kernel), met on .pf0 (by decide) ⟨rfl, rfl⟩ rfl, by decide +kernel,
   met { on with sad := on.sad.set 2 { st := .opened, unsync := [(5, 4096)] } } .pf0 (by decide) ⟨rfl, rfl⟩ (by decide +kernel),
   met { str with sad := str.sad.set 2 { unsync := [(5, 4096)] } } .pf0 (by decide) ⟨rfl, rfl⟩ (by decide +kernel),
   met { on with pw := { on.pw with mode := .stage }, cart := { loaded := true } } .pf0 (by decide) ⟨rfl, rfl⟩ (by decide +kernel),
   by decide +kernel, rfl, by decide +kernel⟩

/-- A part whose saddle 2 holds girth 5 for the coder. -/
def held5 : State := { str with sad := str.sad.set 2 { st := .opened, next := 6, acked := [{ sad := 2, seq := 5, content := [1, 2, 3] }] } }

/-- LocateAndSpace: a girth past the end, ones in the buffer, with a data set and without, and one on tape; the tape free, moving and not
there, and STREAM held by another saddle; every command of which the tape rests at the target; counts at both ends of the stream. -/
theorem wit_locate_space : targetOf (.sad 2) none = some 2 ∧ targetOf .adm none = none ∧
    (∃ s, Runs s (.sad 2) 0 (.locate none (.girth 6)) ∧ s.sad[(2 : SadNo)].next ≤ 6) ∧
    (∃ s, Runs s (.sad 2) 0 (.locate none (.girth 5)) ∧ 5 < s.sad[(2 : SadNo)].next ∧ inBuffer s 2 5 = some none) ∧
    (∃ s, Runs s (.sad 2) 0 (.locate none (.girth 4)) ∧ 4 < s.sad[(2 : SadNo)].next ∧ inBuffer s 2 4 = some (some 9)) ∧
    (∃ s, Runs s (.sad 2) 0 (.locate none (.girth 3)) ∧ 3 < s.sad[(2 : SadNo)].next ∧ inBuffer s 2 3 = none ∧ s.cart.loaded = true ∧
      streamHeld s (.sad 2) = [] ∧ s.cart.motion = none) ∧
    (∃ s, Runs s .adm 0 (.locate none (.ds 0)) ∧ s.cart.loaded = true ∧ streamHeld s .adm = [] ∧ s.cart.motion = none) ∧
    (∃ s, Runs s .adm 0 (.locate none .bot) ∧ s.cart.loaded = true ∧ streamHeld s .adm = [] ∧ s.cart.motion.isSome = true) ∧
    (∃ s, Runs s .adm 0 (.locate none .eod) ∧ s.cart.loaded = true ∧ streamHeld s .adm ≠ []) ∧
    (∃ s, Runs s (.sad 2) 0 (.space none (.girths (-1))) ∧ s.cart.loaded = true ∧ streamHeld s (.sad 2) = [] ∧ s.cart.motion = none) ∧
    (∃ s, Runs s (.sad 2) 0 (.space none (.marks 1)) ∧ s.cart.loaded = false) ∧
    (∀ v ∈ [Verb.locate none (.ds 7), .locate none (.girth 5), .locate none .bot, .locate none .eod, .space none (.girths (-4)), .space none (.marks 1)],
      let s := { sadQ str 2 [going 3 v] with cart := { loaded := true, threaded := true, motion := some (.seek (.sad 2) (some 3)) } }
      live s = true ∧ bandUsable s = true ∧ s.cart.motion = some (.seek (.sad 2) (some 3)) ∧ entryOf s (.sad 2) 3 = some (going 3 v)) ∧
    (let s := held5; 0 ≤ (s.sad[(2 : SadNo)].readPos : Int) + 6 ∧ (s.sad[(2 : SadNo)].readPos : Int) + 6 ≤ s.sad[(2 : SadNo)].next) ∧
    live on = true ∧ on.cart.motion = none :=
  ⟨rfl, rfl, met held5 .pf0 (by decide) ⟨rfl, rfl⟩ (by decide +kernel), met held5 .pf0 (by decide) ⟨rfl, rfl⟩ (by decide +kernel),
   met { held5 with rd := { store := [{ sad := 2, seq := 4, dsn := 9 }] } } .pf0 (by decide) ⟨rfl, rfl⟩ (by decide +kernel),
   met { str with sad := str.sad.set 2 { next := 6 } } .pf0 (by decide) ⟨rfl, rfl⟩ (by decide +kernel),
   met str .pf0 (by decide) ⟨rfl, rfl⟩ (by decide +kernel),
   met { str with cart := { str.cart with motion := some .load } } .pf0 (by decide) ⟨rfl, rfl⟩ (by decide +kernel),
   met { str with sad := str.sad.set 2 { st := .opened, unsync := [(5, 4096)] } } .pf0 (by decide) ⟨rfl, rfl⟩ (by decide +kernel),
   met str .pf0 (by decide) ⟨rfl, rfl⟩ (by decide +kernel),
   met on .pf0 (by decide) ⟨rfl, rfl⟩ rfl, by decide +kernel, by decide +kernel, rfl, rfl⟩

/-- CartridgeMemory: memory that answers, none, an external field, REPAIR in STREAM, a try in and out of the field, and the timeout with
a CM READ that waits. -/
theorem wit_cm : (∃ s, Runs s .adm 0 (.cmRead .dir) ∧ s.cart.loaded = true ∧ s.cart.present = true ∧ s.cart.field = false) ∧
    (∃ s, Runs s .adm 0 (.cmRead .dir) ∧ s.cart.loaded = true ∧ s.cart.present = false) ∧
    (∃ s, Runs s .adm 0 (.cmRead .dir) ∧ s.cart.loaded = true ∧ s.cart.present = true ∧ s.cart.field = true) ∧
    (∃ s, Runs s .adm 0 .cmRepair ∧ s.pw.mode ≠ .park ∧ s.cart.loaded = true ∧ s.cart.present = true ∧ s.cart.field = false ∧ s.cart.tail = none) ∧
    (∃ s, Runs s .adm 0 .cmRepair ∧ s.pw.mode = .park) ∧ pnat on .cmSenseMv < pnat on .cmSenseMv + 1 ∧
    (let s := { admGoing on 3 (.cmRead .head) with cart := { loaded := true, field := true, cmWait := some 0 } }
     live s = true ∧ s.cart.cmWait = some 0 ∧ s.cart.cmDue ≤ now s ∧ s.pw.mode ≠ .stream ∧ cmWaiting s = [going 3 (.cmRead .head)] ∧
     entryOf s .adm 3 = some (going 3 (.cmRead .head))) ∧
    (let s := { admGoing on 3 (.cmRead .head) with clk := { on.clk with ptc := BitVec.ofNat 64 (2 ^ 40) }, cart := { cmWait := some 0 } }
     live s = true ∧ s.cart.cmWait = some 0 ∧ (0 : W64).toNat + pnat s .cmTimeout ≤ now s ∧ cmWaiting s = [going 3 (.cmRead .head)]) :=
  ⟨met str .pf0 (by decide) ⟨rfl, rfl⟩ (by decide +kernel), met { on with cart := { loaded := true } } .pf0 (by decide) ⟨rfl, rfl⟩ (by decide +kernel),
   met { on with cart := { loaded := true, present := true, field := true } } .pf0 (by decide) ⟨rfl, rfl⟩ (by decide +kernel),
   met str .pf0 (by decide) ⟨rfl, rfl⟩ (by decide +kernel), runs_on' (by decide) (by decide +kernel), by decide +kernel, by decide +kernel, by decide +kernel⟩

/-- A change from PARK to a mode, under way for the admin channel's command 3. -/
def changing (m : Mode) : State := { admGoing on 3 (.mode m) with
  pw := { on.pw with trans := some { ch := .adm, tag := some 3, source := .park, target := m, start := 0, done := true } } }

/-- ModeChanges: MODE, the ends of changes to STAGE and to SERVICE, and a HALT cause. -/
theorem wit_modes : (∃ s, Runs s (.sad 7) 31 (.mode .stream)) ∧
    (let s := changing .stage; live s = true ∧ s.pw.trans = some { ch := .adm, tag := some 3, source := .park, target := .stage, start := 0, done := true } ∧
     s.pw.mode = .park ∧ entryOf s .adm 3 = some (going 3 (.mode .stage))) ∧
    (let s := changing .service; live s = true ∧ s.pw.trans = some { ch := .adm, tag := some 3, source := .park, target := .service, start := 0, done := true } ∧
     s.pw.mode ≠ .service) ∧
    (let s := { on with pw := { on.pw with haltPend := some .thermal } }
     s.pw.haltPend = some .thermal ∧ s.pw.mode ≠ .halt ∧ s.pw.recovery = false) ∧ on.pw.trans = none ∧ on.pw.haltPend = none ∧
    ({ on with pw := { on.pw with recovery := true } } : State).pw.recovery = true :=
  ⟨runs_on (by decide), by decide +kernel, by decide +kernel, by decide +kernel, rfl, rfl, rfl⟩

/-! ### Witnesses: streams -/

/-- `s` with an open saddle 2 that holds 16 caddies' worth of room. -/
def roomy (s : State) : State := { s with sad := s.sad.set 2 { st := .opened, next := 6, caddies := [(0, 0), (1, 0)] } }

/-- WritesStart. -/
theorem wit_writes :
    (∃ s, Runs s (.sad 2) 0 (.write { len := 8, src := .words [5] }) ∧ roomFor s 2 (blockOf s 2) (8 * 1) = true) ∧
    (∃ s, Runs s (.sad 2) 0 (.write { len := 8, src := .words [5] }) ∧ roomFor s 2 (blockOf s 2) (8 * 1) = false) ∧
    (∃ s, Runs s (.sad 2) 0 (.write { len := 8, src := .sg [(4096, 8)] }) ∧ bindOf s 2 = .vf) ∧ (∃ s, Runs s (.sad 2) 0 (.mark "x")) :=
  ⟨met (roomy str) .console (by decide) ⟨rfl, rfl⟩ (by decide +kernel), met str .console (by decide) ⟨rfl, rfl⟩ (by decide +kernel), met str (.vf 2) (by decide) ⟨rfl, rfl⟩ (by decide +kernel), runs_on (by decide)⟩

/-- Acknowledgement: a MARK, a TIME and a WRITE inside the window, at its edge one too many, without room, without the range-lock entry that
a monitor asks for, before its bytes are there, and past the end of media. -/
theorem wit_acknowledgement :
    (∀ v ∈ [Verb.mark "x", .time none (some "x")], let e := going 3 v; let s := sadQ (roomy str) 2 [e]
     live s = true ∧ oldest s (.sad 2) = some e ∧ entryOf s (.sad 2) 3 = some e ∧
     landed e = true ∧ ackBarred s 2 = false ∧ unlocked s 2 e = false ∧ s.med.eom = false ∧ s.sad[(2 : SadNo)].blk.bytes = [] ∧
     unsyncBytes s.sad[(2 : SadNo)] + ackBytes v ≤ window s 2 ∧ ackRoom s 2 e = true) ∧
    (let e := { going 3 (.write { len := 2 }) with data := [1, 2] }
     let s := sadQ (roomy str) 2 [e]
     let u := cfgPut s { id := .sadFollow, i := 1 } (.n 3)
     live s = true ∧ oldest s (.sad 2) = some e ∧ entryOf s (.sad 2) 3 = some e ∧ landed e = true ∧ ackBarred s 2 = false ∧
     unlocked s 2 e = false ∧ unsyncBytes s.sad[(2 : SadNo)] + ackBytes e.verb ≤ window s 2 ∧ ackRoom s 2 e = true ∧
     live u = true ∧ oldest u (.sad 2) = some e ∧ unlocked u 2 e = true ∧ landed { e with data := [1] } = false) ∧
    (let s := sadQ { str with sad := str.sad.set 2 { st := .opened, unsync := [(0, window str 2 - 4095)] } } 2 [going 3 (.mark "x")]
     ackBarred s 2 = false ∧ window s 2 + 1 = unsyncBytes s.sad[(2 : SadNo)] + ackBytes (.mark "x") ∧ ackRoom s 2 (going 3 (.mark "x")) = false) ∧
    (let s := sadQ { roomy str with med := { str.med with eom := true } } 2 [going 3 (.mark "x")]
     live s = true ∧ oldest s (.sad 2) = some (going 3 (.mark "x")) ∧ ackBarred s 2 = false ∧ s.med.eom = true) := by decide +kernel

/-- SyncAndClosing: SYNC, a SYNC whose girths are on tape, and a block at and before `close_ticks`. -/
theorem wit_sync : (∃ s, Runs s (.sad 2) 0 .sync) ∧
    (∀ b, let e := { going 3 .sync with girth0 := 6, frozen := b }
     let s := sadQ { str with sad := str.sad.set 2 { unsync := [(6, 4096)] } } 2 [e]
     live s = true ∧ syncOf s 2 = some e ∧ entryOf s (.sad 2) 3 = some e ∧ ∀ u ∈ s.sad[(2 : SadNo)].unsync, e.girth0 ≤ u.1) ∧
    (let s := { str with clk := { str.clk with ptc := BitVec.ofNat 64 (pnat str .sadCloseTicks 2) }, sad := str.sad.set 2 { blk := { bytes := [1] } } }
     live s = true ∧ s.sad[(2 : SadNo)].blk.bytes ≠ [] ∧ s.sad[(2 : SadNo)].openDs = none ∧
     s.sad[(2 : SadNo)].blk.grown.toNat + pnat s .sadCloseTicks 2 ≤ now s) ∧
    (let s := { str with clk := { str.clk with ptc := BitVec.ofNat 64 (pnat str .sadCloseTicks 2 - 1) }, sad := str.sad.set 2 { blk := { bytes := [1] } } }
     now s < s.sad[(2 : SadNo)].blk.grown.toNat + pnat s .sadCloseTicks 2) :=
  ⟨runs_on (by decide), by decide +kernel, by decide +kernel, by decide +kernel⟩

/-- A monitor's part: saddle 1 follows saddle 2, whose girth 6 a WRITE has locked since tick 0. -/
def monitored : State := cfgPut (cfgPut { sadQ { str with clk := { str.clk with ptc := BitVec.ofNat 64 (2 ^ 40) } } 1
    [{ going 3 (.read { len := 4096 }) with girth0 := 6, placed := true, lockAt := some 0 }] with
  med := { str.med with locks := [(2, 0, 6, 8)] } } { id := .sadFollow, i := 1 } (.n 3)) { id := .lockMode } (.n 1)

/-- `held5` whose saddle 2 reads some bytes from girth 5, which is decoded. -/
def read5 (len : Nat) : State :=
  sadQ { held5 with pool := { held5.pool with ops := 100 } } 2 [{ going 3 (.read { len := len }) with girth0 := 5, placed := true, dec := 1 }]

/-- Reads: READ starts, and meets a tape that is not there; one girth delivered in full, the end of data, and a lock met and waited for long
enough. -/
theorem wit_reads : (∃ s, Runs s (.sad 2) 0 (.read { len := 1 }) ∧ s.cart.loaded = true ∧
      (s.sad[(2 : SadNo)].q.entries.find? fun e => e.ended.isNone && runKind e.verb = 2) = entryOf s (.sad 2) 0 ∧
      ∀ e ∈ entryOf s (.sad 2) 0, e.placed = false ∧ e.res = none) ∧
    (∃ s, Runs s (.sad 2) 0 (.read { len := 1 }) ∧ s.cart.loaded = false ∧
      (s.sad[(2 : SadNo)].q.entries.find? fun e => e.ended.isNone && runKind e.verb = 2) = entryOf s (.sad 2) 0 ∧
      (∀ e ∈ entryOf s (.sad 2) 0, e.placed = false ∧ e.res = none ∧ e.pieces = []) ∧
      (match findFor s 2 (fillZero s { len := 1 }) ((none : Option Nat).getD s.sad[(2 : SadNo)].readPos) with
        | .tape => True
        | _ => False) ∧ 0 < 1) ∧
    (∀ len ∈ [3, 9], let u := readOn (quiet (read5 len)) 2
     live (read5 len) = true ∧ ∃ e ∈ entryOf u (.sad 2) 3, readEntry u 2 = some (e, { len := len }) ∧ bindOf u 2 = .vf ∧
       (gather u 2 e { len := len }).2 = (if len = 3 then .full else .eod) ∧ (gather u 2 e { len := len }).1.length = e.pieces.length ∧
       allDecoded { e with pieces := (gather u 2 e { len := len }).1 } = true ∧
       sumL ((gather u 2 e { len := len }).1.map (·.bytes.length)) ≤ e.sent + dmaOutRoom u 2) ∧
    (let u := readOn (quiet monitored) 1
     ∃ e ∈ entryOf u (.sad 1) 3, readEntry u 1 = some (e, { len := 4096 }) ∧ gather u 1 e { len := 4096 } = ([], .locked)) ∧
    (let e := { going 3 (.read { len := 4096 }) with girth0 := 6, placed := true, lockAt := some 0 }
     live monitored = true ∧ readEntry monitored 1 = some (e, { len := 4096 }) ∧ entryOf monitored (.sad 1) 3 = some e ∧
     bindOf monitored 1 = .vf ∧ gather monitored 1 e { len := 4096 } = ([], .locked) ∧ pnat monitored .lockMode = 1 ∧
     (0 : W64).toNat + pnat monitored .lockMaxTicks ≤ now monitored ∧ allDecoded { e with pieces := [] } = true ∧
     sumL (([] : List Piece).map (·.bytes.length)) ≤ e.sent + dmaOutRoom monitored 1) :=
  ⟨met str .pf0 (by decide) ⟨rfl, rfl⟩ (by decide +kernel),
   met { on with sad := on.sad.set 2 { next := 1 } } .pf0 (by decide) ⟨rfl, rfl⟩ ⟨rfl, by decide +kernel, by decide +kernel, trivial, by decide⟩,
   by decide +kernel, by decide +kernel, by decide +kernel⟩

/-- TimeAndLog: TIME in STREAM, with and without a cartridge; LOG with one place left and with none; LOG SAVE. -/
theorem wit_time_log : (∃ s, Runs s (.sad 2) 0 (.time none (some "x")) ∧ s.pw.mode = .stream) ∧
    (∃ s, Runs s .adm 0 (.time (some 0) none) ∧ s.cart.loaded = true) ∧ (∃ s, Runs s .adm 0 (.time (some 0) none) ∧ s.cart.loaded = false) ∧
    (∃ s, Runs s .adm 0 (.logText "x") ∧ s.evt.staging.length = 287) ∧ (∃ s, Runs s .adm 0 (.logText "x") ∧ s.evt.staging.length = 288) ∧
    (∃ s, Runs s .adm 0 .logSave ∧ pfInForce s = false ∧ s.fl.erasing = none) ∧ (∃ s, Runs s .adm 0 .logSave ∧ s.fl.erasing.isSome = true) :=
  ⟨met str .pf0 (by decide) ⟨rfl, rfl⟩ rfl, met str .pf0 (by decide) ⟨rfl, rfl⟩ rfl, met on .pf0 (by decide) ⟨rfl, rfl⟩ rfl,
   met { on with evt := { staging := List.replicate 287 default } } .pf0 (by decide) ⟨rfl, rfl⟩ (by decide +kernel),
   met { on with evt := { staging := List.replicate 288 default } } .pf0 (by decide) ⟨rfl, rfl⟩ (by decide +kernel),
   met on .pf0 (by decide) ⟨rfl, rfl⟩ ⟨rfl, rfl⟩, met { on with fl := { erasing := some 0x200 } } .pf0 (by decide) ⟨rfl, rfl⟩ rfl⟩

/-! ### Witnesses: the media engine -/

/-- A written data set. -/
def wds (dsn : Nat) : WDs := { ds := { sad := 2 }, dsn := dsn, wrap := 0, epoch := 1, slot := 0 }

/-- DataSetBoundary: the owner's closed data set, a slot that its owner misses, a FILL slot, a frame that ends, and a plait two ticks old. -/
theorem wit_data_set_boundary :
    (let s := { str with sad := str.sad.set 2 { st := .opened, closed := [{ sad := 2 }] } }
     live s = true ∧ s.med.lane = .idle ∧ s.med.stopAfter = false ∧ s.med.again = none ∧ s.med.flush = false ∧ mayWrite s = true ∧
     epochDue s = false ∧ s.med.plait.marker.isSome = true ∧ s.med.plait.slots[s.med.cursor]? = some (.owner 2) ∧
     s.sad[(2 : SadNo)].st ≠ .hold ∧ s.sad[(2 : SadNo)].closed = [{ sad := 2 }] ∧ ({ sad := 2 } : DataSet).kind = .data) ∧
    (let s := { str with sad := str.sad.set 2 { st := .hold, closed := [{ sad := 2 }] } }; servable s 2 = false ∧ reclaimable s = none) ∧
    (mayWrite str = true ∧ epochDue str = false ∧ str.med.plait.slots[str.med.cursor]? = some (.owner 2) ∧ servable str 2 = false) ∧
    (let s := { str with med := { str.med with cursor := 1 } }; mayWrite s = true ∧ s.med.plait.slots[s.med.cursor]? = some .fill) ∧
    (let s := { on with med := { lane := .frame 4, written := [wds 4] } }
     live s = true ∧ s.med.lane = .frame 4 ∧ writtenAt s 4 = some (wds 4) ∧ s.med.stopAfter = false ∧ s.med.again = none ∧ s.pw.mode ≠ .stream) ∧
    (let s := { str with clk := { str.clk with ptc := 2 }, med := { str.med with next := [({ marker := none }, 0)] } }
     live s = true ∧ s.med.lane = .idle ∧ mayWrite s = true ∧ (takeNext s).isSome = true) := by decide +kernel

/-- WrapsAndAreas: a wrap without room, at a boundary and behind the frame on the lanes, the last one; an append point that is wanted, with
the loop's values kept and not, and one that is not; an area to close, one that is closed, and idle lanes. -/
theorem wit_wraps :
    (let s := { str with med := { str.med with x := 23622047245, wrap := 190 } }
     live s = true ∧ s.pw.mode = .stream ∧ s.cart.loaded = true ∧ s.med.positioned = true ∧ s.med.wrap < 191 ∧ s.med.lane = .idle ∧
     frameFits s.med.x = false ∧ s.med.savedOfs = []) ∧
    (let s := { str with med := { str.med with x := 23622047245, lane := .frame 4, written := [wds 4] } }
     live s = true ∧ s.med.lane = .frame 4 ∧ writtenAt s 4 = some (wds 4) ∧
     frameFits (s.med.x + frameLen (((writtenAt s 4).bind (·.q)).getD 0)) = false) ∧
    (let s := { str with med := { str.med with wrap := 191 } }; live s = true ∧ 191 ≤ s.med.wrap) ∧
    (let s := { str with med := { str.med with positioned := false, savedOfs := [(0, false, 7)] }, sad := str.sad.set 2 { closed := [{ sad := 2 }] } }
     live s = true ∧ appendWanted s = true ∧ pbool s .wplEnable = true ∧
     (bandOfWrap s.med.wrap, wrapRev s.med.wrap, (7 : Rat)) ∈ s.med.savedOfs ∧ appendWanted { s with med := { s.med with savedOfs := [] } } = true) ∧
    (let s := { str with med := { str.med with lane := .frame 4, written := [wds 4, wds 3] } }
     live s = true ∧ s.med.lane = .frame 4 ∧ writtenAt s 4 = some (wds 4) ∧ (wds 4).q = none ∧ 4 ≠ 0 ∧ writtenAt s (4 - 1) = some (wds 3)) ∧
    (let s := { str with med := { str.med with lane := .frame 4, written := [{ wds 4 with q := some 0 }] } }
     live s = true ∧ writtenAt s 4 = some { wds 4 with q := some 0 }) ∧
    live str = true ∧ str.med.lane = .idle ∧ appendWanted str = false := by decide +kernel

/-- The three copies of a track identity. -/
def ident3 (wrap ch : Nat) : List Bool := natBits 16 (trackIdent wrap ch) ++ natBits 16 (trackIdent wrap ch) ++ natBits 16 (trackIdent wrap ch)

/-- Verification: the last row that waits, a row that nothing waits for, a wrong identity at the limit, and the right one. -/
theorem wit_verification :
    (let s := { str with med := { str.med with written := [wds 4] } }; live s = true ∧ s.used.verify < budget s 256 ∧ verifyTarget s 63 119 = some (wds 4)) ∧
    verifyTarget str 63 119 = none ∧ (let s := { str with used := { str.used with verify := 256 } }; live s = true ∧ budget s 256 ≤ s.used.verify) ∧
    (let s := { str with med := { str.med with inh := { identRun := pnat str .identMax - 1 } } }
     live s = true ∧ s.pw.mode = .stream ∧ readIdent (ident3 1 63) = some (trackIdent 1 63) ∧ trackIdent 1 63 ≠ trackIdent s.med.wrap 63 ∧
     look 3 s.med.inh.holds = none ∧ pnat s .identMax ≤ s.med.inh.identRun + 1) ∧ on.pw.mode ≠ .stream ∧
    (readIdent (ident3 0 63) = some (trackIdent str.med.wrap 63) ∧ str.med.inh.inhibited = false ∧ (chansOut str).contains 63 = false) := by decide +kernel

/-- A PCL frame that counts in tick 0. -/
def pclFrame : List Byte := let h : List Byte := [0x5A, 0x3C, 0, 0, 0, 0, 0, 0, 0]; h ++ beBytes 2 (crc16 h).toNat

/-- WriteInhibit: STREAM and another mode, an inhibit without causes, a stuck pin, saddles at the limit of GUARD and below, and both kinds
of PCL frame. -/
theorem wit_inhibit : live str = true ∧ str.pw.mode = .stream ∧ str.med.inh.inhibited = false ∧ on.pw.mode ≠ .stream ∧
    (let s := { str with med := { str.med with inh := { inhibited := true } } }; live s = true ∧ s.med.inh.inhibited = true ∧ s.med.inh.holds = []) ∧
    (let s := { str with sens := { pinLow := true } }; live s = true ∧ s.sens.pinLow = true ∧ s.sens.stuckTold = false) ∧
    (let s := { str with sad := (str.sad.set 2 { unsync := [(0, 4096)], guardTicks := pnat str .guardHoldTicks }).set 3 { unsync := [(0, 4096)] } }
     s.sad[(2 : SadNo)].unsync ≠ [] ∧ pnat s .guardHoldTicks ≤ s.sad[(2 : SadNo)].guardTicks ∧ s.sad[(3 : SadNo)].guardTicks < pnat s .guardHoldTicks) ∧
    pclRxOk str pclFrame = true ∧ pclRxOk str (pclFrame.set 3 1) = false ∧
    (let s := { str with med := { str.med with pclRun := Vector.replicate 4 2 } }; s.med.pclRun[(3 : GroupNo)] = 2) ∧ str.med.pclRun[(3 : GroupNo)] < 2 := by
  decide +kernel

/-! ### Witnesses: reading, servo and motion -/

/-- Leader facts of a data set. -/
def lead9 : LeadFacts :=
  { dsn := 9, kind := 3, sad := 7, ratio := 4, short := true, flush := false, slot := 0, wrap := 191, epoch := 1, ptc := 5, session := 6,
    firstSeq := 2 ^ 40 - 1, girths := 728, nextSeq := [0, 1, 2, 3, 4, 5, 6, 7] }

/-- The first 77 bytes of a leader of data set 9, in four parts. -/
def leadPart : Fin 4 → List Byte
  | 0 => [0, 0, 0, 9, 62, 144, 0, 0, 191, 0, 0, 0, 1, 0, 0, 0, 0, 0, 0, 0]
  | 1 => [5, 0, 0, 0, 0, 0, 0, 0, 6, 255, 255, 255, 255, 255, 2, 216, 0, 0, 0, 0]
  | 2 => [0, 0, 0, 0, 0, 1, 0, 0, 0, 0, 2, 0, 0, 0, 0, 3, 0, 0, 0, 0]
  | 3 => [4, 0, 0, 0, 0, 5, 0, 0, 0, 0, 6, 0, 0, 0, 0, 7, 0]

/-- The CRC-32 register before and after each part. -/
def leadCrc : Fin 5 → BitVec 32
  | 0 => 0xFFFFFFFF
  | 1 => 0x8033FA18
  | 2 => 0xF78C0968
  | 3 => 0xDA0A2C2C
  | 4 => 0xDDDC82CE

/-- The register over the first part. -/
theorem leadCrc0 : (leadPart 0).foldl crc32Byte (leadCrc 0) = leadCrc 1 := by decide +kernel

/-- The second. -/
theorem leadCrc1 : (leadPart 1).foldl crc32Byte (leadCrc 1) = leadCrc 2 := by decide +kernel

/-- The third. -/
theorem leadCrc2 : (leadPart 2).foldl crc32Byte (leadCrc 2) = leadCrc 3 := by decide +kernel

/-- The last. -/
theorem leadCrc3 : (leadPart 3).foldl crc32Byte (leadCrc 3) = leadCrc 4 := by decide +kernel

/-- The leader's 81 bytes. -/
def lead81 : List Byte := leadPart 0 ++ leadPart 1 ++ leadPart 2 ++ leadPart 3 ++ [34, 35, 125, 49]

/-- Its check value. -/
theorem lead81_crc : crc32 (lead81.take 77) = leadCrc 4 ^^^ 0xFFFFFFFF#32 := by
  have h : lead81.take 77 = leadPart 0 ++ leadPart 1 ++ leadPart 2 ++ leadPart 3 := by decide +kernel
  rw [h, crc32, List.foldl_append, List.foldl_append, List.foldl_append]
  show (List.foldl crc32Byte (List.foldl crc32Byte (List.foldl crc32Byte (List.foldl crc32Byte (leadCrc 0) _) _) _) _) ^^^ _ = _
  rw [leadCrc0, leadCrc1, leadCrc2, leadCrc3]

/-- ReadPath's leader parses to its fields. -/
theorem wit_lead_parse : parseLeader lead81 = some lead9 := by
  unfold parseLeader
  rw [lead81_crc]
  decide +kernel

/-- A bit's LLR of magnitude 1. -/
def soft (b : Bool) : Int := if b then -1 else 1

/-- LLRs that carry word bits: each 24 behind a modulation flag of 0 (R269, R333). -/
def softOf (l : List Bool) : List Int := (parts 24 l).flatMap fun w => 1 :: w.map soft

/-- The first part, and the parts of what follows. -/
theorem parts_cons {α : Type} {n : Nat} {l : List α} (hn : 0 < n) (hl : l ≠ []) : parts n l = l.take n :: parts n (l.drop n) := by
  have h : (l.length + n - 1) / n = (l.length - n + n - 1) / n + 1 := by
    have hp : 0 < l.length := List.length_pos_iff.2 hl
    rcases Nat.lt_or_ge l.length n with h | h
    · have h0 : l.length - n = 0 := by omega
      rw [h0, Nat.zero_add, Nat.div_eq_of_lt (by omega : n - 1 < n), Nat.div_eq_of_lt_le] <;> omega
    · rw [← Nat.add_div_right _ hn]; congr 1; omega
  simp only [parts, List.length_drop, h, List.range_succ_eq_map, List.map_cons, List.map_map, Nat.zero_mul, List.drop_zero, List.cons.injEq, true_and]
  refine List.map_congr_left fun i _ => ?_
  simp [Function.comp, List.drop_drop, Nat.succ_mul, Nat.add_comm]

/-- The parts of a list make it up. -/
theorem parts_flatten {α : Type} {n : Nat} (hn : 0 < n) (l : List α) : (parts n l).flatten = l := by
  induction hk : l.length using Nat.strong_induction_on generalizing l with
  | _ k ih =>
    rcases eq_or_ne l [] with rfl | hl
    · simp [parts, Nat.div_eq_of_lt (by omega : n - 1 < n)]
    · have hp : 0 < l.length := List.length_pos_iff.2 hl
      rw [parts_cons hn hl, List.flatten_cons, ih (l.drop n).length (by simp; omega) _ rfl, List.take_append_drop]

/-- Blocks of one length are the parts of what they make up. -/
theorem parts_blocks {α : Type} {n : Nat} (hn : 0 < n) (ws : List (List α)) (h : ∀ w ∈ ws, w.length = n) : parts n ws.flatten = ws := by
  induction ws with
  | nil => simp [parts, Nat.div_eq_of_lt (by omega : n - 1 < n)]
  | cons w t ih =>
    have hw : w.length = n := h w (by simp)
    have hne : (w ++ t.flatten) ≠ [] := by intro h0; simp at h0; simp [h0.1] at hw; omega
    rw [List.flatten_cons, parts_cons hn hne, List.take_left' hw, List.drop_left' hw, ih fun x hx => h x (by simp [hx])]

/-- The parts of a list that they divide. -/
theorem parts_length {α : Type} {n k : Nat} (hn : 0 < n) (l : List α) (hl : l.length = n * k) : ∀ w ∈ parts n l, w.length = n := by
  induction k generalizing l with
  | zero => have : l = [] := List.length_eq_zero_iff.1 (by simpa using hl); subst this; simp [parts, Nat.div_eq_of_lt (by omega : n - 1 < n)]
  | succ k ih =>
    have hle : n ≤ l.length := by rw [hl, Nat.mul_succ]; omega
    rw [parts_cons hn (by intro h; subst h; simp at hle; omega)]
    intro w hw
    rcases List.mem_cons.1 hw with rfl | hw
    · simp [hle]
    · exact ih (l.drop n) (by simp [hl, Nat.mul_succ]) w hw

/-- A word behind a clear flag demodulates to itself. -/
theorem wordLlr_soft (w m : List Bool) (h : w.length ≤ m.length) :
    ((w.map soft).zip m).map (fun (v, b) => if b then (1 : Int).sign * v.sign * min ((1 : Int).natAbs : Int) v.natAbs else v) = w.map soft := by
  induction w generalizing m with
  | nil => rfl
  | cons b w ih =>
    cases m with
    | nil => simp at h
    | cons c m =>
      simp only [List.map_cons, List.zip_cons_cons, ih m (by simpa using h), List.cons.injEq, and_true]
      cases b <;> cases c <;> rfl

/-- Descrambling undoes scrambling. -/
theorem descramble_soft (w s : List Bool) (h : w.length ≤ s.length) :
    List.zipWith (fun v b => if b then -v else v) ((xorBits w s).map soft) s = w.map soft := by
  induction w generalizing s with
  | nil => simp [xorBits]
  | cons b w ih =>
    cases s with
    | nil => simp at h
    | cons c s =>
      have := ih s (by simpa using h)
      simp only [xorBits, List.zipWith_cons_cons, List.map_cons] at this ⊢
      rw [this]
      cases b <;> cases c <;> rfl

/-- The scrambler gives as many bits as asked. -/
theorem scrambleBits_length (n st : Nat) : (scrambleBits n st).length = n := by
  induction n generalizing st with
  | zero => rfl
  | succ n ih => simp [scrambleBits, ih]

/-- The LLRs of a scrambled word enter C1 as those of the word. -/
theorem c1Llrs_soft (seed k : Nat) (w : List Bool) (h : w.length = 24 * k) : c1Llrs seed (softOf (scramble seed w)) = w.map soft := by
  have hs : (scramble seed w).length = w.length := by simp [scramble, xorBits, scrambleBits_length]
  have hp : parts 25 (softOf (scramble seed w)) = (parts 24 (scramble seed w)).map fun w => 1 :: w.map soft := by
    rw [softOf, List.flatMap_def]
    refine parts_blocks (by decide) _ fun x hx => ?_
    obtain ⟨y, hy, rfl⟩ := List.mem_map.1 hx
    simp [parts_length (by decide) _ (hs.trans h) y hy]
  have hw : (parts 25 (softOf (scramble seed w))).flatMap wordLlr = (scramble seed w).map soft := by
    rw [hp, List.flatMap_map]
    have : ∀ x ∈ parts 24 (scramble seed w), wordLlr (1 :: x.map soft) = x.map soft := fun x hx =>
      wordLlr_soft x flipMask (by simp [flipMask, parts_length (by decide) _ (hs.trans h) x hx])
    rw [List.flatMap_def, List.map_congr_left this, ← List.map_flatten, parts_flatten (by decide)]
  simp only [c1Llrs, hw, List.length_map, hs]
  rw [scramble]
  exact descramble_soft w _ (by simp [scrambleBits_length])

/-- Hard decisions of a word's LLRs. -/
theorem hardBits_soft (w : List Bool) : hardBits (w.map soft) = w := by
  induction w with
  | nil => rfl
  | cons b w ih => simp only [hardBits, List.map_cons, List.map_map] at ih ⊢; rw [ih]; cases b <;> rfl

/-- A codeword's LLRs decode to it with no iteration. -/
theorem c1Decode_soft (w : List Bool) (k : Nat) (h : c1Ok w = true) : c1Decode k (w.map soft) = (w, 0) := by
  have hb : hardBits (parts 176 (w.map soft)).flatten = w := by rw [parts_flatten (by decide), hardBits_soft]
  cases k <;> simp [c1Decode, c1Run, hb, h]

/-- A row slot that brings a scrambled codeword gives that word. -/
theorem rowWord_soft (s : State) (c : ChNo) (p : Nat) (w : List Bool) (o : RowObs) (hl : w.length = 4752) (h : c1Ok w = true)
    (hn : 0 < pnat s .ldpcRounds) (ho : o.rounds = [softOf (scramble (rowSeed p c.val) w)]) : rowWord s c p [] o = (w, 0) := by
  obtain ⟨n, hn⟩ := Nat.exists_eq_succ_of_ne_zero (Nat.pos_iff_ne_zero.1 hn)
  have he (l : List Int) : eraseFlagged [] l = l := by simp [eraseFlagged, List.zipIdx_map_fst]
  simp [rowWord, ho, hn, he, c1Llrs_soft _ 198 w hl, c1Rounds, c1Decode_soft w _ h]

/-- The leader copy that carries them. -/
def leadObs : RowObs := { resync := resyncBits, rounds := [softOf (scramble leadSeed (lead81.flatMap byteBits))] }

/-- Its bytes. -/
theorem wit_lead_bytes : copyBytes leadObs = bitsBytes (lead81.flatMap byteBits) := by
  simp only [copyBytes, leadObs, List.headD_cons, c1Llrs_soft leadSeed 27 (lead81.flatMap byteBits) (by decide +kernel), hardBits_soft]

/-- Its copy descrambles to it. -/
theorem wit_lead_code : bitsBytes (lead81.flatMap byteBits) = lead81 := by decide +kernel

/-- A row of data set 9 on channel 0: its header, zeros and the C1 parity. -/
def rowBits : List Bool := (([0, 0, 0, 9, 0, 0, 0, 0, 0, 0, 202, 245] ++ List.replicate 516 0 : List Byte).flatMap byteBits) ++
  natBits 528 0x000000BD00000000000F4E71000000000000000000000000017300000000001E561700000000000000000000000001EA00000000001233B200000000000000000000

/-- Its observation, scrambled as the format says. -/
def rowObs : RowObs := { resync := resyncBits, phaseErr := 25, rounds := [softOf (scramble (rowSeed 0 (0 : ChNo).val) rowBits)] }

/-- A data set under read. -/
def rds : RDs := { dsn := 9, wrap := 0 }

/-- A data set whose every column has been decoded. -/
def decoded : RDs := { rds with dec := (List.range 56).flatMap fun k => (List.range 516).map fun c => (k, c, []) }

/-- Its columns are decoded. -/
theorem decoded_all : anyUndec decoded = false := by
  simp only [anyUndec, List.any_eq_false, List.mem_range]
  intro k hk
  have : undecOf decoded k = [] := by
    simp only [undecOf, List.filter_eq_nil_iff, List.mem_range]
    intro c hc
    have hm : (k, c, ([] : List Byte)) ∈ (sdsPart decoded k).dec := by
      simp only [sdsPart, List.mem_filter, decoded, List.mem_flatMap, List.mem_map, List.mem_range]
      exact ⟨⟨k, hk, c, hc, rfl⟩, by simp⟩
    simp only [decCol]
    rw [Option.isNone_map, Option.isNone_iff_eq_none, List.find?_eq_none]
    intro h
    exact h _ hm (by simp)
  simp [this]

/-- `s` with a data set under read and channel 0 locked to its wrap. -/
def reading (d : RDs) : State := { str with rd := { cur := some d, recon := [d], ch := str.rd.ch.set 0 { locked := true } } }

/-- ReadPath's leader: a sync pattern found and not found, an identity, and a leader's facts. -/
theorem wit_read_leader : 4 < (bestMatch syncBits (List.replicate 64 false)).2 ∧ (bestMatch syncBits (natBits 64 0xF0C65A930)).2 = 0 ∧
    (readIdent (ident3 0 0)).isSome = true ∧ lead9.kind < 4 ∧ str.rd.cur = none ∧ str.rd.recon = [] := by
  decide +kernel

/-- ReadPath's rows. -/
theorem wit_read_row : let s := reading rds
    live s = true ∧ s.rd.cur = some rds ∧ rds.trailer = false ∧ s.rd.ch[(0 : ChNo)].locked = true ∧
    s.rd.ch[(0 : ChNo)].ident = true ∧ ignored s 0 = false ∧ (bestMatch resyncBits rowObs.resync).2 ≤ 4 ∧ rowObs.phaseErr ≤ 25 ∧
    readsAlong s = true ∧ s.used.rows < budget s 256 ∧ rowFlags s 0 rowObs = [] ∧ 0 < pnat s .ldpcRounds ∧
    c1Ok (rowWord s 0 0 (rowFlags s 0 { rowObs with rounds := [] }) { rowObs with rounds := [] }).1 = false ∧
    readsAlong { s with srv := { s.srv with dirRev := true } } = false ∧ budget s 256 ≤ 256 := by decide +kernel

/-- ReadPath's data set that is delivered. -/
theorem wit_read_done (s : State) (h : s = reading decoded) : decoded.c3done = false ∧ decoded.needC3 = false ∧ decoded.c2due = false ∧
    s.rd.recon = [decoded] ∧ anyUndec decoded = false ∧ 0 < c3Room s ∧ c3Room { s with used := { s.used with c3 := 2 } } = 0 := by
  subst h
  exact ⟨rfl, rfl, rfl, rfl, decoded_all, by decide +kernel, by decide +kernel⟩

/-- ReadPath's read ahead, at rest and at its limit. -/
theorem wit_read_ahead :
    (let s := { str with rd := { reading := false, stopped := true }, sad := str.sad.set 2 { lastRead := some 0 } }
     live s = true ∧ s.rd.stopped = true ∧ s.srv.lost = false ∧ (2 : SadNo) ∈ readers s ∧ aheadOf s 2 ≤ (pnat s .aheadDs + 1) / 2) ∧
    (let s := { str with rd := { reading := true, lastDs := pnat str .aheadDs, store := [{ sad := 2, seq := 0, dsn := 0 }] }, sad := str.sad.set 2 { lastRead := some 0 } }
     live s = true ∧ s.rd.reading = true ∧ readers s = [2] ∧ pnat s .aheadDs ≤ aheadOf s 2) := by decide +kernel

/-- A codeword whose header fits is accepted. -/
theorem acceptRow_word (d : RDs) (c : ChNo) (p : Nat) (w : List Bool) (h : RowHdr) (hc : c1Ok w = true)
    (hp : parseRowHeader (codeBytes w) = some h)
    (hf : (h.rkind < 2 && h.dsn = d.dsn && h.wrap = d.wrap && h.chan = c.val && h.row < 120 && h.sds < 64 &&
      (h.rkind = 1 || (h.row = p && h.sds = sdsOnChan c.val p))) = true) : (acceptRow d c p w).isSome = true := by
  unfold acceptRow
  simp only [hc, hp]
  rw [if_neg (by simp), if_pos hf]
  rfl

/-- The length of the row. -/
theorem rowBits_length : rowBits.length = 4752 := by decide +kernel

/-- The row is a C1 codeword. -/
theorem rowBits_ok : c1Ok rowBits = true := by decide +kernel

/-- Its header. -/
theorem rowBits_header : parseRowHeader (codeBytes rowBits) =
    some { dsn := 9, sds := 0, rkind := 0, row := 0, sad := 0, wrap := 0, chan := 0, slotpos := 0 } := by decide +kernel

/-- The row that `rowObs` carries passes R335's checks. -/
theorem wit_row (s : State) (hn : 0 < pnat s .ldpcRounds) : (acceptRow rds 0 0 (rowWord s 0 0 [] rowObs).1).isSome = true := by
  rw [rowWord_soft s 0 0 rowBits rowObs rowBits_length rowBits_ok hn rfl]
  exact acceptRow_word rds 0 0 rowBits _ rowBits_ok rowBits_header (by decide +kernel)

/-- A data set whose columns are all undecoded takes a rescue pass. -/
theorem wit_rescue : anyUndec { rds with c3done := true } = true := by decide +kernel

/-! ### Witnesses: servo, motor drives, flash and rings -/

/-- A frame's stripes as a reader at the band's middle sees them. -/
def goodFrame : StripeTimes := { p := [0, 6000, 12000], v := [30000, 35000], n := [160000, 166000, 172000], pNext := [240000, 246000, 252000] }

/-- ServoDecoding: frames without a valid sample and with one, a band lost beside a good one and a lost one, a band found again, and a tape
that wedges no longer find. -/
theorem wit_servo : readFrame { p := [], v := [], n := [], pNext := [] } = none ∧ (readFrame goodFrame).isSome = true ∧
    (let s := { str with srv := { miss := #v[pnat str .lostFrames, 0] } }
     live s = true ∧ s.srv.gone[(0 : Fin 2)] = false ∧ pnat s .lostFrames ≤ s.srv.miss[(0 : Fin 2)] ∧ s.srv.gone[(1 : Fin 2)] = false) ∧
    (let s := { str with srv := { miss := #v[0, pnat str .lostFrames], gone := #v[true, false] }, rd := { reading := true } }
     live s = true ∧ s.srv.gone[(1 : Fin 2)] = false ∧ pnat s .lostFrames ≤ s.srv.miss[(1 : Fin 2)] ∧ s.srv.gone[(0 : Fin 2)] = true ∧
     s.rd.reading = true ∧ s.srv.wedgeMode = false ∧ pnat s .wedgeMode = 1) ∧
    pnat (cfgPut str { id := .wedgeMode } (.n 0)) .wedgeMode ≠ 1 ∧
    (let s := { str with srv := { good := #v[pnat str .regainFrames, 0] } }
     live s = true ∧ s.srv.bandLo = false ∧ pnat s .regainFrames ≤ s.srv.good[(0 : Fin 2)]) ∧
    (let s := { str with srv := { wedgeMode := true }, rd := { noWedge := 4 * bitsNm3 (frameLen 0) } }
     live s = true ∧ s.srv.wedgeMode = true ∧ 4 * bitsNm3 (frameLen 0) ≤ s.rd.noWedge) := by decide +kernel

/-- A received frame of the motor drive link in tick 0. -/
def mdlFrame (flags : Byte) : List Byte := let h : List Byte := [0x3C, 0xA5, 0, flags] ++ List.replicate 14 0; h ++ beBytes 2 (crc16 h).toNat

/-- MotionLinkAndBackhitch: no frame, good ones with and without a fault, the domain off, a FILL due at the lower limit, and a wait that is
over. -/
theorem wit_motion : (live str = true ∧ str.pw.dom.motion ≠ .off ∧ mdlRxOk str (mdlFrame 0) = true ∧ mdlRxOk str (mdlFrame 128) = true ∧
      mdlRxOk str [] = false ∧ beField (mdlFrame 0) 3 1 < 128 ∧ 128 ≤ beField (mdlFrame 128) 3 1) ∧
    1 ≤ ({ str with srv := { mdlFaults := 1 } } : State).srv.mdlFaults ∧
    (let s := { str with pw := { str.pw with dom := { motion := .off } } }; live s = true ∧ s.pw.dom.motion = .off) ∧
    (let s := { cfgPut str { id := .lowPolicy } (.n 1) with rein := { lowTicks := pnat str .reinDwell } }
     live s = true ∧ s.pw.mode = .stream ∧ s.med.positioned = true ∧ s.rein.bh = .none ∧ pnat s .lowPolicy = 1 ∧
     s.med.flush = false ∧ s.med.stopAfter = false ∧ pnat s .reinDwell ≤ s.rein.lowTicks ∧ fillNext s = true) ∧
    (let s := { str with rein := { bh := .wait }, med := { str.med with flush := true } }
     live s = true ∧ s.rein.bh = .wait ∧ s.rein.bhAt.toNat ≤ now s ∧ bhWanted s = true) := by decide +kernel

/-- A descriptor that reads one word into the buffer DRAM. -/
def rdDesc : Desc := { op := 1, faddr := 0x4A000, daddr := 0, len := 4 }

/-- An open descriptor queue. -/
def queued (d : Desc) : State := { on with fl := { queueOpen := true, queue := [d] } }

/-- PoolAndFlashWork. -/
theorem wit_flash : (let s := { on with pool := { audRun := true } }; live s = true ∧ s.pool.audRun = true) ∧
    (let s := { on with fl := { erasing := some 0x200 } }
     live s = true ∧ s.fl.erasing = some 0x200 ∧ flashCommand s = none ∧ s.fl.todo = [] ∧ s.fl.journal.entries.length < 509 ∧ s.fl.suspended = false) ∧ on.fl.erasing = none ∧
    (live (queued { rdDesc with len := 3 }) = true ∧ firstPending (queued { rdDesc with len := 3 }) = some (0 : Fin 16).val ∧
     (queued { rdDesc with len := 3 }).fl.queue[(0 : Fin 16).val]? = some { rdDesc with len := 3 } ∧
     flashCommand (queued { rdDesc with len := 3 }) = none ∧ descMisaligned { rdDesc with len := 3 } = true) ∧
    (let d := { rdDesc with faddr := 0x40000, daddr := 0x400000000 }
     firstPending (queued d) = some (0 : Fin 16).val ∧ descMisaligned d = false ∧ descProtected (queued d) d = true ∧ dramSize (queued d) < d.daddr + d.len) ∧
    (live (queued rdDesc) = true ∧ firstPending (queued rdDesc) = some (0 : Fin 16).val ∧ flashCommand (queued rdDesc) = none ∧ rdDesc.op = 1 ∧
     descMisaligned rdDesc = false ∧ descProtected (queued rdDesc) rdDesc = false ∧ rdDesc.daddr + rdDesc.len ≤ dramSize (queued rdDesc)) ∧
    (let s := { on with fw := { trial := true, marks := 8 } }
     live s = true ∧ s.fw.trial = true ∧ s.fw.expired = false ∧ s.fw.marks < 9 ∧ s.fl.boot.entries.length < 511) ∧
    (let s := { on with fw := { trial := true, marks := 9 } }; live s = true ∧ s.fw.trial = true ∧ s.fw.expired = false ∧ s.fw.marks = 9) ∧
    (let s := { on with fw := { trial := true, health := pnat on .healthTicks } }
     live s = true ∧ mayConfirm s = true ∧ s.fl.boot.entries.length < 511) := by decide +kernel

/-- A part whose saddle 2 is bound to its VF and whose function 3 has its rings on, with one slot to fetch. -/
def ringed : State := modFn bound 3 fun x => { x with en := true, cmdCons := 65535, fetched := 65535, pSeen := 0 }

/-- Rings: a doorbell before DEV_READY, an ignored one, one at each edge of its range, and slots with the right and with a wrong SEQ. -/
theorem wit_rings : (live { on with pw := {} } = true ∧ ({ on with pw := {} } : State).pw.devReady = false) ∧
    (live on = true ∧ on.pw.devReady = true ∧ bellIgnored on 3 = true) ∧
    (live ringed = true ∧ ringed.pw.devReady = true ∧ bellIgnored ringed 3 = false) ∧
    (let x := ringed.pcie.fn[(3 : FnNo)]
     (63 + 65536 - x.cmdCons) % 65536 = 64 ∧ (x.pSeen + 65536 - x.cmdCons) % 65536 < 64 ∧ (65535 + 65536 - x.cmdCons) % 65536 = 0 ∧
     64 < (64 + 65536 - x.cmdCons) % 65536) ∧
    (let x := (modFn ringed 3 fun x => { x with rplProd := 64, cSeen := 0 }).pcie.fn[(3 : FnNo)]
     (x.rplProd + 65536 - 1) % 65536 ≤ 64 ∧ (x.rplProd + 65536 - 1) % 65536 < (x.rplProd + 65536 - x.cSeen) % 65536 ∧
     (x.rplProd + 65536 - 0) % 65536 = 64 ∧ 64 < (x.rplProd + 65536 - 65535) % 65536) ∧
    (fetchable ringed 3 = true ∧ leVal (slice ([0, 0, 0xFF, 0xFF] : List Byte) 2 2) = ringed.pcie.fn[(3 : FnNo)].fetched ∧
     leVal (slice ([0, 0, 0, 0] : List Byte) 2 2) ≠ ringed.pcie.fn[(3 : FnNo)].fetched ∧ ringed.pcie.fn[(3 : FnNo)].retry = false) ∧
    (let s := modFn ringed 3 fun x => { x with retry := true }; fetchable s 3 = true ∧ s.pcie.fn[(3 : FnNo)].retry = true) ∧
    (live on = true ∧ fetchable on 3 = false) := by decide +kernel

/-- RegisterWrites and ReadsThatClear: functions that show a window, enabled rings and disabled ones, accesses of a wrong size and across a
boundary, a vector that functions have, and pairs of halves with and without a latch. -/
theorem wit_registers : live on = true ∧ ((3 : FnNo) = vfOf 2 ∧ (4 : FnNo) ≠ 0 ∧ (4 : FnNo) ≠ vfOf 2) ∧ ringed.pcie.fn[(3 : FnNo)].en = true ∧
    on.pcie.fn[(3 : FnNo)].en = false ∧ ¬ (2 = 4 ∧ 0x844 % 4 = 0) ∧ ¬ (4 = 8 ∧ (0x844 = 0x800 ∨ 0x844 = 0x808 ∨ 0x844 = 0x810)) ∧
    0x104 / 8 ≠ (0x104 + 8 - 1) / 8 ∧ (15 : Fin 16).val < (if (0 : FnNo) = 0 then 16 else 4) ∧ (3 : Fin 16).val < (if (3 : FnNo) = 0 then 16 else 4) ∧
    pairAt (quiet on) 3 0x100 = some on.clk.ptc.toNat ∧ look (0x100 + 4) on.pcie.fn[(3 : FnNo)].latch = none ∧
    look (0x100 + 4) (modFn on 3 fun x => { x with latch := [(0x104, 7)] }).pcie.fn[(3 : FnNo)].latch = some 7 := by decide +kernel

/-- A WRITE of eight bytes that executes on saddle 2. -/
def writing : Entry := going 3 (.write { len := 8, src := .sg [(0, 8)] })

/-- LinkEvents: saddles bound to VF and to the console, VFs that an event removes and keeps, and a WRITE whose bytes arrive. -/
theorem wit_link : (live bound = true ∧ bindOf bound 2 = .vf ∧ bindOf bound 3 = .console) ∧
    (let s := { on with pcie := { vfEn := true, numVfs := 8 } }; live s = true ∧ s.pcie.vfEn = true ∧ (7 : SadNo).val < s.pcie.numVfs ∧ 7 ≤ (7 : SadNo).val ∧ (6 : SadNo).val < 7) ∧
    (let s := modSad (sadQ bound 2 [writing]) 2 fun x => { x with caddies := [(0, 0)] }
     live s = true ∧ bindOf s 2 = .vf ∧ writeWanted s 2 = some writing ∧ ([1, 2, 3] : List Byte).length ≤ 8 - writing.data.length ∧
     roomFor s 2 (blockOf s 2) ([1, 2, 3] : List Byte).length = true ∧ entryOf s (.sad 2) writing.tag = some writing ∧
     ([1, 2, 3] : List Byte).length ≤ dmaInRoom s 2 ∧ dmaInRoom { s with used := { s.used with dmaIn := 1048576 } } 2 = 0) := by decide +kernel

/-- Saddle 2 bound to sample port 1, whose data channel the control unit holds. -/
def onPort : State :=
  modPort (modSad (cfgPut bound { id := .sadBind, i := 2 } (.n 3)) 2 fun x => { x with caddies := [(0, 0)] }) 1 fun x => { x with owner := 1, selD := true }

/-- PortsAndSensors. -/
theorem wit_ports : (live on = true ∧ on.port[(1 : PortNo)].owner ≠ 1) ∧
    (let s := modPort on 1 fun x => { x with owner := 1 }
     live s = true ∧ s.port[(1 : PortNo)].owner = 1 ∧ pnat s .portFlow (1 : PortNo).val = 0 ∧ readyData s 1 = false ∧
     s.used.port[(1 : PortNo)] + wordBytes s 1 ≤ budget s 20000) ∧
    (let s := { on with used := { on.used with port := Vector.replicate 4 20000 } }; live s = true ∧ budget s 20000 < s.used.port[(1 : PortNo)] + wordBytes s 1) ∧
    (let s := modPort onPort 1 fun x => { x with fifo := [1, 2, 3, 4] }
     live s = true ∧ s.port[(1 : PortNo)].owner = 1 ∧ readyData s 1 = true ∧ portBlocked s 1 = false ∧ sadOfPort s 1 = some 2 ∧
     writeWanted s 2 = none ∧ wordBytes s 1 ≤ s.port[(1 : PortNo)].fifo.length ∧ s.used.port[(1 : PortNo)] + wordBytes s 1 ≤ budget s 20000 ∧
     s.sad[(2 : SadNo)].q.entries = []) ∧
    (let s := modPort (cfgPut on { id := .portFlow, i := 1 } (.n 1)) 1 fun x => { x with owner := 1 }
     live s = true ∧ s.port[(1 : PortNo)].owner = 1 ∧ pnat s .portFlow (1 : PortNo).val = 1 ∧ portBlocked s 1 = true ∧ sadOfPort s 1 = none ∧
     s.port[(1 : PortNo)].fifo = [] ∧ s.used.port[(1 : PortNo)] + wordBytes s 1 ≤ budget s 20000) ∧
    (let s := modPort on 1 fun x => { x with owner := 2, ses := { mode := .generated } }
     live s = true ∧ s.port[(1 : PortNo)].owner = 2 ∧ readyCtl s 1 = true ∧ s.port[(1 : PortNo)].ses.mode = .generated ∧
     (0x41 : Byte) ≠ 0x0D ∧ (0x41 : Byte) ≠ 0x0A ∧ s.port[(1 : PortNo)].ses.line.length < 200) ∧
    (live on = true ∧ ready on = true ∧ pollDue on = true ∧ on.sens.shock.absent = false) ∧
    (let s := { on with sens := { lastPoll := 5 }, clk := { on.clk with ptc := 5 } }; live s = true ∧ pollDue s = false) := by decide +kernel

/-! ### Values the spec gives -/

/-- The check values of R113 and R278. -/
theorem test_crc_check_values : crc16 (ascii "123456789") = 0x29B1 ∧ crc32 (ascii "123456789") = 0xCBF43926 := by decide +kernel

/-- The full blocks of R232's examples. -/
theorem test_full_block : ([1, 2, 4, 8].map (fullBlock .s16)) = [4096, 4096, 4096, 4096] ∧ fullBlock .s24 1 = 4095 ∧ fullBlock .s24 8 = 4080 ∧
    fullBlock .s16 5 = 4090 := by decide +kernel

/-- R506 counts 446 leaves. -/
theorem test_leaf_count : allParams.length = 446 := by decide +kernel

/-- R268 from seed 1, by hand: the 1 in s0 reaches s13 after 13 steps. -/
theorem test_scrambler : scrambleBits 15 1 = List.replicate 13 false ++ [true, true] := by decide +kernel

/-! ### Single steps -/

/-- A tick counts, and turns HB over (R1). -/
theorem test_tick_counts : (after (.tickBoundary {}) on).map (fun t => (t.clk.ptc, t.clk.hb)) = some (1, true) := by decide +kernel

/-- Losing the crystal asks for HALT with its cause. -/
theorem test_xtal_halts : (after .xtalLost on).bind (·.pw.haltPend) = some .xtal := by decide +kernel

/-- A frame of the motor drive link: the supply encoder in bytes 4-7, the take-up current in bytes 16-17 (R378). -/
def mdlMoved : List Byte := let h : List Byte := [0x3C, 0xA5, 0, 0, 0, 0, 1, 2, 0, 0, 3, 4, 0, 0, 0, 5, 0xFF, 0xFE]; h ++ beBytes 2 (crc16 h).toNat

/-- It brings its encoders and currents. -/
theorem test_mdl_frame : (after (.mdlRxFrame (some mdlMoved)) str).map (fun t => (t.srv.encS, t.srv.encT, t.srv.iS, t.srv.iT)) =
    some (0x102, 0x304, 5, -2) := by decide +kernel

/-- KEY ZERO empties its slot and no other. -/
theorem test_key_zero : (after (.keyZero (some 0) 3) (exe { on with keys := { slots := Vector.replicate 16 (some []) } } .adm 0 (.keyZero 3))).map
    (fun t => (t.keys.slots[3], t.keys.slots[4])) = some (none, some []) := by decide +kernel

/-- Unmasking a vector with a pending message posts it (R446). -/
theorem test_msix_unmask : (after (.msixUnmask 0 2) (modFn on 0 fun x => { x with pba := x.pba.set 2 true })).map (·.out.msix) = some [(0, 2)] := by
  decide +kernel

/-- SCRATCH keeps what is written. -/
theorem test_scratch : (after (.registerWrite 3 0x844 4 0xDEADBEEF) on).map (fun t => regRead t 3 0x844) = some 0xDEADBEEF := by decide +kernel

/-- A write of 2 B is dropped and logged (R429). -/
theorem test_short_write : (after (.registerWrite 3 0x844 2 7) on).map (fun t => (t.pcie.fn[(3 : FnNo)].scratch, t.evt.staging.map (·.code))) =
    some (0, [0x0901]) := by decide +kernel

/-- A WRITE's bytes arrive behind those it has. -/
theorem test_dma_bytes : (after (.dmaComplete 3 .writeData (.ok [1, 2, 3])) (modSad (sadQ bound 2 [{ writing with data := [9] }]) 2
    fun x => { x with caddies := [(0, 0)] })).map (fun t => t.sad[(2 : SadNo)].q.entries.map (·.data)) = some [[9, 1, 2, 3]] := by decide +kernel

end Sys2Proof.Tests
end

section
/-! SUPPORT. How the steps of `exec` end: every row but those that move the clock ends as `fin` does, which keeps the clock and the
waiting commands; the one fault is a flash descriptor's. -/

namespace Sys2Proof.Machine

open Sys2Proof

/-- The row of a verb that may be immediate or queued ends as `fin` does. -/
theorem eitherRow_fin (ch : Chan) (tag : Option Nat) (v : Verb) (body : Nat → State → State) (s : State) :
    ∃ u, eitherRow ch tag v body s = fin s u := by
  cases tag with
  | none => exact ⟨_, rfl⟩
  | some t => exact ⟨_, rfl⟩

/-- A flash descriptor faults beyond the DRAM (R213, R398), and otherwise ends as `fin` does. -/
theorem execFlashDescriptor_fin_or_fault (i : Fin 16) (fails : Option (Nat × Bool)) (s : State) :
    (∃ u, execFlashDescriptor i fails s = fin s u) ∨ ∃ f, execFlashDescriptor i fails s = .fault f := by
  unfold execFlashDescriptor
  split
  · split
    · exact .inr ⟨_, rfl⟩
    · exact .inl ⟨_, rfl⟩
  · exact .inl ⟨_, rfl⟩

/-- Every command but a tick boundary and those that begin or end a power-on reset ends as `fin` does, or faults. The rows not named
in the proof are `act`, `actIf` or `verbRow`, each `fin` by definition. -/
theorem exec_fin_or_fault (c : Instr) (s : State) (hc : clkStepOf c = false) :
    (∃ u, exec c s = fin s u) ∨ ∃ f, exec c s = .fault f := by
  cases c with
  | tickBoundary | porstAssert | porstDeassert | supplyUndervoltage | undervoltageRelease => cases hc
  | flashDescriptor i fails => exact execFlashDescriptor_fin_or_fault i fails s
  | hello | status | get | set => exact .inl (eitherRow_fin _ _ _ _ s)
  | _ => exact .inl ⟨_, rfl⟩

/-- Such a command keeps PTC, the session ID, HB and the reset pins, and the commands that wait. -/
theorem exec_kept {c : Instr} {s t : State} (hc : clkStepOf c = false) (h : exec c s = .next t) :
    t.clk = s.clk ∧ t.pending = s.pending := by
  rcases exec_fin_or_fault c s hc with ⟨u, hu⟩ | ⟨f, hf⟩
  · exact fin_kept (hu ▸ h)
  · simp [hf] at h

/-- A tick boundary, of a part in any state, keeps the session ID. -/
theorem execTickBoundary_session {x : TickIn} {s t : State} (h : execTickBoundary x s = .next t) :
    t.clk.session = s.clk.session := by
  unfold execTickBoundary at h
  split at h
  · cases h; rfl
  · split at h <;> cases h <;> rfl

/-- Settles O3: the rows that are neither a tick boundary nor a reset end as `fin` does, and a tick boundary counts PTC alone. -/
theorem onlyTicksAndResetsAlterPtc : Obligations.OnlyTicksAndResetsAlterPtc := by
  intro c s t h
  refine ⟨fun hc => (exec_kept hc h).1, ?_⟩
  rintro x rfl
  exact execTickBoundary_session h

end Sys2Proof.Machine
end

section
/-! SUPPORT. The end of a power-on reset (R28, R58, R424, R482): which of the causes of reset remain, and a stage-1 image that
fails its check. -/

namespace Sys2Proof.Machine

open Sys2Proof

@[simp] theorem selectSource_pw (s : State) (ftick : Bool) : (selectSource s ftick).pw = s.pw := by
  unfold selectSource
  dsimp only
  split
  · rfl
  · split <;> split <;> simp [logSlew, logFlywheel]

@[simp] theorem syncCfg_pw (s : State) : (syncCfg s).pw = s.pw := by
  simp [syncCfg]

/-- A stage-1 image that fails its check stops the boot (R424 step 2). -/
theorem bootDecide_dead (s : State) {o : BootObs} (ho : o.stage1Ok = false) : (bootDecide s o).pw.dead = true := by
  simp [bootDecide, ho]

/-- So start-up leaves a part that is stopped, whatever configuration it then follows. -/
theorem syncCfg_startUp_dead (e : W64) (g : Bool) {o : BootObs} (s : State) (ho : o.stage1Ok = false) :
    (syncCfg (startUp e g o s)).pw.dead = true := by
  simp [startUp, bootDecide_dead, ho]

/-- PORST_N's end with no cause left starts the part up under the word drawn (R28). -/
theorem exec_porstDeassert_starts {e : W64} {s : State} (g : Bool) (o : BootObs) (hp : s.clk.porst = true) (hu : s.clk.uv = false)
    (he : e ≠ 0#64) : exec (.porstDeassert e false g o) s =
      .next { syncCfg (startUp e g o s) with pending := s.pending, clk := { s.clk with porst := false, session := e } } := by
  change execPorstDeassert e false g o s = _
  simp [execPorstDeassert, hp, hu, he]

/-- The supply's return with PORST_N released starts the part up under the word drawn (R28, R482). -/
theorem exec_undervoltageRelease_starts {e : W64} {s : State} (g : Bool) (o : BootObs) (hu : s.clk.uv = true)
    (hp : s.clk.porst = false) (he : e ≠ 0#64) : exec (.undervoltageRelease e false g o) s =
      .next { syncCfg (startUp e g o s) with pending := s.pending, clk := { s.clk with uv := false, session := e } } := by
  change execUndervoltageRelease e false g o s = _
  simp [execUndervoltageRelease, hp, hu, he]

/-- The end of one cause of reset while the other holds is noted only (R26, R482). -/
theorem exec_resetEnd_held {e : W64} {s : State} (g : Bool) (o : BootObs) (hp : s.clk.porst = true) (hu : s.clk.uv = true)
    (he : e ≠ 0#64) : exec (.porstDeassert e false g o) s = .next { s with clk := { s.clk with porst := false } } ∧
      exec (.undervoltageRelease e false g o) s = .next { s with clk := { s.clk with uv := false } } := by
  change execPorstDeassert e false g o s = _ ∧ execUndervoltageRelease e false g o s = _
  simp [execPorstDeassert, execUndervoltageRelease, hp, hu, he]

/-- The word 0 is never a session ID: neither end of a reset takes it (R28, log 3). -/
theorem exec_resetEnd_zero (tm g : Bool) (o : BootObs) (s : State) :
    exec (.porstDeassert 0#64 tm g o) s = .next s ∧ exec (.undervoltageRelease 0#64 tm g o) s = .next s := by
  change execPorstDeassert 0#64 tm g o s = _ ∧ execUndervoltageRelease 0#64 tm g o s = _
  simp [execPorstDeassert, execUndervoltageRelease]

/-- Settles O13: the two ends of a reset, by which cause of reset is left and whether a session ID was drawn. -/
theorem startsDrawASessionId : Obligations.StartsDrawASessionId := by
  refine ⟨?_, ?_, ?_, exec_resetEnd_zero⟩
  · intro e g o s hp hu he
    exact ⟨_, exec_porstDeassert_starts g o hp hu he, rfl, syncCfg_startUp_dead e g s⟩
  · intro e g o s hu hp he
    exact ⟨_, exec_undervoltageRelease_starts g o hu hp he, rfl, syncCfg_startUp_dead e g s⟩
  · exact fun e g o s hp hu he => exec_resetEnd_held g o hp hu he

end Sys2Proof.Machine
end

section
/-! SUPPORT. The reset of a saddle (R95-R97, R99, R81, R200): what asking for it, applying it and its end do to State. -/

namespace Sys2Proof.Machine

open Sys2Proof

/-- A step that its rule does not enable clears the outputs of the step before and changes nothing else (log 3). -/
theorem actIf_live_disabled {s : State} {c : Bool} (h : live s = true) (hc : c = false) (f : State → State) :
    actIf s c f = .next (quiet s) := by
  rw [actIf, act_live h, hc]
  rfl

/-! ### Changes of one saddle -/

/-- A change of a saddle is told by what it makes of that saddle. -/
theorem modSad_congr {s : State} {n : SadNo} {f g : Saddle → Saddle} (h : f s.sad[n] = g s.sad[n]) : modSad s n f = modSad s n g := by
  simp only [modSad, h]

/-- A change that leaves its saddle as it was leaves State as it was. -/
theorem modSad_eq_self {s : State} {n : SadNo} {f : Saddle → Saddle} (h : f s.sad[n] = s.sad[n]) : modSad s n f = s := by
  rw [modSad, h]
  simp

/-- Changing an entry into itself changes nothing. -/
theorem modEntry_id (s : State) (ch : Chan) (t : Nat) : modEntry s ch t id = s := by
  have h : ∀ e : Entry, (if e.tag == t then id e else e) = e := by intro e; split <;> rfl
  simp only [modEntry, h, List.map_id']
  cases ch with
  | adm => rfl
  | sad n => exact modSad_eq_self (f := fun x => { x with q := { x.q with entries := x.q.entries } }) rfl

/-! ### Latches (R79, R81, R446) -/

/-- Every cause but RESET_DONE that latches while a reset masks the causes is discarded (R81). -/
theorem latch_masked {s : State} {n : SadNo} {k : Nat} (hm : s.sad[n].irq.masked = true) (hk : k ≠ 3) : latch s n k = s :=
  modSad_eq_self (by simp only [hm, bne_iff_ne.2 hk, Bool.and_self, if_true])

/-- RESET_DONE latches, whether or not the causes are masked (R81). -/
theorem latch_resetDone_cause (s : State) (n : SadNo) : (latch s n 3).sad[n].irq.cause.contains 3 = true := by
  simp only [latch, Fin.getElem_fin, modSad_get_same]
  by_cases h : s.sad[n.val].irq.cause.contains 3 = true <;> simp_all

/-- Latching RESET_DONE leaves the mask as it is. -/
theorem latch_resetDone_masked (s : State) (n : SadNo) : (latch s n 3).sad[n].irq.masked = s.sad[n].irq.masked := by
  simp [latch]

/-- RESET_DONE latches for the admin channel (R446). -/
theorem latchPf_resetDone_cause (s : State) : (latchPf s 3).pcie.irq.cause.contains 3 = true := by
  by_cases h : s.pcie.irq.cause.contains 3 = true <;> simp_all [latchPf]

/-- Latching RESET_DONE for the admin channel leaves the saddles held by a function-level reset as they are. -/
theorem latchPf_flr (s : State) (k : Nat) : (latchPf s k).pcie.flr = s.pcie.flr := by
  obtain ⟨i, h⟩ := latchPf_pcie s k
  rw [h]

/-- An INFO record latches nothing: it writes the event log only (R493). -/
theorem logE_info (s : State) (src code : Nat) (body : List (String × Nat × Nat)) : ∃ v, logE s .info src code body = { s with evt := v } :=
  stage_eq s { ptc := s.clk.ptc, session := s.clk.session, sev := .info, src := src, code := code, body := body, text := none }

/-! ### The queues alone -/

/-- One state differs from another in its queues of commands at most. -/
def QueuesOnly (s t : State) : Prop :=
  t = { s with adm := t.adm, sad := t.sad } ∧ ∀ m : SadNo, t.sad[m] = { s.sad[m] with q := t.sad[m].q }

theorem QueuesOnly.refl (s : State) : QueuesOnly s s := ⟨rfl, fun _ => rfl⟩

theorem QueuesOnly.withQueue {s t : State} (h : QueuesOnly s t) (ch : Chan) (q : Queue) : QueuesOnly s (withQueue t ch q) := by
  obtain ⟨ht, hs⟩ := h
  cases ch with
  | adm => exact ⟨by rw [ht]; rfl, hs⟩
  | sad n =>
    refine ⟨by rw [ht]; rfl, fun m => ?_⟩
    have hw : (Machine.withQueue t (.sad n) q).sad[m] = if n = m then { t.sad[n] with q := q } else t.sad[m] := modSad_get t n m _
    rw [hw]
    split
    · next hnm => subst hnm; rw [hs n]
    · exact hs m

theorem QueuesOnly.complete {s t : State} (h : QueuesOnly s t) (ch : Chan) (k : Nat) (o : Outc) : QueuesOnly s (complete t ch k o) := by
  obtain ⟨q, hq⟩ := complete_withQueue t ch k o
  rw [hq]
  exact h.withQueue ch q

/-- The completions of the SRESETs of a saddle change queues only (R200). -/
theorem endSresets_queuesOnly (s : State) (n : SadNo) (k : Nat) : QueuesOnly s (endSresets s n k) :=
  foldl_keeps (QueuesOnly s) _ (fun _ ch h => foldl_keeps (QueuesOnly s) _ (fun _ e h => h.complete ch e.tag _) _ _ h) _ _ (.refl s)

/-! ### Asking for a reset (R95) -/

/-- SRESET's effect, on a state whose queue is put in place: the reset of its target is asked for. -/
theorem sresetVerb_withQueue {ch : Chan} {sad : Option SadNo} {n : SadNo} (hn : targetOf ch sad = some n) (t : Nat) (s : State) (q : Queue) :
    sresetVerb ch sad t (withQueue s ch q) = withQueue (modSad s n fun x => { x with resetReq := true }) ch q := by
  simp only [sresetVerb, hn, askReset]
  cases ch with
  | adm => rfl
  | sad m =>
    cases hn
    simp [withQueue, modSad]

/-- SRESET asks for the reset of its target and goes on (R95, R200). -/
theorem exec_sreset_goesOn {s : State} {ch : Chan} {t : Nat} {sad : Option SadNo} {n : SadNo} (hn : targetOf ch sad = some n)
    (h : Runs s ch t (.sreset sad)) : GoesOn (.sreset ch (some t) sad) s ch t (modSad (quiet s) n fun x => { x with resetReq := true }) :=
  verbRow_goes id h (by rw [sresetVerb_withQueue hn, modEntry_id]) (fun _ => ⟨rfl, rfl, rfl, rfl⟩) rfl rfl

/-! ### Applying a reset (R81, R96, R99) -/

/-- A reset that was asked for is applied: `applyReset` writes its saddle only. -/
theorem exec_saddleReset {s : State} {n : SadNo} (hl : live s = true) (hr : s.sad[n].resetReq = true) :
    exec (.saddleReset n) s = .next (applyReset n (quiet s)) :=
  actIf_live_kept hl hr _ rfl rfl

/-- Applied with none running, it starts, and the saddle's causes are cleared and masked (R81, R96). -/
theorem applyReset_starts {s : State} {n : SadNo} (hr : s.sad[n].resetReq = true) (hn : s.sad[n].reset = none) :
    applyReset n s = modSad s n fun x => { x with
      resetReq := false, reset := some { start := s.clk.ptc }, dropped := none
      irq := { x.irq with masked := true, cause := [], cnt := [], due := [] } } :=
  modSad_congr (by simp only [hr, hn, Bool.not_true, Option.isSome_none, Bool.false_eq_true, if_false])

/-- A reset that runs absorbs one that was asked for (R99). -/
theorem applyReset_absorbed {s : State} {n : SadNo} (hr : s.sad[n].resetReq = true) (hs : s.sad[n].reset.isSome = true) :
    applyReset n s = modSad s n fun x => { x with resetReq := false } :=
  modSad_congr (by simp only [hr, hs, Bool.not_true, Bool.false_eq_true, if_false, if_true])

/-! ### The end of a reset (R81, R96, R200) -/

/-- A saddle whose reset is over: its causes are unmasked, and a function-level reset no longer holds it. -/
def resetUnmasked (n : SadNo) (s : State) : State :=
  let u := modSad s n fun x => { x with reset := none, irq := { x.irq with masked := false } }
  { u with pcie := { u.pcie with flr := u.pcie.flr.filter (· ≠ n.val) } }

theorem resetUnmasked_saddle (n : SadNo) (s : State) :
    (resetUnmasked n s).sad[n] = { s.sad[n] with reset := none, irq := { s.sad[n].irq with masked := false } } :=
  modSad_get_same s n fun x => { x with reset := none, irq := { x.irq with masked := false } }

/-- The same with RESET_DONE latched for the saddle and for the admin channel (R81). -/
def resetReleased (n : SadNo) (s : State) : State := latchPf (latch (resetUnmasked n s) n 3) 3

/-- The released saddle has no reset, its causes are unmasked and RESET_DONE is among them; its stream is as it was. -/
theorem resetReleased_saddle (n : SadNo) (s : State) :
    (resetReleased n s).sad[n].reset = none ∧ (resetReleased n s).sad[n].irq.masked = false ∧
      (resetReleased n s).sad[n].irq.cause.contains 3 = true ∧ (resetReleased n s).sad[n].st = s.sad[n].st ∧
      (resetReleased n s).sad[n].unsync = s.sad[n].unsync := by
  have hu := resetUnmasked_saddle n s
  have hm := latch_resetDone_masked (resetUnmasked n s) n
  have hc := latch_resetDone_cause (resetUnmasked n s) n
  obtain ⟨i, hi⟩ := latch_saddle (resetUnmasked n s) n n 3
  rw [hu] at hi hm
  simp only [resetReleased, latchPf_sad]
  exact ⟨by rw [hi], hm, hc, by rw [hi], by rw [hi]⟩

/-- RESET_DONE is latched for the admin channel, and the saddle leaves those that a function-level reset holds. -/
theorem resetReleased_pcie (n : SadNo) (s : State) :
    (resetReleased n s).pcie.irq.cause.contains 3 = true ∧ (resetReleased n s).pcie.flr = s.pcie.flr.filter (· ≠ n.val) :=
  ⟨latchPf_resetDone_cause _, latchPf_flr _ _⟩

/-- RESET_DONE's step releases the saddle; past that it writes the event log and queues only (R96, R200). -/
theorem saddleResetDone_released {n : SadNo} {s : State} {r : ResetRun} (hr : s.sad[n].reset = some r) :
    ∃ v, QueuesOnly { resetReleased n s with evt := v } (saddleResetDone n s) := by
  obtain ⟨v, hv⟩ := logE_info (resetReleased n s) n.val 0x0205 [("ticks", 1, r.ticks)]
  refine ⟨v, ?_⟩
  have hd : saddleResetDone n s = endSresets (logE (resetReleased n s) .info n.val 0x0205 [("ticks", 1, r.ticks)]) n r.ticks := by
    simp only [saddleResetDone, hr]
    rfl
  rw [hd, hv]
  exact endSresets_queuesOnly _ _ _

/-- Once its last step has run, RESET_DONE's row ends the reset (R96, log 131). -/
theorem exec_saddleResetDone_ends {s : State} {n : SadNo} {r : ResetRun} (hl : live s = true) (hr : s.sad[n].reset = some r)
    (ht : 16 ≤ r.ticks - r.overruns) : exec (.saddleResetDone n) s = .next (saddleResetDone n (quiet s)) := by
  obtain ⟨v, hd, _⟩ := saddleResetDone_released (s := quiet s) hr
  have ho : resetOver s n = true := by simp only [resetOver, hr, ht, Option.map_some, decide_true, Option.getD_some]
  exact actIf_live_kept hl ho _ (by rw [hd]; rfl) (by rw [hd]; rfl)

/-- Before that the row does nothing (logs 3 and 131). -/
theorem exec_saddleResetDone_early {s : State} {n : SadNo} {r : ResetRun} (hl : live s = true) (hr : s.sad[n].reset = some r)
    (ht : r.ticks - r.overruns < 16) : exec (.saddleResetDone n) s = .next (quiet s) := by
  have ho : resetOver s n = false := by simp only [resetOver, hr, Nat.not_le.2 ht, Option.map_some, decide_false, Option.getD_some]
  exact actIf_live_disabled hl ho _

/-- What a reset's end leaves: the saddle released, RESET_DONE latched on both sides, and the stream, the media side and the
configuration as they were. -/
theorem saddleResetDone_ends {n : SadNo} {s : State} {r : ResetRun} (hr : s.sad[n].reset = some r) :
    (saddleResetDone n s).sad[n].reset = none ∧ (saddleResetDone n s).sad[n].irq.masked = false ∧
      (saddleResetDone n s).sad[n].irq.cause.contains 3 = true ∧ (saddleResetDone n s).pcie.irq.cause.contains 3 = true ∧
      (saddleResetDone n s).pcie.flr = s.pcie.flr.filter (· ≠ n.val) ∧ (saddleResetDone n s).sad[n].st = s.sad[n].st ∧
      (saddleResetDone n s).sad[n].unsync = s.sad[n].unsync ∧ (saddleResetDone n s).med = s.med ∧
      (saddleResetDone n s).cfg = s.cfg := by
  obtain ⟨v, hd, hs⟩ := saddleResetDone_released hr
  obtain ⟨hreset, hmask, hcause, hst, hunsync⟩ := resetReleased_saddle n s
  obtain ⟨hadm, hflr⟩ := resetReleased_pcie n s
  have hp : (saddleResetDone n s).pcie = (resetReleased n s).pcie := by rw [hd]
  rw [hs n, hp]
  exact ⟨hreset, hmask, hcause, hadm, hflr, hst, hunsync, by rw [hd]; rfl, by rw [hd]; rfl⟩

/-- Settles O27: SRESET asks; at the boundary the reset starts or is absorbed; its end releases the saddle, and is not early; a masked
cause is discarded. -/
theorem saddleResets : Obligations.SaddleResets := by
  refine ⟨?asks, ?starts, ?absorbed, ?ends, ?early, ?masked⟩
  case asks => exact fun s ch t sad n hn h => exec_sreset_goesOn hn h
  case starts => exact fun s n hl hr hn => (exec_saddleReset hl hr).trans (congrArg _ (applyReset_starts (s := quiet s) hr hn))
  case absorbed => exact fun s n hl hr hs => (exec_saddleReset hl hr).trans (congrArg _ (applyReset_absorbed (s := quiet s) hr hs))
  case ends => exact fun s n r hl hr ht => ⟨_, exec_saddleResetDone_ends hl hr ht, saddleResetDone_ends (s := quiet s) hr⟩
  case early => exact fun s n r hl hr ht => exec_saddleResetDone_early hl hr ht
  case masked => exact fun s n k hm hk => latch_masked hm hk

end Sys2Proof.Machine
end

section
/-! SUPPORT. CLEAR and DISCARD (R154, R182): what dropping a saddle's girths writes, and how the two verbs end. -/

namespace Sys2Proof.Machine

open Sys2Proof

/-! ### A channel's queue beside a saddle -/

/-- A saddle read where a channel's queue is put in place: its own queue apart, it is as it was. -/
theorem withQueue_saddle (s : State) (ch : Chan) (q : Queue) (n : SadNo) :
    ∃ r, (withQueue s ch q).sad[n] = { s.sad[n] with q := r } := ⟨_, ((QueuesOnly.refl s).withQueue ch q).2 n⟩

/-- Two changes of one saddle are one. -/
theorem modSad_modSad (s : State) (n : SadNo) (f g : Saddle → Saddle) : modSad (modSad s n f) n g = modSad s n fun x => g (f x) := by
  simp [modSad]

/-- Changes of different saddles commute. -/
theorem modSad_comm (s : State) {m n : SadNo} (h : m ≠ n) (f g : Saddle → Saddle) :
    modSad (modSad s m f) n g = modSad (modSad s n g) m f := by
  have hf : (modSad s m f).sad[n] = s.sad[n] := modSad_get_other s f h
  have hg : (modSad s n g).sad[m] = s.sad[m] := modSad_get_other s g h.symm
  have hv : m.val ≠ n.val := fun he => h (Fin.ext he)
  unfold modSad at hf hg ⊢
  simp only [hf, hg, Vector.set_comm _ _ hv]

/-- A change of a saddle that does not look at its queue commutes with putting a queue in place. -/
theorem modSad_withQueue {f : Saddle → Saddle} (hf : ∀ x q, f { x with q := q } = { f x with q := q }) (s : State) (ch : Chan)
    (q : Queue) (n : SadNo) : modSad (withQueue s ch q) n f = withQueue (modSad s n f) ch q := by
  cases ch with
  | adm => rfl
  | sad m =>
    by_cases h : m = n
    · subst h
      change modSad (modSad s m fun x => { x with q := q }) m f = modSad (modSad s m f) m fun x => { x with q := q }
      rw [modSad_modSad, modSad_modSad]
      exact modSad_congr (hf _ q)
    · exact modSad_comm s h _ f

/-- A command's beginning leaves what is asked of a saddle's entries as it was, where its own mark is not asked. -/
theorem any_begunQueue {p : Entry → Bool} (hp : ∀ e, p { e with begun := true } = p e) (s : State) (ch : Chan) (t : Nat) (n : SadNo) :
    (withQueue (quiet s) ch (begunQueue s ch t)).sad[n].q.entries.any p = s.sad[n].q.entries.any p := by
  cases ch with
  | adm => rfl
  | sad m =>
    have hw : (withQueue (quiet s) (.sad m) (begunQueue s (.sad m) t)).sad[n] =
      if m = n then { s.sad[m] with q := begunQueue s (.sad m) t } else s.sad[n] := modSad_get (quiet s) m n _
    rw [hw]
    split
    · next h =>
      subst h
      have hb : ∀ e : Entry, p (if e.tag == t then { e with begun := true } else e) = p e := by
        intro e
        split
        · exact hp e
        · rfl
      simp only [begunQueue, queueOf, List.any_map, Function.comp_def, hb]
    · rfl

/-- The first girth that DISCARD can drop does not rest on a channel's queue. -/
theorem firstDroppable_withQueue (s : State) (ch : Chan) (q : Queue) (n : SadNo) :
    firstDroppable (withQueue s ch q) n = firstDroppable s n := by
  obtain ⟨r, hr⟩ := withQueue_saddle s ch q n
  have hf : ∀ g, inFlight (withQueue s ch q) n g = inFlight s n g := by intro g; cases ch <;> rfl
  simp only [firstDroppable, hr, hf]

/-! ### Dropping girths (R154, R182) -/

/-- One state differs from another in its caddy pool at most. -/
def PoolOnly (s t : State) : Prop := ∃ p, t = { s with pool := p }

/-- Asking for releases, one caddy after another, writes the pool only (R226). -/
theorem askReleases_poolOnly {α : Type} (i : α → Nat) (h : Holder) (l : List α) (s : State) :
    PoolOnly s (l.foldl (fun s a => askRelease s (i a) h) s) :=
  foldl_keeps (PoolOnly s) _ (by rintro _ a ⟨p, rfl⟩; exact ⟨_, rfl⟩) l s ⟨_, rfl⟩

/-- Giving the MEDIA caddies of data sets back writes the pool only. -/
theorem freeMedias_poolOnly (l : List DataSet) (s : State) : PoolOnly s (l.foldl freeMedia s) :=
  foldl_keeps (PoolOnly s) _ (by
    rintro _ d ⟨p, rfl⟩
    obtain ⟨p', h⟩ := askReleases_poolOnly id (.owner ownMedia) d.cads { s with pool := p }
    exact ⟨p', h⟩) l s ⟨_, rfl⟩

/-- Letting unused caddies go writes the pool and the saddle's caddies. -/
theorem trimCaddies_eq (s : State) (n : SadNo) (k : Nat) :
    ∃ p c, trimCaddies s n k = modSad { s with pool := p } n fun x => { x with caddies := c } := by
  obtain ⟨p, h⟩ := askReleases_poolOnly Prod.fst (.owner (ownSad n)) (s.sad[n].caddies.drop ((blocksWanted s n k + 15) / 16))
    (modSad s n fun x => { x with caddies := x.caddies.take ((blocksWanted s n k + 15) / 16) })
  exact ⟨p, _, h⟩

/-- A saddle with the data of its stream that is in caddies taken from another. -/
def withBuffers (y x : Saddle) : Saddle :=
  { x with blk := y.blk, acked := y.acked, openDs := y.openDs, closed := y.closed, caddies := y.caddies }

/-- With MEDIA caddies given back, the saddle's data in caddies changed and its unused caddies let go, the pool and that data are
written. -/
theorem trimCaddies_freed {s : State} {n : SadNo} {f : Saddle → Saddle} (hf : f s.sad[n] = withBuffers (f s.sad[n]) s.sad[n])
    (l : List DataSet) (k : Nat) :
    ∃ p y, trimCaddies (modSad (l.foldl freeMedia s) n f) n k = modSad { s with pool := p } n (withBuffers y) := by
  obtain ⟨p, hp⟩ := freeMedias_poolOnly l s
  obtain ⟨p', c, ht⟩ := trimCaddies_eq (modSad (l.foldl freeMedia s) n f) n k
  refine ⟨p', { f s.sad[n] with caddies := c }, ?_⟩
  rw [ht, hp]
  change modSad (modSad { s with pool := p' } n f) n _ = _
  rw [modSad_modSad]
  exact modSad_congr (congrArg (fun x : Saddle => { x with caddies := c }) hf)

/-- Dropping a saddle's girths writes the pool and the saddle's data in caddies: no other saddle, nothing of the media side. -/
theorem dropFrom_eq (s : State) (n : SadNo) (g : Nat) : ∃ p y, dropFrom s n g = modSad { s with pool := p } n (withBuffers y) :=
  trimCaddies_freed rfl _ _

/-- A saddle that no longer acknowledges girths from `g` on, with its data in caddies taken from another. -/
def cutFrom (g : Nat) (y x : Saddle) : Saddle := { withBuffers y x with unsync := x.unsync.filter fun u => u.1 < g }

/-- Forgetting written girths writes the media side only. -/
theorem forgetWritten_eq (s : State) (n : SadNo) (g : Nat) : ∃ m, forgetWritten s n g = { s with med := m } := ⟨_, rfl⟩

/-- Discarding from a girth on counts the girths not on tape from there on and cuts them off; past that it writes the pool and the
media side (R154, R163). -/
theorem discardFrom_eq (s : State) (n : SadNo) (g : Nat) :
    ∃ p m y, discardFrom s n g =
      (modSad { s with pool := p, med := m } n (cutFrom g y), (s.sad[n].unsync.filter fun u => g ≤ u.1).length) := by
  obtain ⟨p, y, h⟩ := dropFrom_eq s n g
  obtain ⟨m, hm⟩ := forgetWritten_eq (modSad { s with pool := p } n (withBuffers y)) n g
  refine ⟨p, m, y, ?_⟩
  simp only [discardFrom, h, hm, Prod.mk.injEq, and_true]
  exact modSad_modSad { s with pool := p, med := m } n _ _

/-! ### CLEAR (R154) -/

/-- A saddle out of HOLD whose girths from `g` on are discarded: its next girth is `g`. -/
def clearedFrom (g : Nat) (y x : Saddle) : Saddle :=
  { cutFrom g y x with st := .opened, cause := .none, g := 0, next := g, owesDeferred := false, dropped := none }

/-- In HOLD, CLEAR discards from the deferred girth on (R154). -/
theorem clearHold_hold {s : State} {n : SadNo} (hs : s.sad[n].st = .hold) :
    ∃ p m y, clearHold s n = (modSad { s with pool := p, med := m } n (clearedFrom s.sad[n].g y),
      (s.sad[n].unsync.filter fun u => s.sad[n].g ≤ u.1).length, s.sad[n].g) := by
  obtain ⟨p, m, y, h⟩ := discardFrom_eq s n s.sad[n].g
  refine ⟨p, m, y, ?_⟩
  simp only [clearHold, hs, beq_self_eq_true, if_true, h, modSad_modSad]
  rfl

/-- Out of HOLD, CLEAR drops nothing (R154). -/
theorem clearHold_not_hold {s : State} {n : SadNo} (hs : s.sad[n].st ≠ .hold) :
    clearHold s n = (modSad s n fun x => { x with dropped := none }, 0, s.sad[n].next) := by
  simp only [clearHold, beq_iff_eq, hs, if_false]

/-- CLEAR of a saddle that is not in HOLD ends with nothing dropped. -/
theorem exec_clear_not_hold {s : State} {ch : Chan} {t : Nat} {sad : Option SadNo} {n : SadNo} (hn : targetOf ch sad = some n)
    (hr : Runs s ch t (.clear sad)) (hs : s.sad[n].st ≠ .hold) :
    EndsAs (.clear ch (some t) sad) s ch t { status := .ok, fields := [fnum "dropped" 0, fnum "girth" s.sad[n].next] }
      (modSad (quiet s) n fun x => { x with dropped := none }) := by
  refine verbRow_ends hr ?_ rfl rfl
  obtain ⟨r, hq⟩ := withQueue_saddle (quiet s) ch (begunQueue s ch t) n
  have hc := clearHold_not_hold (s := withQueue (quiet s) ch (begunQueue s ch t)) (n := n) (by rw [hq]; exact hs)
  simp only [clearVerb, hn, hc, okWith, hq]
  rw [modSad_withQueue fun _ _ => rfl]
  rfl

/-- CLEAR of a saddle in HOLD ends with the girths from the deferred girth on discarded. -/
theorem exec_clear_hold {s : State} {ch : Chan} {t : Nat} {sad : Option SadNo} {n : SadNo} (hn : targetOf ch sad = some n)
    (hr : Runs s ch t (.clear sad)) (hs : s.sad[n].st = .hold) :
    ∃ p m y, EndsAs (.clear ch (some t) sad) s ch t
      { status := .ok, fields :=
        [fnum "dropped" (s.sad[n].unsync.filter fun u => s.sad[n].g ≤ u.1).length, fnum "girth" s.sad[n].g] }
      (modSad { quiet s with pool := p, med := m } n (clearedFrom s.sad[n].g y)) := by
  obtain ⟨r, hq⟩ := withQueue_saddle (quiet s) ch (begunQueue s ch t) n
  obtain ⟨p, m, y, hc⟩ := clearHold_hold (s := withQueue (quiet s) ch (begunQueue s ch t)) (n := n) (by rw [hq]; exact hs)
  refine ⟨p, m, y, verbRow_ends hr ?_ rfl rfl⟩
  have hw : ({ withQueue (quiet s) ch (begunQueue s ch t) with pool := p, med := m } : State) =
    withQueue { quiet s with pool := p, med := m } ch (begunQueue s ch t) := by cases ch <;> rfl
  simp only [clearVerb, hn, hc, okWith, hq, hw]
  rw [modSad_withQueue fun _ _ => rfl]
  rfl

/-! ### DISCARD (R182) -/

/-- A WRITE or a MARK of the saddle executes. -/
def streamExecutes (s : State) (n : SadNo) : Bool :=
  s.sad[n].q.entries.any fun e => e.phase == .executing && e.ended.isNone && runKind e.verb = 1

/-- DISCARD's effect beside a WRITE or a MARK (R182). -/
theorem discardVerb_busy {s : State} {ch : Chan} {sad : Option SadNo} {n : SadNo} (hn : targetOf ch sad = some n)
    (hb : streamExecutes s n = true) (fromG : Option Nat) (t : Nat) :
    discardVerb ch sad fromG t s = complete s ch t { status := .busyMode, fields := [fld "held" (heldStr [n])] } := by
  simp only [discardVerb, hn]
  exact if_pos hb

/-- DISCARD's effect below the first girth that can be dropped (R182). -/
theorem discardVerb_range {s : State} {ch : Chan} {sad : Option SadNo} {n : SadNo} (hn : targetOf ch sad = some n)
    (hb : streamExecutes s n = false) {fromG : Option Nat} (hg : fromG.getD (firstDroppable s n) < firstDroppable s n) (t : Nat) :
    discardVerb ch sad fromG t s =
      complete s ch t (failWhy .badarg "range" [fld "key" "from", fnum "first" (firstDroppable s n)]) := by
  simp only [discardVerb, hn]
  exact (if_neg (Bool.eq_false_iff.1 hb)).trans (if_pos hg)

/-- A saddle whose girths from `g` on are dropped: its next girth is `g`. -/
def droppedFrom (g : Nat) (y x : Saddle) : Saddle := { cutFrom g y x with next := g }

/-- DISCARD's effect from a girth on that can be dropped (R182). -/
theorem discardVerb_drops {s : State} {ch : Chan} {sad : Option SadNo} {n : SadNo} (hn : targetOf ch sad = some n)
    (hb : streamExecutes s n = false) {fromG : Option Nat} {g : Nat} (hf : fromG.getD (firstDroppable s n) = g)
    (hg : firstDroppable s n ≤ g) (t : Nat) :
    ∃ p y, discardVerb ch sad fromG t s = complete (modSad { s with pool := p } n (droppedFrom g y)) ch t
      { status := .ok, fields := [fnum "dropped" (s.sad[n].unsync.filter fun u => g ≤ u.1).length, fnum "girth" g] } := by
  subst hf
  obtain ⟨p, y, h⟩ := dropFrom_eq s n (fromG.getD (firstDroppable s n))
  refine ⟨p, y, ?_⟩
  simp only [discardVerb, hn]
  refine (if_neg (Bool.eq_false_iff.1 hb)).trans ((if_neg (Nat.not_lt.2 hg)).trans ?_)
  rw [h, modSad_modSad]
  rfl

/-- DISCARD's own beginning is not a WRITE or a MARK that executes. -/
theorem streamExecutes_begun (s : State) (ch : Chan) (t : Nat) (n : SadNo) :
    streamExecutes (withQueue (quiet s) ch (begunQueue s ch t)) n = streamExecutes s n := any_begunQueue (fun _ => rfl) s ch t n

section
variable {s : State} {ch : Chan} {t : Nat} {sad : Option SadNo} {n : SadNo} {fromG : Option Nat}

/-- DISCARD beside an executing WRITE or MARK is BUSY. -/
theorem exec_discard_busy (hn : targetOf ch sad = some n) (hr : Runs s ch t (.discard sad fromG)) (hb : streamExecutes s n = true) :
    EndsOnly (.discard ch (some t) sad fromG) s ch t { status := .busyMode, fields := [fld "held" (heldStr [n])] } :=
  verbRow_ends hr (discardVerb_busy hn ((streamExecutes_begun s ch t n).trans hb) fromG t) rfl rfl

/-- DISCARD below the first girth that can be dropped is out of range. -/
theorem exec_discard_range (hn : targetOf ch sad = some n) (hr : Runs s ch t (.discard sad fromG)) (hb : streamExecutes s n = false)
    (hg : fromG.getD (firstDroppable s n) < firstDroppable s n) :
    EndsOnly (.discard ch (some t) sad fromG) s ch t
      (failWhy .badarg "range" [fld "key" "from", fnum "first" (firstDroppable s n)]) := by
  have hf : firstDroppable (withQueue (quiet s) ch (begunQueue s ch t)) n = firstDroppable s n := firstDroppable_withQueue (quiet s) ch _ n
  have hd := discardVerb_range hn ((streamExecutes_begun s ch t n).trans hb) (by rw [hf]; exact hg) t
  rw [hf] at hd
  exact verbRow_ends hr hd rfl rfl

/-- DISCARD from a girth on that can be dropped ends with the girths from there on dropped. -/
theorem exec_discard_drops (hn : targetOf ch sad = some n) (hr : Runs s ch t (.discard sad fromG)) (hb : streamExecutes s n = false)
    {g : Nat} (hf : fromG.getD (firstDroppable s n) = g) (hg : firstDroppable s n ≤ g) :
    ∃ p y, EndsAs (.discard ch (some t) sad fromG) s ch t
      { status := .ok, fields := [fnum "dropped" (s.sad[n].unsync.filter fun u => g ≤ u.1).length, fnum "girth" g] }
      (modSad { quiet s with pool := p } n (droppedFrom g y)) := by
  have hl : firstDroppable (withQueue (quiet s) ch (begunQueue s ch t)) n = firstDroppable s n := firstDroppable_withQueue (quiet s) ch _ n
  obtain ⟨r, hq⟩ := withQueue_saddle (quiet s) ch (begunQueue s ch t) n
  obtain ⟨p, y, hd⟩ := discardVerb_drops (g := g) hn ((streamExecutes_begun s ch t n).trans hb)
    (by rw [hl]; exact hf) (by rw [hl]; exact hg) t
  have hw : ({ withQueue (quiet s) ch (begunQueue s ch t) with pool := p } : State) =
    withQueue { quiet s with pool := p } ch (begunQueue s ch t) := by cases ch <;> rfl
  rw [hw, modSad_withQueue fun _ _ => rfl, hq] at hd
  exact ⟨p, y, verbRow_ends hr hd rfl rfl⟩

end

/-! ### The two verbs together -/

/-- A verb that ends in one changed saddle leaves of that saddle what the change makes of it, its queue apart; configuration, events and
the media side are as in the state that was changed. -/
theorem EndsAs.modSad_reads {c : Instr} {s u : State} {ch : Chan} {t : Nat} {o : Outc} {n : SadNo} {f : Saddle → Saddle}
    (h : EndsAs c s ch t o (modSad u n f)) :
    ∃ s', exec c s = .next s' ∧ EndedWith s' ch t o ∧ (∃ r, s'.sad[n] = { f u.sad[n] with q := r }) ∧
      s'.cfg = u.cfg ∧ s'.evt = u.evt ∧ s'.med = u.med := by
  obtain ⟨q, hx, he, _⟩ := h
  obtain ⟨r, hr⟩ := withQueue_saddle (modSad u n f) ch q n
  have hf : (modSad u n f).sad[n] = f u.sad[n] := modSad_get_same u n f
  refine ⟨_, hx, he, ⟨r, by rw [hr, hf]⟩, ?_⟩
  cases ch <;> exact ⟨rfl, rfl, rfl⟩

/-- Settles O26: CLEAR by whether the saddle is in HOLD; DISCARD by whether a WRITE or MARK executes and by where `from=` lies. -/
theorem clearAndDiscard : Obligations.ClearAndDiscard := by
  intro s ch t sad n hn
  refine ⟨?noHold, ?hold, ?busy, fun fromG hr hb => ⟨?drops, ?range⟩⟩
  case noHold => exact exec_clear_not_hold hn
  case hold =>
    intro hr hs
    obtain ⟨p, m, y, h⟩ := exec_clear_hold hn hr hs
    obtain ⟨s', hx, he, ⟨r, hsad⟩, hcfg, hevt, _⟩ := h.modSad_reads
    exact ⟨s', hx, he, (congrArg Saddle.st hsad :), (congrArg Saddle.next hsad :), (congrArg Saddle.owesDeferred hsad :),
      (congrArg Saddle.unsync hsad :), hcfg, hevt⟩
  case busy => exact fun fromG hr hb => exec_discard_busy hn hr hb
  case drops =>
    intro hg
    obtain ⟨p, y, h⟩ := exec_discard_drops hn hr hb rfl hg
    obtain ⟨s', hx, he, ⟨r, hsad⟩, hcfg, hevt, hmed⟩ := h.modSad_reads
    exact ⟨s', hx, he, (congrArg Saddle.next hsad :), (congrArg Saddle.unsync hsad :), (congrArg Saddle.st hsad :),
      congrArg Media.written hmed, hcfg, hevt⟩
  case range => exact exec_discard_range hn hr hb

end Sys2Proof.Machine
end

section
/-! SUPPORT. Doorbells and command slots (R432, R436-R440): what each way that a doorbell or a fetched slot can go makes of its
function's block and of the lines that wait. -/

namespace Sys2Proof.Machine

open Sys2Proof

/-! ### Changes of one function's block -/

/-- A change of a function's block is told by what it makes of that block. -/
theorem modFn_congr {s : State} {f : FnNo} {g h : Fn → Fn} (e : g s.pcie.fn[f] = h s.pcie.fn[f]) : modFn s f g = modFn s f h := by
  simp only [modFn, e]

/-- Leaving a function's block as it is changes nothing. -/
theorem modFn_id (s : State) (f : FnNo) : modFn s f id = s := by
  simp [modFn]

/-- ATTENTION for a function keeps the clock and the waiting commands (R79, R446). -/
theorem latchFn_kept (s : State) (f : FnNo) : (latchFn s f).clk = s.clk ∧ (latchFn s f).pending = s.pending := by
  unfold latchFn
  split <;> exact ⟨rfl, rfl⟩

/-! ### Indices (R437) -/

/-- What the index of a doorbell makes of its function's block, and whether it was invalid. -/
def rung (cmd : Bool) (x : Fn) (p : Nat) : Fn × Bool := if cmd then dbCmd x p else dbRpl x p

section
variable {x : Fn} {p : Nat}

/-- A valid command index further ahead than the seen one replaces it. -/
theorem rung_cmd_ahead (hd : (p + 65536 - x.cmdCons) % 65536 ≤ 64)
    (ha : (x.pSeen + 65536 - x.cmdCons) % 65536 < (p + 65536 - x.cmdCons) % 65536) :
    rung true x p = ({ x with pSeen := p, dbCnt := inc x.dbCnt }, false) := by
  simp only [rung, dbCmd, Nat.not_lt.2 hd, ha, if_false, if_true]

/-- Any other valid command index changes nothing. -/
theorem rung_cmd_late (ha : (p + 65536 - x.cmdCons) % 65536 ≤ (x.pSeen + 65536 - x.cmdCons) % 65536)
    (hd : (p + 65536 - x.cmdCons) % 65536 ≤ 64) : rung true x p = (x, false) := by
  simp only [rung, dbCmd, Nat.not_lt.2 hd, Nat.not_lt.2 ha, if_false, if_true]

/-- An invalid command index sets BADIDX. -/
theorem rung_cmd_invalid (hd : 64 < (p + 65536 - x.cmdCons) % 65536) : rung true x p = ({ x with badIdx := true }, true) := by
  simp only [rung, dbCmd, hd, if_true]

/-- A valid reply index further ahead than the seen one replaces it. -/
theorem rung_rpl_ahead (hd : (x.rplProd + 65536 - p) % 65536 ≤ 64)
    (ha : (x.rplProd + 65536 - p) % 65536 < (x.rplProd + 65536 - x.cSeen) % 65536) :
    rung false x p = ({ x with cSeen := p, dbCnt := inc x.dbCnt }, false) := by
  simp only [rung, dbRpl, Bool.false_eq_true, Nat.not_lt.2 hd, ha, if_false, if_true]

/-- Any other valid reply index changes nothing. -/
theorem rung_rpl_late (ha : (x.rplProd + 65536 - x.cSeen) % 65536 ≤ (x.rplProd + 65536 - p) % 65536)
    (hd : (x.rplProd + 65536 - p) % 65536 ≤ 64) : rung false x p = (x, false) := by
  simp only [rung, dbRpl, Bool.false_eq_true, Nat.not_lt.2 hd, Nat.not_lt.2 ha, if_false]

/-- An invalid reply index sets BADIDX. -/
theorem rung_rpl_invalid (hd : 64 < (x.rplProd + 65536 - p) % 65536) : rung false x p = ({ x with badIdx := true }, true) := by
  simp only [rung, dbRpl, Bool.false_eq_true, hd, if_false, if_true]

end

/-! ### Doorbells (R436-R438) -/

section
variable {s : State} {f : FnNo} {cmd : Bool}

/-- A valid index is in its function's block. -/
theorem ringBell_valid {p : Nat} {g : Fn → Fn} (hg : rung cmd s.pcie.fn[f] p = (g s.pcie.fn[f], false)) :
    ringBell s f cmd p = modFn s f g := by
  unfold rung at hg
  simp only [ringBell, hg, Bool.false_eq_true, if_false]
  exact modFn_congr rfl

/-- An invalid index latches ATTENTION beside what it makes of the block. -/
theorem ringBell_invalid {p : Nat} {g : Fn → Fn} (hg : rung cmd s.pcie.fn[f] p = (g s.pcie.fn[f], true)) :
    ringBell s f cmd p = latchFn (modFn s f g) f := by
  unfold rung at hg
  simp only [ringBell, hg, if_true]
  exact congrArg (latchFn · f) (modFn_congr rfl)

/-- A doorbell that acts on its ring keeps the clock and the waiting commands. -/
theorem ringBell_kept (s : State) (f : FnNo) (cmd : Bool) (p : Nat) :
    (ringBell s f cmd p).clk = s.clk ∧ (ringBell s f cmd p).pending = s.pending := by
  rcases h : rung cmd s.pcie.fn[f] p with ⟨y, _ | _⟩
  · rw [ringBell_valid (g := fun _ => y) h]
    exact ⟨rfl, rfl⟩
  · rw [ringBell_invalid (g := fun _ => y) h]
    exact latchFn_kept (modFn s f fun _ => y) f

variable {v : W32}

/-- A doorbell before DEV_READY is kept (R438). -/
theorem bell_early (hd : s.pw.devReady = false) :
    bell f cmd v s = modFn s f fun x => { x with early := some (keepBell cmd (v.toNat % 65536) x.early) } :=
  if_pos (by simp only [hd, Bool.not_false])

/-- A doorbell of a function that ignores it is counted (R438). -/
theorem bell_ignored (hd : s.pw.devReady = true) (hi : bellIgnored s f = true) :
    bell f cmd v s = modFn s f fun x => { x with dbIgn := inc x.dbIgn } :=
  (if_neg (by simp only [hd, Bool.not_true, Bool.false_eq_true, not_false_eq_true])).trans (if_pos hi)

/-- Any other doorbell acts on its ring (R437). -/
theorem bell_rings (hd : s.pw.devReady = true) (hi : bellIgnored s f = false) :
    bell f cmd v s = ringBell s f cmd (v.toNat % 65536) :=
  (if_neg (by simp only [hd, Bool.not_true, Bool.false_eq_true, not_false_eq_true])).trans (if_neg (ne_true_of_eq_false hi))

/-- A doorbell's step is its effect: none of its ways moves the clock or a waiting command. -/
theorem act_bell {u : State} (hl : live s = true) (hu : bell f cmd v (quiet s) = u) : act s (bell f cmd v) = .next u := by
  have hk : (bell f cmd v (quiet s)).clk = s.clk ∧ (bell f cmd v (quiet s)).pending = s.pending := by
    cases hd : s.pw.devReady with
    | false => rw [bell_early (s := quiet s) hd]; exact ⟨rfl, rfl⟩
    | true =>
      cases hi : bellIgnored s f with
      | true => rw [bell_ignored (s := quiet s) hd hi]; exact ⟨rfl, rfl⟩
      | false => rw [bell_rings (s := quiet s) hd hi]; exact ringBell_kept (quiet s) f cmd (v.toNat % 65536)
  exact hu ▸ act_live_kept hl _ hk.1 hk.2

variable (hl : live s = true) (hd : s.pw.devReady = true) (hi : bellIgnored s f = false)
include hl hd hi

/-- A doorbell with a valid index leaves what the index makes of the block. -/
theorem act_bell_valid {g : Fn → Fn} (hg : rung cmd s.pcie.fn[f] (v.toNat % 65536) = (g s.pcie.fn[f], false)) :
    act s (bell f cmd v) = .next (modFn (quiet s) f g) :=
  act_bell hl ((bell_rings (s := quiet s) hd hi).trans (ringBell_valid (s := quiet s) hg))

/-- A doorbell whose index leaves the block as it was changes nothing. -/
theorem act_bell_late (hg : rung cmd s.pcie.fn[f] (v.toNat % 65536) = (s.pcie.fn[f], false)) :
    act s (bell f cmd v) = .next (quiet s) := by
  rw [act_bell_valid (g := id) hl hd hi hg, modFn_id]

/-- A doorbell with an invalid index latches ATTENTION beside BADIDX. -/
theorem act_bell_invalid (hg : rung cmd s.pcie.fn[f] (v.toNat % 65536) = ({ s.pcie.fn[f] with badIdx := true }, true)) :
    act s (bell f cmd v) = .next (latchFn (modFn (quiet s) f fun x => { x with badIdx := true }) f) :=
  act_bell hl ((bell_rings (s := quiet s) hd hi).trans (ringBell_invalid (s := quiet s) (g := fun x => { x with badIdx := true }) hg))

end

/-! ### Command slots (R432, R440) -/

/-- What was put under a key is read back. -/
theorem look_put_same {α β : Type} [DecidableEq α] (k : α) (v : β) : ∀ l : List (α × β), look k (put k v l) = some v
  | [] => by simp [put, look]
  | (a, b) :: t => by
    by_cases h : a = k
    · simp [put, look, h]
    · simpa [put, look, h] using look_put_same k v t

/-- A fetched slot is passed: its line waits behind the others of its transport, and the next slot is due. -/
def slotPassed (s : State) (f : FnNo) (r : RawLine) : State :=
  modFn (pushLine s (transOfFn f) r) f fun x => { x with fetched := (x.fetched + 1) % 65536, retry := false }

/-- The line of a passed slot is the last that waits in its transport. -/
theorem slotPassed_waiting (s : State) (f : FnNo) (r : RawLine) :
    look (transOfFn f) (slotPassed s f r).fil.waiting = some ((look (transOfFn f) s.fil.waiting).getD [] ++ [r]) :=
  look_put_same _ _ _

/-- The function of a passed slot goes on to the next one. -/
theorem slotPassed_fn {s : State} {f : FnNo} {k : Nat} (hk : s.pcie.fn[f].fetched = k) (r : RawLine) :
    (slotPassed s f r).pcie.fn[f] = { s.pcie.fn[f] with fetched := (k + 1) % 65536, retry := false } :=
  hk ▸ modFn_get_same (pushLine s (transOfFn f) r) f _

/-- The other functions are as they were. -/
theorem slotPassed_fn_other (s : State) {f g : FnNo} (h : g ≠ f) (r : RawLine) : (slotPassed s f r).pcie.fn[g] = s.pcie.fn[g] :=
  modFn_get_other (pushLine s (transOfFn f) r) _ h.symm

/-- A slot that failed is fetched once more, from the next tick on; one that had failed before is passed with its rejection. -/
def slotFailed (s : State) (f : FnNo) (o : Outc) : State :=
  if s.pcie.fn[f].retry then slotPassed s f { bytes := [], slot := some (s.pcie.fn[f].fetched % 64), rej := some o }
  else modFn s f fun x => { x with retry := true, retryAt := now s + 1, seqErr := true }

/-- A failed slot keeps the clock and the waiting commands. -/
theorem slotFailed_kept (s : State) (f : FnNo) (o : Outc) :
    (slotFailed s f o).clk = s.clk ∧ (slotFailed s f o).pending = s.pending := by
  unfold slotFailed
  split <;> exact ⟨rfl, rfl⟩

section
variable {s : State} {f : FnNo}

/-- The first failure of a slot. -/
theorem slotFailed_first (hr : s.pcie.fn[f].retry = false) (o : Outc) :
    slotFailed s f o = modFn s f fun x => { x with retry := true, retryAt := now s + 1, seqErr := true } :=
  if_neg (ne_true_of_eq_false hr)

/-- The second failure of a slot. -/
theorem slotFailed_second {k : Nat} (hr : s.pcie.fn[f].retry = true) (hk : s.pcie.fn[f].fetched = k) (o : Outc) :
    slotFailed s f o = slotPassed s f { bytes := [], slot := some (k % 64), rej := some o } := hk ▸ if_pos hr

/-- Counting a failed request leaves which slot is due, and whether it has failed before. -/
theorem countDma_slot (s : State) (f : FnNo) (kind : Nat) (e : DmaErr) (a : Nat) :
    (countDma s f kind e a).pcie.fn[f].fetched = s.pcie.fn[f].fetched ∧ (countDma s f kind e a).pcie.fn[f].retry = s.pcie.fn[f].retry := by
  simp [countDma]

/-- A slot that may not be fetched changes nothing (log 3). -/
theorem fetchSlot_disabled (hf : fetchable s f = false) (r : Res DmaErr (List Byte)) : fetchSlot f r s = s :=
  if_pos (by simp only [hf, Bool.not_false])

variable (hf : fetchable s f = true)
include hf

/-- A slot with the SEQ that is due is passed with its line. -/
theorem fetchSlot_rightSeq {b : List Byte} (hs : leVal (slice b 2 2) = s.pcie.fn[f].fetched) :
    fetchSlot f (.ok b) s = slotPassed s f {
      bytes := slice b 8 (min (leVal (slice b 0 2)) 248), long := decide (200 < leVal (slice b 0 2))
      slot := some (s.pcie.fn[f].fetched % 64) } := by
  simp only [fetchSlot, hf, hs, ne_eq, not_true_eq_false, Bool.not_true, Bool.false_eq_true, if_false]
  rfl

/-- A slot with a wrong SEQ has failed. -/
theorem fetchSlot_wrongSeq {b : List Byte} (hs : leVal (slice b 2 2) ≠ s.pcie.fn[f].fetched) :
    fetchSlot f (.ok b) s = slotFailed s f (failWhy .badline "syntax" [fnum "slot" (s.pcie.fn[f].fetched % 64)]) := by
  simp only [fetchSlot, hf, hs, ne_eq, not_false_eq_true, Bool.not_true, Bool.false_eq_true, if_false, if_true]
  rfl

/-- A slot whose fetch fails has failed, and counts in DMA_STAT. -/
theorem fetchSlot_err (e : DmaErr) :
    fetchSlot f (.err e) s = slotFailed (countDma s f 0 e (s.pcie.fn[f].cmdBase.toNat + 256 * (s.pcie.fn[f].fetched % 64))) f
      (failWhy .fault "internal" [fld "dma" (DmaErr.name e), fnum "slot" (s.pcie.fn[f].fetched % 64)]) := by
  obtain ⟨hk, hr⟩ := countDma_slot s f 0 e (s.pcie.fn[f].cmdBase.toNat + 256 * (s.pcie.fn[f].fetched % 64))
  simp only [fetchSlot, slotFailed, hf, hk, hr, Bool.not_true, Bool.false_eq_true, if_false]
  rfl

end

/-- A fetch keeps the clock and the waiting commands. -/
theorem fetchSlot_kept (f : FnNo) (r : Res DmaErr (List Byte)) (s : State) :
    (fetchSlot f r s).clk = s.clk ∧ (fetchSlot f r s).pending = s.pending := by
  cases hf : fetchable s f with
  | false => rw [fetchSlot_disabled hf]; exact ⟨rfl, rfl⟩
  | true =>
    cases r with
    | ok b =>
      by_cases hs : leVal (slice b 2 2) = s.pcie.fn[f].fetched
      · rw [fetchSlot_rightSeq hf hs]; exact ⟨rfl, rfl⟩
      · rw [fetchSlot_wrongSeq hf hs]; exact slotFailed_kept s f _
    | err e => rw [fetchSlot_err hf]; exact slotFailed_kept (countDma s f 0 e _) f _

/-- A fetch's step is its effect. -/
theorem exec_cmdSlotFetch {s u : State} {f : FnNo} {r : Res DmaErr (List Byte)} (hl : live s = true) (hu : fetchSlot f r (quiet s) = u) :
    exec (.cmdSlotFetch f r) s = .next u :=
  have ⟨hk, hp⟩ := fetchSlot_kept f r (quiet s)
  hu ▸ act_live_kept hl _ hk hp

/-- Settles O56: a doorbell by DEV_READY, by whether its function ignores it and by where its index lies; a slot by its SEQ, by whether
its fetch failed and by whether it has failed before. -/
theorem rings : Obligations.Rings := by
  refine ⟨?early, ?ignored, ?acts, ?rightSeq, ?wrongSeq, ?failed, ?disabled⟩
  case early =>
    intro f v s hl hd
    have h (cmd : Bool) := act_bell hl (bell_early (s := quiet s) (f := f) (cmd := cmd) (v := v) hd)
    exact ⟨(h true).trans (congrArg _ (modFn_congr rfl)), (h false).trans (congrArg _ (modFn_congr rfl))⟩
  case ignored =>
    intro f v s hl hd hi
    have h (cmd : Bool) := act_bell hl (bell_ignored (s := quiet s) (f := f) (cmd := cmd) (v := v) hd hi)
    exact ⟨h true, h false⟩
  case acts =>
    intro f v s hl hd hi
    exact ⟨fun hv ha => act_bell_valid hl hd hi (rung_cmd_ahead hv ha),
      fun ha hv => act_bell_late hl hd hi (rung_cmd_late ha hv),
      fun hv => act_bell_invalid hl hd hi (rung_cmd_invalid hv),
      fun hv ha => act_bell_valid hl hd hi (rung_rpl_ahead hv ha),
      fun ha hv => act_bell_late hl hd hi (rung_rpl_late ha hv),
      fun hv => act_bell_invalid hl hd hi (rung_rpl_invalid hv)⟩
  case rightSeq =>
    intro f b s hl hf hs
    exact ⟨_, exec_cmdSlotFetch hl (fetchSlot_rightSeq (s := quiet s) hf hs), slotPassed_waiting _ _ _, slotPassed_fn rfl _,
      fun g hg => slotPassed_fn_other _ hg _, rfl, rfl, rfl⟩
  case wrongSeq =>
    intro f b s hl hf hs
    have h := fetchSlot_wrongSeq (s := quiet s) hf hs
    exact ⟨fun hr => exec_cmdSlotFetch hl (h.trans (slotFailed_first (s := quiet s) hr _)),
      fun hr => ⟨_, exec_cmdSlotFetch hl (h.trans (slotFailed_second (s := quiet s) hr rfl _)), slotPassed_waiting _ _ _,
        slotPassed_fn rfl _, rfl, rfl⟩⟩
  case failed =>
    intro f x s hl hf t
    obtain ⟨hk, ht⟩ : t.pcie.fn[f].fetched = s.pcie.fn[f].fetched ∧ t.pcie.fn[f].retry = s.pcie.fn[f].retry :=
      countDma_slot (quiet s) f 0 x _
    have h := fetchSlot_err (s := quiet s) hf x
    exact ⟨fun hr => exec_cmdSlotFetch hl (h.trans (slotFailed_first (ht.trans hr) _)),
      fun hr => ⟨_, exec_cmdSlotFetch hl (h.trans (slotFailed_second (ht.trans hr) hk _)), slotPassed_waiting _ _ _,
        slotPassed_fn hk _, rfl, rfl⟩⟩
  case disabled =>
    intro f r s hl hf
    exact exec_cmdSlotFetch hl (fetchSlot_disabled (s := quiet s) hf r)

end Sys2Proof.Machine
end

section
/-! SUPPORT. The block as a whole (R26, R28, R68, log 2, log 3): what each command leaves of the clock, which rows a part in reset answers,
and which row can fault. -/

namespace Sys2Proof.Machine

open Sys2Proof

/-! ### Steps from their effects -/

/-- A live part's step is its effect, but for the clock and the waiting commands. -/
theorem row_next {s : State} (hl : live s = true) (x : State) :
    fin s (if live s then x else s) = .next { x with clk := s.clk, pending := s.pending } := by
  simp only [fin, hl, if_true]

/-- Where the effect keeps the clock and the waiting commands, the step is the effect. -/
theorem row_eq {s x u : State} (hl : live s = true) (hu : x = u) (hc : u.clk = s.clk) (hp : u.pending = s.pending) :
    fin s (if live s then x else s) = .next u := by
  subst hu
  rw [row_next hl, ← hc, ← hp]

/-- The same of a step whose rule enables it. -/
theorem rowIf_next {s : State} {c : Bool} (hl : live s = true) (hc : c = true) (x y : State) :
    fin s (if live s then (if c then x else y) else s) = .next { x with clk := s.clk, pending := s.pending } := by
  rw [row_next hl, if_pos hc]

theorem rowIf_eq {s x y u : State} {c : Bool} (hl : live s = true) (hc : c = true) (hu : x = u) (hk : u.clk = s.clk)
    (hp : u.pending = s.pending) : fin s (if live s then (if c then x else y) else s) = .next u :=
  row_eq hl ((if_pos hc).trans hu) hk hp

/-- A step that its rule does not enable clears the outputs of the step before and changes nothing else (log 3). -/
theorem rowIf_off {s x : State} {c : Bool} (hl : live s = true) (hc : c = false) :
    fin s (if live s then (if c then x else quiet s) else s) = .next (quiet s) :=
  row_eq hl (if_neg (ne_true_of_eq_false hc)) rfl rfl

/-- A part in reset, or stopped at boot, does nothing, whatever a running one would do. -/
theorem fin_not_live {s : State} (h : live s = false) (u : State) : fin s (if live s then u else s) = .next s := by
  simp [fin, h]

/-! ### A part that does not run -/

/-- The rows of a verb that may be immediate or queued answer only while the part runs. -/
theorem eitherRow_not_live {s : State} (h : live s = false) (ch : Chan) (tag : Option Nat) (v : Verb) (body : Nat → State → State) :
    eitherRow ch tag v body s = .next s := by
  cases tag with
  | none => exact fin_not_live h _
  | some t => exact fin_not_live h _

/-- A flash descriptor does not run while the part does not. -/
theorem execFlashDescriptor_not_live {s : State} (h : live s = false) (i : Fin 16) (fails : Option (Nat × Bool)) :
    execFlashDescriptor i fails s = .next s := by
  simp [execFlashDescriptor, fin, h]

/-- Every command that neither counts a tick nor begins or ends a reset leaves a part that does not run as it is (log 3). -/
theorem exec_not_live {c : Instr} {s : State} (h : live s = false) (hc : clkStepOf c = false) : exec c s = .next s := by
  cases c with
  | tickBoundary | porstAssert | porstDeassert | supplyUndervoltage | undervoltageRelease => cases hc
  | flashDescriptor i fails => exact execFlashDescriptor_not_live h i fails
  | hello | status | get | set => exact eitherRow_not_live h _ _ _ _
  | _ => exact fin_not_live h _

/-! ### The tick boundary -/

/-- A running part's boundary counts its tick and toggles HB (R16, R26, R68). -/
theorem exec_tickBoundary_live {s : State} (h : live s = true) (x : TickIn) :
    exec (.tickBoundary x) s = .next { tickBoundary x s with
      clk := { s.clk with ptc := s.clk.ptc + 1, hb := !s.clk.hb }, pending := s.pending } := by
  change execTickBoundary x s = _
  simp only [execTickBoundary, h, if_true]

/-- No tick ends in reset (R26). -/
theorem exec_tickBoundary_reset {s : State} (h : s.clk.porst = true ∨ s.clk.uv = true) (x : TickIn) :
    exec (.tickBoundary x) s = .next s := by
  change execTickBoundary x s = _
  rcases h with h | h <;> simp [execTickBoundary, live, ticking, h]

/-- A part stopped at boot counts PTC and toggles HB (R424). -/
theorem exec_tickBoundary_dead {s : State} (hp : s.clk.porst = false) (hu : s.clk.uv = false) (hd : s.pw.dead = true) (x : TickIn) :
    exec (.tickBoundary x) s = .next { quiet s with clk := { s.clk with ptc := s.clk.ptc + 1, hb := !s.clk.hb } } := by
  change execTickBoundary x s = _
  simp [execTickBoundary, live, ticking, countTick, quiet, hp, hu, hd]

/-- Settles O4: the rows of a part that does not run, and the boundary in reset and after a failed boot. -/
theorem partInResetDoesNothing : Obligations.PartInResetDoesNothing := by
  refine ⟨?rows, fun x s h => exec_tickBoundary_reset h x, fun x s hp hu hd => exec_tickBoundary_dead hp hu hd x⟩
  case rows =>
    intro c s h hpa hsu htb hpd hur
    refine exec_not_live h ?_
    cases c with
    | tickBoundary x => exact absurd rfl (htb x)
    | porstAssert => exact absurd rfl hpa
    | supplyUndervoltage => exact absurd rfl hsu
    | porstDeassert e tm g o => exact absurd rfl (hpd e tm g o)
    | undervoltageRelease e tm g o => exact absurd rfl (hur e tm g o)
    | _ => rfl

/-- Settles O10. -/
theorem tickBoundaryAdvancesPtc : Obligations.TickBoundaryAdvancesPtc :=
  fun x _ h => ⟨_, exec_tickBoundary_live h x, rfl⟩

/-! ### Every command -/

/-- The commands that move the clock answer a next state with the waiting commands as they were. -/
theorem exec_clkStep_next {c : Instr} (hc : clkStepOf c = true) (s : State) : ∃ t, exec c s = .next t ∧ t.pending = s.pending := by
  cases c with
  | tickBoundary x =>
    change ∃ t, execTickBoundary x s = .next t ∧ _
    unfold execTickBoundary
    split
    · exact ⟨_, rfl, rfl⟩
    · split <;> exact ⟨_, rfl, rfl⟩
  | porstAssert => exact ⟨_, rfl, rfl⟩
  | supplyUndervoltage => exact ⟨_, rfl, by split <;> rfl⟩
  | porstDeassert => exact ⟨_, rfl, by split <;> [rfl; split <;> rfl]⟩
  | undervoltageRelease => exact ⟨_, rfl, by split <;> [rfl; split <;> rfl]⟩
  | _ => cases hc

/-- Settles O2: the rows that move the clock, and all others, keep the commands that wait. -/
theorem commandKeepsQueue : Obligations.CommandKeepsQueue := by
  refine ⟨fun c s t h => ?_, fun s h => by simp only [step, h]⟩
  cases hc : clkStepOf c with
  | false => exact (exec_kept hc h).2
  | true =>
    obtain ⟨u, hu, hp⟩ := exec_clkStep_next hc s
    cases hu.symm.trans h
    exact hp

/-- Every command but a flash descriptor answers a next state. -/
theorem exec_next_or_descriptor (c : Instr) (s : State) : (∃ u, exec c s = .next u) ∨ ∃ i fails, c = .flashDescriptor i fails := by
  cases c with
  | tickBoundary | porstAssert | porstDeassert | supplyUndervoltage | undervoltageRelease =>
    exact .inl ((exec_clkStep_next rfl s).imp fun _ h => h.1)
  | flashDescriptor i fails => exact .inr ⟨i, fails, rfl⟩
  | hello | status | get | set =>
    obtain ⟨u, hu⟩ := eitherRow_fin _ _ _ _ s
    exact .inl ⟨_, hu⟩
  | _ => exact .inl ⟨_, rfl⟩

/-- A descriptor that faults names DRAM beyond its end (R213, R398). -/
theorem execFlashDescriptor_fault {i : Fin 16} {fails : Option (Nat × Bool)} {s : State} {f : Fault}
    (h : execFlashDescriptor i fails s = .fault f) : ∃ d, s.fl.queue[i.val]? = some d ∧ (d.op = 1 ∨ d.op = 2) ∧
      dramSize s < d.daddr + d.len ∧ f = .dramHole d.daddr := by
  unfold execFlashDescriptor at h
  split at h
  · next d _ hd =>
    split at h
    · next hb =>
      simp only [Bool.and_eq_true, Bool.or_eq_true, decide_eq_true_eq] at hb
      obtain ⟨⟨hop, _⟩, hlen⟩ := hb
      cases h
      exact ⟨d, hd, hop, hlen, rfl⟩
    · cases h
  · cases h

/-- Settles O5: every row but a flash descriptor's answers a next state. -/
theorem onlyDescriptorBeyondDramFaults : Obligations.OnlyDescriptorBeyondDramFaults := by
  refine ⟨fun c s r h => ?refused, fun c s f h => ?faults⟩
  case refused =>
    cases hc : clkStepOf c with
    | false => rcases exec_fin_or_fault c s hc with ⟨u, hu⟩ | ⟨f, hf⟩ <;> simp_all [fin]
    | true =>
      obtain ⟨u, hu, _⟩ := exec_clkStep_next hc s
      simp [hu] at h
  case faults =>
    rcases exec_next_or_descriptor c s with ⟨u, hu⟩ | ⟨i, fails, rfl⟩
    · simp [hu] at h
    · obtain ⟨d, hd, hop, hlen, hf⟩ := execFlashDescriptor_fault h
      exact ⟨i, fails, d, rfl, hd, hop, hlen, hf⟩

/-- Settles O1. -/
theorem stepRunsFrontCommand : Obligations.StepRunsFrontCommand := fun _ _ _ => rfl

/-! ### The clock -/

/-- The invariant speaks of the clock alone. -/
theorem ClkInv.congr {s t : State} (hi : ClkInv s) (h : t.clk = s.clk) : ClkInv t := by
  unfold ClkInv at hi ⊢
  rwa [h]

/-- A tick boundary keeps the invariant: it counts only out of reset. -/
theorem execTickBoundary_clkInv {x : TickIn} {s t : State} (hi : ClkInv s) (h : execTickBoundary x s = .next t) : ClkInv t := by
  have hcount : ticking s = true → ClkInv (countTick s) := by
    intro ht
    simp only [ticking, Bool.and_eq_true, Bool.not_eq_true'] at ht
    exact ⟨fun hr => by simp [countTick, ht.1, ht.2] at hr, hi.2⟩
  unfold execTickBoundary at h
  split at h
  · next hl =>
    obtain rfl := Host.Outcome.next.inj h
    simp only [live, Bool.and_eq_true] at hl
    exact (hcount (by simp only [ticking, Bool.and_eq_true]; exact hl.1)).congr rfl
  · split at h
    · next ht => exact Host.Outcome.next.inj h ▸ (hcount ht).congr rfl
    · exact Host.Outcome.next.inj h ▸ hi

/-- A power-on reset starts with PTC 0. -/
theorem resetState_clkInv (s : State) (porst : Bool) : ClkInv (resetState s porst) := by
  refine ⟨fun _ => rfl, fun h => ?_⟩
  cases porst <;> simp [resetState] at h

/-- A part that is held in reset, and goes on being held, keeps PTC 0. -/
theorem clkInv_held {s t : State} (hi : ClkInv s) (hs : s.clk.porst = true ∨ s.clk.uv = true) (ht : t.clk.porst = true ∨ t.clk.uv = true)
    (hp : t.clk.ptc = s.clk.ptc) : ClkInv t := by
  refine ⟨fun _ => hp ▸ hi.1 hs, fun h => ?_⟩
  simp [h.1, h.2] at ht

/-- The end of PORST_N draws a session ID that is not 0 (R28). -/
theorem execPorstDeassert_clkInv {e : W64} {tm g : Bool} {o : BootObs} {s t : State} (hi : ClkInv s)
    (h : execPorstDeassert e tm g o s = .next t) : ClkInv t := by
  simp only [execPorstDeassert, Host.Outcome.next.injEq] at h
  subst h
  split
  · exact hi
  · next hc =>
    simp only [Bool.or_eq_true, Bool.not_eq_true', decide_eq_true_eq, not_or, Bool.not_eq_false] at hc
    obtain ⟨⟨hp, he⟩, _⟩ := hc
    split
    · next hu => exact clkInv_held hi (.inl hp) (.inr hu) rfl
    · next hu => exact ⟨fun hr => by simp [hu] at hr, fun _ => he⟩

/-- So does the end of an undervoltage (R28, R482). -/
theorem execUndervoltageRelease_clkInv {e : W64} {tm g : Bool} {o : BootObs} {s t : State} (hi : ClkInv s)
    (h : execUndervoltageRelease e tm g o s = .next t) : ClkInv t := by
  simp only [execUndervoltageRelease, Host.Outcome.next.injEq] at h
  subst h
  split
  · exact hi
  · next hc =>
    simp only [Bool.or_eq_true, Bool.not_eq_true', decide_eq_true_eq, not_or, Bool.not_eq_false] at hc
    obtain ⟨⟨hu, he⟩, _⟩ := hc
    split
    · next hp => exact clkInv_held hi (.inr hu) (.inl hp) rfl
    · next hp => exact ⟨fun hr => by simp [hp] at hr, fun _ => he⟩

/-- Every command keeps the invariant of the clock (R26, R28): most do not touch the clock. -/
theorem exec_clkInv {c : Instr} {s t : State} (hi : ClkInv s) (h : exec c s = .next t) : ClkInv t := by
  cases hc : clkStepOf c with
  | false => exact hi.congr (exec_kept hc h).1
  | true =>
    cases c with
    | tickBoundary x => exact execTickBoundary_clkInv hi h
    | porstAssert => exact Host.Outcome.next.inj h ▸ resetState_clkInv s true
    | supplyUndervoltage =>
      obtain rfl := Host.Outcome.next.inj h
      split
      · next hp => exact clkInv_held hi (.inl hp) (.inr rfl) rfl
      · exact resetState_clkInv s false
    | porstDeassert => exact execPorstDeassert_clkInv hi h
    | undervoltageRelease => exact execUndervoltageRelease_clkInv hi h
    | _ => cases hc

/-- Settles O6: a step idles, or runs its front command, which keeps the invariant. -/
theorem everyStepKeepsClock : Obligations.EveryStepKeepsClock := by
  intro s t hi h
  unfold step at h
  split at h
  · cases h; exact hi
  · next c rest _ => exact exec_clkInv (s := { s with pending := rest }) hi h

/-- Settles O7. -/
theorem clockHoldsAtReset : Obligations.ClockHoldsAtReset := ⟨fun _ => rfl, fun h => absurd h.1 (by decide)⟩

end Sys2Proof.Machine
end

section
/-! SUPPORT. Memories: what a byte, or a run of bytes, reads as after a write (R213). -/

namespace Sys2Proof.Machine

open Sys2Proof

/-- What a list of cells holds at an address. -/
def cellAt (l : List Host.Cell) (a : Nat) : Byte := ((l.find? (·.1 == a)).map (·.2)).getD memBlank

theorem Mem.get_eq (m : Mem) (a : Nat) : m.get a = cellAt m.cells a := rfl

@[simp] theorem cellAt_nil (a : Nat) : cellAt [] a = memBlank := rfl

theorem cellAt_cons (k a : Nat) (v : Byte) (l : List Host.Cell) : cellAt ((k, v) :: l) a = if a = k then v else cellAt l a := by
  by_cases h : a = k
  · simp [cellAt, h]
  · simp [cellAt, h, Ne.symm h]

/-- Below its first cell a list in order holds nothing. -/
theorem cellAt_below {l : List Host.Cell} {a : Nat} (h : ∀ c ∈ l, a < c.1) : cellAt l a = memBlank := by
  have hn : l.find? (·.1 == a) = none := List.find?_eq_none.2 fun c hc => by simp [Nat.ne_of_gt (h c hc)]
  simp [cellAt, hn]

/-- A byte set in the cells reads back, and the others read as before. -/
theorem cellAt_cellSet (a b : Nat) (v : Byte) : ∀ {l : List Host.Cell}, cellsWf l = true →
    cellAt (cellSet a v l) b = if b = a then v else cellAt l b
  | [], _ => by
    by_cases hv : v = memBlank
    · simp [cellSet, hv]
    · simp [cellSet, hv, cellAt_cons]
  | (k, w) :: t, h => by
    obtain ⟨hw, hk, ht⟩ := (cellsWf_cons k w t).1 h
    simp only [cellSet]
    split
    · next hak =>
      have ha : cellAt ((k, w) :: t) a = memBlank := cellAt_below fun c hc => by
        rcases List.mem_cons.1 hc with rfl | hc
        · exact hak
        · exact Nat.lt_trans hak (hk c hc)
      by_cases hv : v = memBlank
      · by_cases hb : b = a <;> simp [hv, hb, ha]
      · rw [if_neg hv, cellAt_cons]
    · split
      · next hak =>
        subst hak
        have ha : cellAt t a = memBlank := cellAt_below hk
        by_cases hv : v = memBlank <;> by_cases hb : b = a <;> simp_all [cellAt_cons]
      · next hak =>
        rw [cellAt_cons, cellAt_cons, cellAt_cellSet a b v ht]
        by_cases hkb : b = k
        · have hba : b ≠ a := fun hba => hak (hba.symm.trans hkb)
          simp [hkb, hkb ▸ hba]
        · simp [hkb]

/-- Read after write, one byte. -/
theorem Mem.get_set {m : Mem} (a b : Nat) (v : Byte) (h : m.wf = true) : (m.set a v).get b = if b = a then v else m.get b :=
  cellAt_cellSet a b v h

/-- Bytes outside those written read as before. -/
theorem Mem.get_put_outside : ∀ {m : Mem} {a b : Nat} {l : List Byte}, m.wf = true → (b < a ∨ a + l.length ≤ b) →
    (m.put a l).get b = m.get b
  | _, _, _, [], _, _ => rfl
  | m, a, b, v :: l, h, hb => by
    simp only [List.length_cons] at hb
    have hne : b ≠ a := by omega
    rw [Mem.put, Mem.get_put_outside (Mem.set_wf a v h) (by omega), Mem.get_set a b v h, if_neg hne]

/-- Bytes written read back. -/
theorem Mem.get_put_inside : ∀ {m : Mem} {a : Nat} {l : List Byte} (i : Nat) (hi : i < l.length), m.wf = true →
    (m.put a l).get (a + i) = l[i]
  | m, a, v :: l, 0, _, h => by
    rw [Mem.put, Mem.get_put_outside (Mem.set_wf a v h) (by omega), Mem.get_set a (a + 0) v h]
    simp
  | m, a, v :: l, i + 1, hi, h => by
    have hr := Mem.get_put_inside (a := a + 1) i (Nat.lt_of_succ_lt_succ hi) (Mem.set_wf a v h)
    rw [Mem.put, ← Nat.add_right_comm, Nat.add_assoc] at *
    simpa using hr

/-- A write of the buffer DRAM leaves what an unwritten byte reads as. -/
theorem dramBase_dramWrite (s : State) (a b : Nat) (l : List Byte) : dramBase (dramWrite s a l) b = dramBase s b := rfl

/-- The bytes that are kept for a write: each against what its place reads as unwritten. -/
theorem dramWrite_bytes_getElem (s : State) (a i : Nat) (l : List Byte) (hi : i < l.length) :
    (l.zipIdx.map fun (x, i) => x ^^^ dramBase s (a + i))[i]'(by simpa using hi) = l[i] ^^^ dramBase s (a + i) := by
  simp

/-- Read after write of the buffer DRAM. -/
theorem dramRead_dramWrite_same {s : State} (a : Nat) (l : List Byte) (h : s.dram.wf = true) :
    dramRead (dramWrite s a l) a l.length = l := by
  refine List.ext_getElem (by simp [dramRead]) fun i h1 h2 => ?_
  have hg : (dramWrite s a l).dram.get (a + i) = l[i] ^^^ dramBase s (a + i) :=
    (Mem.get_put_inside i (by simpa using h2) h).trans (dramWrite_bytes_getElem s a i l h2)
  simp only [dramRead, List.getElem_map, List.getElem_range, hg, dramBase_dramWrite, BitVec.xor_assoc, BitVec.xor_self,
    BitVec.xor_zero]

/-- Bytes outside those written to the buffer DRAM read as before. -/
theorem dramRead_dramWrite_outside {s : State} {a b : Nat} {l : List Byte} (h : s.dram.wf = true) (hb : b < a ∨ a + l.length ≤ b) :
    dramRead (dramWrite s a l) b 1 = dramRead s b 1 := by
  have hg : (dramWrite s a l).dram.get b = s.dram.get b := Mem.get_put_outside h (by simpa using hb)
  simp only [dramRead, dramBase_dramWrite, List.range_one, List.map_cons, List.map_nil, Nat.add_zero, hg]

/-- Settles O9. -/
theorem memoryReadAfterWrite : Obligations.MemoryReadAfterWrite :=
  ⟨fun _ a b v h => Mem.get_set a b v h,
    fun _ a l h => ⟨dramRead_dramWrite_same a l h, fun _ hb => dramRead_dramWrite_outside h hb⟩⟩

end Sys2Proof.Machine
end

section
/-! SUPPORT. A power-on reset (R26, R43, R65, R70, R404, R482): what it leaves, and what the balls show meanwhile. -/

namespace Sys2Proof.Machine

open Sys2Proof

/-- In reset every ball shows its reset level (R70). -/
theorem ballLevel_reset {s : State} (h : s.clk.porst = true ∨ s.clk.uv = true) (b : Ball) : ballLevel s b = resetLevel b := by
  rcases h with h | h <;> simp [ballLevel, h]

/-- A part in reset does not run. -/
theorem live_reset {s : State} (h : s.clk.porst = true ∨ s.clk.uv = true) : live s = false := by
  rcases h with h | h <;> simp [live, h]

/-- The flash die as reset finds it: what is not the event log's copy is as it was. -/
theorem tornRing_eq (s : State) : tornRing s = { s.fl with ring := (tornRing s).ring, ringBad := (tornRing s).ringBad, ringAt := none } := by
  unfold tornRing
  dsimp only
  split
  · split <;> rfl
  · rfl

/-- The newest record copied in this tick may be left half programmed; every other is as it was (R404, log 145). -/
theorem tornRing_ring (s : State) : ((tornRing s).ring = s.fl.ring ∧ (tornRing s).ringBad = s.fl.ringBad) ∨
    ∃ e, s.fl.ringAt = some s.clk.ptc ∧ s.fl.ring = (tornRing s).ring ++ [e] ∧ (tornRing s).ringBad = s.fl.ringBad ++ [e.seq] := by
  unfold tornRing
  dsimp only
  split
  · next e he =>
    split
    · next hc =>
      simp only [Bool.and_eq_true, beq_iff_eq] at hc
      exact .inr ⟨e, hc.1, (List.dropLast_append_getLast? e he).symm, rfl⟩
    · exact .inl ⟨rfl, rfl⟩
  · exact .inl ⟨rfl, rfl⟩

theorem tornRing_pfSecond (s : State) : (tornRing s).pfSecond = s.fl.pfSecond := by rw [tornRing_eq]
theorem tornRing_pfPlan (s : State) : (tornRing s).pfPlan = s.fl.pfPlan := by rw [tornRing_eq]
theorem tornRing_pf1 (s : State) : (tornRing s).pf1 = s.fl.pf1 := by rw [tornRing_eq]
theorem tornRing_pf2 (s : State) : (tornRing s).pf2 = s.fl.pf2 := by rw [tornRing_eq]

/-- What a reset leaves but for the flash die's records: reset values beside the cartridge, the free values and what waits. -/
theorem resetState_eq (s : State) (porst : Bool) : resetState s porst = { State.reset with
      pending := s.pending
      clk := { porst := porst, uv := !porst, ptc := 0#64, session := 0#64, hb := false }
      fl := { s.fl with
        ring := (resetState s porst).fl.ring, ringBad := (resetState s porst).fl.ringBad, ringAt := none
        pf1 := (resetState s porst).fl.pf1, pf2 := (resetState s porst).fl.pf2, pfPlan := [], pfErase := []
        suspended := false, eraseRan := none, readWaits := false, opRun := none, queueOpen := false, queue := [], todo := []
        erasing := none, erases := 0, fails := 0, reerase := 0, reerased := false }
      cart := { mem := s.cart.mem, present := s.cart.present, threaded := s.cart.threaded }
      free := s.free + 1 } := by
  unfold resetState
  dsimp only
  rw [tornRing_eq]
  rfl

/-- With no power-fail record under way, both of its sectors stay (R65). -/
theorem resetState_noRecord {s : State} (h : s.pw.pf.recPend = false) (porst : Bool) :
    (resetState s porst).fl.pf1 = s.fl.pf1 ∧ (resetState s porst).fl.pf2 = s.fl.pf2 := by
  simp only [resetState, h, Bool.false_and, Bool.false_eq_true, if_false, tornRing_pf1, tornRing_pf2, and_self]

/-- Of a power-fail record under way the entries programmed by then stay (log 106). -/
theorem resetState_record {s : State} (h : s.pw.pf.recPend = true) (porst : Bool) : ∃ k, k < 21 ∧
    (s.fl.pfSecond = false → (resetState s porst).fl.pf1 = s.fl.pfPlan.take k ∧ (resetState s porst).fl.pf2 = s.fl.pf2) ∧
    (s.fl.pfSecond = true → (resetState s porst).fl.pf2 = s.fl.pfPlan.take k ∧ (resetState s porst).fl.pf1 = s.fl.pf1) := by
  refine ⟨Config.pfEntries s.free % 21, Nat.mod_lt _ (by omega), fun hs => ?_, fun hs => ?_⟩ <;>
    simp [resetState, h, hs, tornRing_pf1, tornRing_pf2, tornRing_pfPlan, tornRing_pfSecond]

/-- Settles O12: both causes reset the state, and a supply that fails in reset is noted. -/
theorem resetsClearTheState : Obligations.ResetsClearTheState := by
  refine ⟨fun s => ⟨_, rfl, ?porst, live_reset (.inl rfl), ballLevel_reset (.inl rfl)⟩, fun s h => ⟨resetState s false, ?exec,
    ?supply, live_reset (.inr rfl), ballLevel_reset (.inr rfl)⟩, fun s h => ?noted⟩
  case porst => exact ⟨resetState_eq s true, fun h => resetState_noRecord h true, fun h => resetState_record h true, tornRing_ring s⟩
  case exec => simp only [exec, execSupplyUndervoltage, h, Bool.false_eq_true, if_false]
  case supply => exact ⟨resetState_eq s false, fun h => resetState_noRecord h false, fun h => resetState_record h false, tornRing_ring s⟩
  case noted => simp only [exec, execSupplyUndervoltage, h, if_true]

/-- Settles O8: the reset state's fields by their defaults, its outputs by the reset levels (R70). -/
theorem resetValues : Obligations.ResetValues := by
  have hb : ∀ b, ballLevel State.reset b = resetLevel b := ballLevel_reset (.inl rfl)
  refine ⟨rfl, rfl, rfl, rfl, rfl, fun n => ?_, rfl, rfl, fun g => ?_, rfl, fun f => ?_, rfl, fun _ => hb _, fun _ => hb _, hb _,
    fun _ => hb _, hb _, hb _, hb _, hb _, hb _, hb _, hb _, hb _⟩
  · have h : State.reset.sad[n] = {} := Vector.getElem_replicate n.isLt
    exact h ▸ ⟨rfl, rfl, rfl⟩
  · exact Vector.getElem_replicate g.isLt
  · have h : State.reset.pcie.fn[f] = {} := Vector.getElem_replicate f.isLt
    exact h ▸ rfl

end Sys2Proof.Machine
end

section
/-! SUPPORT. The tick source (R8-R12, R475): what an edge of FTICK and a missing one write. -/

namespace Sys2Proof.Machine

open Sys2Proof

/-! ### Runs of edges (R8) -/

/-- A run whose every period fits the new one is kept whole. -/
theorem fitRun_consistent {p : Nat} {l : List Nat} (h : consistent (p :: l) = true) : fitRun p l = p :: l := by
  cases l with
  | nil => rfl
  | cons a l =>
    have hr : List.range (a :: l).length = 0 :: (List.range l.length).map Nat.succ := List.range_succ_eq_map
    have ht : (a :: l).take ((a :: l).length - 0) = a :: l := List.take_length
    simp only [fitRun, hr, List.map_cons, ht, List.find?_cons_of_pos h, Option.getD_some]

/-- One period fits itself. -/
theorem consistent_singleton (p : Nat) : consistent [p] = true := by
  simp [consistent]
  omega

/-- The newest edges that fit begin with the new one, and fit one another. -/
theorem fitRun_head_consistent (p : Nat) (l : List Nat) : (fitRun p l).head? = some p ∧ consistent (fitRun p l) = true := by
  cases l with
  | nil => exact ⟨rfl, consistent_singleton p⟩
  | cons a l =>
    simp only [fitRun]
    cases hf : ((List.range (a :: l).length).map fun k => p :: (a :: l).take ((a :: l).length - k)).find? consistent with
    | none => exact ⟨rfl, consistent_singleton p⟩
    | some r =>
      obtain ⟨k, _, rfl⟩ := List.mem_map.1 (List.mem_of_find?_eq_some hf)
      exact ⟨rfl, List.find?_some hf⟩

/-! ### Edges and their absence -/

/-- What a slew writes: the tick's target and phase, the event log and ATTENTION. -/
theorem slewTo_tk (s : State) (p : Nat) (ph : Int) : ∃ x b, (slewTo s p ph).tk = { s.tk with target := some p, phase := x, slewing := b } := by
  unfold slewTo
  split
  · exact ⟨_, _, rfl⟩
  · split
    · exact ⟨_, _, rfl⟩
    · exact ⟨ph, true, by simp [logSlew]⟩

theorem slewTo_kept (s : State) (p : Nat) (ph : Int) : (slewTo s p ph).clk = s.clk ∧ (slewTo s p ph).pending = s.pending := by
  unfold slewTo
  split
  · exact ⟨rfl, rfl⟩
  · split <;> simp [logSlew]

/-- A part without an edge goes on from the crystal (R10): it flywheels, and logs that. -/
theorem ftickMissing_eq (s : State) : ∃ v p, ftickMissing s = { s with evt := v, pcie := p, tk := { s.tk with
    run := [], locked := false, flywheel := true, slewing := false, target := none, phase := 0
    periodPend := some (s.tk.lastLocked.getD s.tk.periodNs) } } := by
  unfold ftickMissing
  dsimp only
  cases h : s.tk.slewing with
  | true =>
    obtain ⟨v, p, hv⟩ := logE_chip { s with tk := { s.tk with slewing := false } } .info 0x0101
      [("st", 1, 1), ("period_ns", 4, s.tk.lastLocked.getD s.tk.periodNs)] none
    simp only [if_true, hv]
    obtain ⟨w, q, hw⟩ := logE_chip { s with evt := v, pcie := p, tk := { s.tk with
      run := [], locked := false, flywheel := true, slewing := false, target := none, phase := 0
      periodPend := some (s.tk.lastLocked.getD s.tk.periodNs) } } .warn 0x0102
      [("st", 1, 0), ("period_ns", 4, s.tk.lastLocked.getD s.tk.periodNs)] none
    exact ⟨w, q, hw⟩
  | false =>
    obtain ⟨w, q, hw⟩ := logE_chip { s with tk := { s.tk with
      run := [], locked := false, flywheel := true, target := none, phase := 0
      periodPend := some (s.tk.lastLocked.getD s.tk.periodNs) } } .warn 0x0102
      [("st", 1, 0), ("period_ns", 4, s.tk.lastLocked.getD s.tk.periodNs)] none
    simp only [Bool.false_eq_true, if_false]
    refine ⟨w, q, hw.trans ?_⟩
    rw [← h]

/-- The tick locks to a period with its run of edges; a flywheel ends, with its record (R8, R14). -/
def locksTo (s : State) (p : Nat) : State :=
  let u := { s with tk := { s.tk with run := (fitRun p s.tk.run).take 8, locked := true, flywheel := false, lastLocked := some p } }
  if s.tk.flywheel then logFlywheel u 1 else u

theorem locksTo_tk (s : State) (p : Nat) : (locksTo s p).tk =
    { s.tk with run := (fitRun p s.tk.run).take 8, locked := true, flywheel := false, lastLocked := some p } := by
  unfold locksTo
  dsimp only
  split <;> simp [logFlywheel]

theorem locksTo_kept (s : State) (p : Nat) : (locksTo s p).clk = s.clk ∧ (locksTo s p).pending = s.pending := by
  unfold locksTo
  dsimp only
  split <;> simp [logFlywheel]

section
variable {p : Nat} {ph : Int} {s : State}

/-- With the crystal selected FTICK is ignored (R475). -/
theorem ftickEdge_internal (h : s.tk.ftick = false) : ftickEdge p ph s = s := by
  simp [ftickEdge, h]

/-- Out of range, unlocked: RANGE is set and the run is over (R12). -/
theorem ftickEdge_range (h : s.tk.ftick = true) (hp : p < 50000 ∨ 200000 < p) (hl : s.tk.locked = false) :
    ftickEdge p ph s = { s with tk := { s.tk with range := true, run := [] } } := by
  have hr : inFtickRange p = false := by simp [inFtickRange]; omega
  simp [ftickEdge, h, hr, hl]

/-- Out of range, locked: the lock is lost too (R12, log 119). -/
theorem ftickEdge_range_locked (h : s.tk.ftick = true) (hp : p < 50000 ∨ 200000 < p) (hl : s.tk.locked = true) :
    ftickEdge p ph s = ftickMissing { s with tk := { s.tk with range := true, run := [] } } := by
  have hr : inFtickRange p = false := by simp [inFtickRange]; omega
  simp [ftickEdge, h, hr, hl]

/-- A locked edge in range is the period to slew to (R8, R11). -/
theorem ftickEdge_locked (h : s.tk.ftick = true) (h1 : 50000 ≤ p) (h2 : p ≤ 200000) (hl : s.tk.locked = true) :
    ftickEdge p ph s = if s.tk.target != some p || ph ≠ 0 then slewTo { s with tk := { s.tk with lastLocked := some p } } p ph
      else { s with tk := { s.tk with lastLocked := some p } } := by
  have hr : inFtickRange p = true := by simp [inFtickRange]; omega
  simp [ftickEdge, h, hr, hl]

/-- An unlocked edge in range joins the run; the eighth that fits locks (R8). -/
theorem ftickEdge_unlocked (h : s.tk.ftick = true) (h1 : 50000 ≤ p) (h2 : p ≤ 200000) (hl : s.tk.locked = false) :
    ftickEdge p ph s = if ((fitRun p s.tk.run).take 8).length < 8 then { s with tk := { s.tk with run := (fitRun p s.tk.run).take 8 } }
      else slewTo (locksTo s p) p ph := by
  have hr : inFtickRange p = true := by simp [inFtickRange]; omega
  simp [ftickEdge, locksTo, h, hr, hl]

end

/-- An edge keeps the clock and the waiting commands. -/
theorem ftickEdge_kept (p : Nat) (ph : Int) (s : State) : (ftickEdge p ph s).clk = s.clk ∧ (ftickEdge p ph s).pending = s.pending := by
  cases hf : s.tk.ftick with
  | false => simp only [ftickEdge_internal hf, and_self]
  | true =>
    by_cases hp : p < 50000 ∨ 200000 < p
    · cases hl : s.tk.locked with
      | false => rw [ftickEdge_range hf hp hl]; exact ⟨rfl, rfl⟩
      | true =>
        obtain ⟨v, q, hm⟩ := ftickMissing_eq { s with tk := { s.tk with range := true, run := [] } }
        rw [ftickEdge_range_locked hf hp hl, hm]
        exact ⟨rfl, rfl⟩
    · cases hl : s.tk.locked with
      | true =>
        rw [ftickEdge_locked hf (by omega) (by omega) hl]
        split
        · exact slewTo_kept _ p ph
        · exact ⟨rfl, rfl⟩
      | false =>
        rw [ftickEdge_unlocked hf (by omega) (by omega) hl]
        split
        · exact ⟨rfl, rfl⟩
        · obtain ⟨hc, hq⟩ := slewTo_kept (locksTo s p) p ph
          obtain ⟨hc', hq'⟩ := locksTo_kept s p
          exact ⟨hc.trans hc', hq.trans hq'⟩

/-- An edge's step is its effect. -/
theorem exec_ftickEdge {s : State} (hl : live s = true) (p : Nat) (ph : Int) :
    exec (.ftickEdge p ph) s = .next (ftickEdge p ph (quiet s)) :=
  have ⟨hc, hp⟩ := ftickEdge_kept p ph (quiet s)
  act_live_kept hl _ hc hp

/-- Settles O11: an edge by its source, its range and the lock; a missing edge; the run that edges make. -/
theorem ftickLocksAndFlywheels : Obligations.FtickLocksAndFlywheels := by
  refine ⟨?internal, ?range, ?rangeLocked, ?locked, ?unlocked, ?missing, fun p l h => fitRun_consistent h,
    fun p l => ⟨consistent_singleton p, fitRun_head_consistent p l⟩⟩
  case internal => exact fun p ph s hl h => (exec_ftickEdge hl p ph).trans (congrArg _ (ftickEdge_internal (s := quiet s) h))
  case range =>
    exact fun p ph s hl h hp hk => (exec_ftickEdge hl p ph).trans (congrArg _ (ftickEdge_range (s := quiet s) h hp hk))
  case rangeLocked =>
    intro p ph s hl h hp hk
    obtain ⟨v, q, hm⟩ := ftickMissing_eq { quiet s with tk := { s.tk with range := true, run := [] } }
    exact ⟨_, (exec_ftickEdge hl p ph).trans (congrArg _ ((ftickEdge_range_locked (s := quiet s) h hp hk).trans hm)), rfl, rfl, rfl, rfl⟩
  case locked =>
    intro p ph s hl h h1 h2 hk
    refine ⟨_, (exec_ftickEdge hl p ph).trans (congrArg _ (ftickEdge_locked (s := quiet s) h h1 h2 hk)), ?_⟩
    split
    · obtain ⟨x, b, ht⟩ := slewTo_tk { quiet s with tk := { s.tk with lastLocked := some p } } p ph
      exact ht ▸ ⟨hk, rfl, rfl, rfl⟩
    · next hc =>
      simp only [Bool.or_eq_true, bne_iff_ne, ne_eq, decide_eq_true_eq, not_or, not_not] at hc
      exact ⟨hk, rfl, hc.1, rfl⟩
  case unlocked =>
    intro p ph s hl h h1 h2 hk
    refine ⟨_, (exec_ftickEdge hl p ph).trans (congrArg _ (ftickEdge_unlocked (s := quiet s) h h1 h2 hk)), ?_⟩
    split
    · next hr => exact ⟨rfl, rfl, hk.trans (decide_eq_false (Nat.not_le.2 hr)).symm, fun hge => absurd hr (Nat.not_lt.2 hge)⟩
    · next hr =>
      obtain ⟨x, b, ht⟩ := slewTo_tk (locksTo (quiet s) p) p ph
      rw [locksTo_tk] at ht
      exact ht ▸ ⟨rfl, rfl, (decide_eq_true (Nat.not_lt.1 hr)).symm, fun _ => ⟨rfl, rfl, rfl⟩⟩
  case missing =>
    intro s hl h hk
    obtain ⟨v, q, hm⟩ := ftickMissing_eq (quiet s)
    exact ⟨_, rowIf_eq hl (by simp [h, hk]) hm rfl rfl, rfl, rfl, rfl, rfl⟩

end Sys2Proof.Machine
end

section
/-! SUPPORT. What shared operations write: records and latches, the caddy pool, monitors, and the block under fill (R101, R102, R211). -/

namespace Sys2Proof.Machine

open Sys2Proof

/-! ### Logs and latches only -/

/-- One state differs from another in the event log and in interrupt latches at most: in what records and latches write. -/
def LogOnly (s t : State) : Prop := ∃ v p d, t = { s with evt := v, pcie := p, sad := d }

theorem LogOnly.refl (s : State) : LogOnly s s := ⟨_, _, _, rfl⟩

theorem LogOnly.trans {s t u : State} (h : LogOnly s t) (g : LogOnly t u) : LogOnly s u := by
  obtain ⟨v, p, d, rfl⟩ := h
  obtain ⟨v', p', d', rfl⟩ := g
  exact ⟨v', p', d', rfl⟩

theorem LogOnly.logE {s t : State} (h : LogOnly s t) (sev : Sev) (src code : Nat) (body : List (String × Nat × Nat))
    (text : Option String := none) : LogOnly s (logE t sev src code body text) := h.trans (logE_eq t sev src code body text)

theorem LogOnly.foldl {α : Type} {f : State → α → State} (h : ∀ s a, LogOnly s (f s a)) (l : List α) (s : State) :
    LogOnly s (l.foldl f s) := foldl_keeps (LogOnly s) f (fun t a ht => ht.trans (h t a)) l s (.refl s)

theorem latch_logOnly (s : State) (n : SadNo) (k : Nat) : LogOnly s (latch s n k) := ⟨_, _, _, rfl⟩

theorem latchPf_logOnly (s : State) (k : Nat) : LogOnly s (latchPf s k) := ⟨_, _, _, rfl⟩

theorem modeAttention_logOnly (s : State) : LogOnly s (modeAttention s) :=
  (latchPf_logOnly s 1).trans (.foldl (fun s n => latch_logOnly s n 1) _ _)

theorem logMode_logOnly (s : State) (a b : Mode) : LogOnly s (logMode s a b) := (LogOnly.refl s).logE _ _ _ _

theorem latchFn_logOnly (s : State) (f : FnNo) : LogOnly s (latchFn s f) := by
  unfold latchFn
  split
  · exact latch_logOnly _ _ _
  · exact latchPf_logOnly _ _

theorem modFn_logOnly (s : State) (f : FnNo) (g : Fn → Fn) : LogOnly s (modFn s f g) := ⟨_, _, _, rfl⟩

theorem ringBell_logOnly (s : State) (f : FnNo) (cmd : Bool) (p : Nat) : LogOnly s (ringBell s f cmd p) := by
  rcases h : rung cmd s.pcie.fn[f] p with ⟨y, _ | _⟩
  · rw [ringBell_valid (g := fun _ => y) h]
    exact modFn_logOnly s f _
  · rw [ringBell_invalid (g := fun _ => y) h]
    exact (modFn_logOnly s f _).trans (latchFn_logOnly _ f)

/-- A doorbell that came early writes its ring block and ATTENTION only. -/
theorem lateBell_logOnly (s : State) (f : FnNo) : LogOnly s (lateBell s f) := by
  have hone : ∀ (t : State) (cmd : Bool) (v : Option Nat), LogOnly t (match v with
      | none => t
      | some v => if bellIgnored t f then modFn t f fun x => { x with dbIgn := inc x.dbIgn } else ringBell t f cmd v) := by
    intro t cmd v
    cases v with
    | none => exact .refl t
    | some v =>
      dsimp only
      split
      · exact ⟨_, _, _, rfl⟩
      · exact ringBell_logOnly t f cmd v
  unfold lateBell
  split
  · exact .refl s
  · next p c _ =>
    have h : LogOnly s (modFn s f fun x => { x with early := none }) := ⟨_, _, _, rfl⟩
    exact (h.trans (hone _ true p)).trans (hone _ false c)

/-! ### The caddy pool and monitors only (R101, R102) -/

/-- One state differs from another in the pool and in what saddles hold as monitors at most. -/
def MonOnly (s t : State) : Prop :=
  (∃ p d, t = { s with pool := p, sad := d }) ∧ ∀ m : SadNo, ∃ r l d, t.sad[m] = { s.sad[m] with monRefs := r, lag := l, monData := d }

theorem MonOnly.refl (s : State) : MonOnly s s := ⟨⟨_, _, rfl⟩, fun _ => ⟨_, _, _, rfl⟩⟩

theorem MonOnly.trans {s t u : State} (h : MonOnly s t) (g : MonOnly t u) : MonOnly s u := by
  obtain ⟨⟨p, d, ht⟩, hs⟩ := h
  obtain ⟨⟨p', d', hu⟩, hs'⟩ := g
  refine ⟨⟨p', d', by rw [hu, ht]⟩, fun m => ?_⟩
  obtain ⟨r, l, e, h1⟩ := hs m
  obtain ⟨r', l', e', h2⟩ := hs' m
  exact ⟨r', l', e', by rw [h2, h1]⟩

theorem MonOnly.foldl {α : Type} {f : State → α → State} (h : ∀ s a, MonOnly s (f s a)) (l : List α) (s : State) :
    MonOnly s (l.foldl f s) := foldl_keeps (MonOnly s) f (fun t a ht => ht.trans (h t a)) l s (.refl s)

theorem PoolOnly.monOnly {s t : State} (h : PoolOnly s t) : MonOnly s t := by
  obtain ⟨p, rfl⟩ := h
  exact ⟨⟨p, _, rfl⟩, fun _ => ⟨_, _, _, rfl⟩⟩

/-- A change of what one saddle holds as a monitor. -/
theorem modSad_monOnly (s : State) (n : SadNo) {f : Saddle → Saddle}
    (hf : ∃ r l d, f s.sad[n] = { s.sad[n] with monRefs := r, lag := l, monData := d }) : MonOnly s (modSad s n f) := by
  refine ⟨⟨_, _, rfl⟩, fun m => ?_⟩
  rw [modSad_get]
  split
  · next h => exact h ▸ hf
  · exact ⟨_, _, _, rfl⟩

theorem takeRef_monOnly (s : State) (i : Nat) (h : Holder) : MonOnly s (takeRef s i h) := by
  unfold takeRef useOp
  split <;> exact PoolOnly.monOnly ⟨_, rfl⟩

theorem dropOldestRef_monOnly (s : State) (m : SadNo) : MonOnly s (dropOldestRef s m) := by
  unfold dropOldestRef
  split
  · exact .refl s
  · exact (modSad_monOnly s m ⟨_, _, _, rfl⟩).trans (PoolOnly.monOnly ⟨_, rfl⟩)

theorem dropToLag_monOnly (m : SadNo) : ∀ (k : Nat) (s : State), MonOnly s (dropToLag m k s)
  | 0, s => .refl s
  | k + 1, s => by
    unfold dropToLag
    split
    · exact (dropOldestRef_monOnly s m).trans (dropToLag_monOnly m k _)
    · exact .refl s

/-- A girth that reaches a followed saddle's monitors changes nothing but the monitors and the pool (R101, R102). -/
theorem tellMonitors_monOnly (s : State) (n : SadNo) (g c : Nat) : MonOnly s (tellMonitors s n g c) := by
  refine .foldl (fun t m => ?_) allSads s
  split
  · dsimp only
    refine MonOnly.trans ?_ (dropToLag_monOnly m _ _)
    refine MonOnly.trans (t := if (monCaddies t.sad[m]).contains c = true then t else takeRef t c (.reader m)) ?_
      (modSad_monOnly _ m ⟨_, _, _, rfl⟩)
    split
    · exact .refl t
    · exact takeRef_monOnly t c _
  · exact .refl t

/-! ### The block under fill (R211) -/

/-- An empty block is not ended. -/
theorem closeBlk_empty {s : State} {n : SadNo} (h : s.sad[n].blk.bytes = []) : closeBlk s n = s :=
  if_pos (by rw [h]; rfl)

/-- Ending a block makes a girth of it: the next girth number moves on, and monitors hear of it. -/
theorem closeBlk_closes {s : State} {n : SadNo} (h : s.sad[n].blk.bytes ≠ []) : ∃ k g,
    MonOnly (modSad { s with free := k } n fun x => { x with acked := x.acked ++ [g], next := x.next + 1, blk := {} }) (closeBlk s n) := by
  unfold closeBlk
  dsimp only
  rw [if_neg fun hl => h (List.length_eq_zero_iff.1 hl)]
  exact ⟨_, _, tellMonitors_monOnly _ n _ _⟩

/-- Ending a block, if there is one, writes saddles, the pool and the free-value counter. -/
theorem closeBlk_eq (s : State) (n : SadNo) : ∃ d p f, closeBlk s n = { s with sad := d, pool := p, free := f } := by
  by_cases h : s.sad[n].blk.bytes = []
  · exact ⟨_, _, _, closeBlk_empty h⟩
  · obtain ⟨k, g, ⟨p, d, hm⟩, _⟩ := closeBlk_closes h
    exact ⟨d, p, k, hm⟩

/-- One state differs from another in saddles, the pool and the free-value counter at most. -/
def BufOnly (s t : State) : Prop := ∃ d p f, t = { s with sad := d, pool := p, free := f }

theorem BufOnly.refl (s : State) : BufOnly s s := ⟨_, _, _, rfl⟩

/-- Ending the blocks of saddles, one after another. -/
theorem BufOnly.closeBlk {s t : State} (h : BufOnly s t) (n : SadNo) : BufOnly s (closeBlk t n) := by
  obtain ⟨d, p, f, rfl⟩ := h
  obtain ⟨d', p', f', h⟩ := closeBlk_eq { s with sad := d, pool := p, free := f } n
  exact ⟨d', p', f', h⟩

end Sys2Proof.Machine
end

section
/-! SUPPORT. Changes of mode (R31-R40): what putting a mode in force leaves of the chip itself, whatever it does on the media side. -/

namespace Sys2Proof.Machine

open Sys2Proof

/-! ### The chip's part of State -/

/-- What a mode change leaves as it is: the clock, what waits, the power block, the keys and the committed configuration. -/
def chip (s : State) : Clk × List Instr × Power × Keys × List (Param × PVal) :=
  (s.clk, s.pending, s.pw, s.keys, s.cfg.committed)

theorem chip_foldl {α : Type} {f : State → α → State} (h : ∀ s a, chip (f s a) = chip s) (l : List α) (s : State) :
    chip (l.foldl f s) = chip s :=
  foldl_keeps (fun t => chip t = chip s) f (fun t a ht => (h t a).trans ht) l s rfl

theorem LogOnly.chip {s t : State} (h : LogOnly s t) : chip t = Machine.chip s := by
  obtain ⟨v, p, d, rfl⟩ := h
  rfl

theorem GuardKeeps.chip {s t : State} (h : GuardKeeps s t) : chip t = Machine.chip s := by
  obtain ⟨m, v, p, d, rfl⟩ := h
  rfl

theorem PoolOnly.chip {s t : State} (h : PoolOnly s t) : chip t = Machine.chip s := by
  obtain ⟨p, rfl⟩ := h
  rfl

theorem chip_ite {c : Prop} [Decidable c] {s t u : State} (ht : chip t = chip s) (hu : chip u = chip s) :
    chip (if c then t else u) = chip s := by split <;> assumption

theorem chip_step {c : Prop} [Decidable c] {f : State → State} (h : ∀ s, chip (f s) = chip s) (s : State) :
    chip (if c then f s else s) = chip s := chip_ite (h s) rfl

theorem chip_freeSystem (s : State) : chip (freeSystem s) = chip s := (askReleases_poolOnly Caddy.idx _ _ s).chip

theorem chip_endUse (s : State) (d : DataSet) : chip (endUse s d) = chip s := chip_ite (askReleases_poolOnly id _ d.cads s).chip rfl

theorem chip_letGo (s : State) (d : DataSet) : chip (letGo s d) = chip s :=
  (askReleases_poolOnly id _ d.cads (endUse s d)).chip.trans (chip_endUse s d)

theorem chip_modSad (s : State) (n : SadNo) (f : Saddle → Saddle) : chip (modSad s n f) = chip s := rfl

theorem chip_requeueOne (s : State) (w : WDs) : chip (requeueOne s w) = chip s :=
  chip_ite ((chip_modSad _ _ _).trans (chip_endUse s w.ds)) (chip_letGo s w.ds)

/-- Changes of the media side alone. -/
theorem chip_med (s : State) (m : Media) : chip { s with med := m } = chip s := rfl

theorem chip_requeueAll (s : State) : chip (requeueAll s) = chip s :=
  (chip_med _ _).trans (chip_foldl chip_requeueOne (s.med.written ++ s.med.again.toList).reverse s)

theorem chip_keepWpl (s : State) : chip (keepWpl s) = chip s := chip_ite (chip_med s _) rfl

theorem chip_afterFlush (s : State) : chip (afterFlush s) = chip s := chip_ite (chip_med s _) (chip_med s _)

/-- Changes of the media side, the read chain, the servo and the rein alone. -/
theorem chip_tape (s : State) (m : Media) (r : ReadCh) (v : Servo) (i : Rein) :
    chip { s with med := m, rd := r, srv := v, rein := i } = chip s := rfl

/-- Leaving STREAM leaves the chip's part. -/
theorem chip_leaveStream (s : State) : chip (leaveStream s) = chip s := by
  have hg : chip (guardLeave (requeueAll (keepWpl s))) = chip s :=
    (chip_med _ _).trans ((chip_requeueAll (keepWpl s)).trans (chip_keepWpl s))
  refine (chip_tape _ _ _ _ _).trans (chip_ite ?_ hg)
  exact (chip_afterFlush _).trans ((chip_med _ _).trans hg)

/-- So does leaving SERVICE. -/
theorem chip_leaveService (s : State) : chip (leaveService s) = chip s := by
  refine (guardScan_guard _).chip.trans ?_
  obtain ⟨p, h⟩ := askReleases_poolOnly Caddy.idx (.owner ownSystem) (s.pool.caddies.filter fun c => c.owner == some ownSystem) s
  change freeSystem s = _ at h
  rw [h]
  rfl

/-- What is written to cartridge memory, or held for it, is the cartridge's; a back-off draws a free value. -/
theorem openMark_eq (s : State) : ∃ c f, openMark s = { s with cart := c, free := f } := by
  unfold openMark
  split
  · exact ⟨_, _, rfl⟩
  · split <;> exact ⟨_, _, rfl⟩

theorem chip_openMark (s : State) : chip (openMark s) = chip s := by
  obtain ⟨c, f, h⟩ := openMark_eq s
  rw [h]
  rfl

/-- A flush ends every block under fill and marks the media side (R64). -/
theorem beginFlush_eq (s : State) (eom : Bool) : ∃ d p f m, beginFlush s eom = { s with sad := d, pool := p, free := f, med := m } := by
  unfold beginFlush
  split
  · exact ⟨_, _, _, _, rfl⟩
  · obtain ⟨d, p, f, h⟩ := foldl_keeps (BufOnly s) closeBlk (fun _ n ht => ht.closeBlk n) allSads s (.refl s)
    dsimp only
    rw [h]
    exact ⟨_, _, _, _, rfl⟩

theorem chip_beginFlush (s : State) (eom : Bool) : chip (beginFlush s eom) = chip s := by
  obtain ⟨d, p, f, m, h⟩ := beginFlush_eq s eom
  rw [h]
  rfl

theorem chip_loadSeeds (s : State) : chip (loadSeeds s) = chip s := by simp only [chip, loadSeeds]

theorem chip_loadWpl (s : State) (w : Nat) : chip (loadWpl s w) = chip s := by simp only [chip, loadWpl]

/-- So does entering STREAM. -/
theorem chip_enterStream (s : State) : chip (enterStream s) = chip s := by
  have hw : ∀ w, chip (loadWpl (loadSeeds (openMark s)) w) = chip s := fun w =>
    (chip_loadWpl _ w).trans ((chip_loadSeeds _).trans (chip_openMark s))
  have hg : ∀ w m v i, chip (guardScan { loadWpl (loadSeeds (openMark s)) w with med := m, srv := v, rein := i }) = chip s :=
    fun w m v i => (guardScan_guard _).chip.trans ((chip_tape _ m _ v i).trans (hw w))
  exact chip_ite ((chip_beginFlush _ false).trans (hg _ _ _ _)) (hg _ _ _ _)

/-! ### Putting a mode in force -/

/-- The power block with a mode in force. -/
def inMode (s : State) (m : Mode) : Power := { s.pw with mode := m, target := m, dom := domOf s m }

/-- Putting a mode in force writes the mode, its target and its domains; entering SERVICE zeroes the keys (R31-R33). -/
theorem putMode_chip (s : State) (m : Mode) :
    (putMode s m).clk = s.clk ∧ (putMode s m).pending = s.pending ∧ (putMode s m).pw = inMode s m ∧
      (putMode s m).cfg.committed = s.cfg.committed ∧
      (s.pw.mode ≠ .service → m = .service → (putMode s m).keys.slots = Vector.replicate 16 none) ∧
      (m ≠ .service → (putMode s m).keys = s.keys) := by
  have hu : ∃ u, putMode s m = (if m == .service && s.pw.mode != .service then enterService u else u) ∧
      chip u = chip { s with pw := inMode s m } := by
    refine ⟨_, rfl, ?_⟩
    have hlog : ∀ t : State, chip (modeAttention (logMode t s.pw.mode m)) = chip t := fun t =>
      ((logMode_logOnly t _ _).trans (modeAttention_logOnly _)).chip
    refine (chip_step chip_enterStream _).trans ((chip_step chip_leaveService _).trans ((chip_step chip_leaveStream _).trans
      ((chip_step (f := fun t => { t with srv := { t.srv with stopCmd := false } }) (fun _ => rfl) _).trans ?_)))
    exact chip_step hlog { s with pw := inMode s m }
  obtain ⟨u, hp, hc⟩ := hu
  simp only [chip, Prod.mk.injEq] at hc
  obtain ⟨hclk, hpend, hpw, hkeys, hcom⟩ := hc
  rw [hp]
  by_cases hm : m = .service <;> by_cases hs : s.pw.mode = .service <;>
    simp [hm, hs, enterService, hclk, hpend, hpw, hkeys, hcom]

/-- Ending a running transition's MODE changes a queue of commands only. -/
theorem complete_chip (s : State) (ch : Chan) (t : Nat) (o : Outc) : chip (complete s ch t o) = chip s ∧ (complete s ch t o).srv = s.srv := by
  obtain ⟨q, hq⟩ := complete_withQueue s ch t o
  rw [hq]
  cases ch <;> exact ⟨rfl, rfl⟩

/-- A HALT cause puts HALT in force, and the tape is to stop (R40). -/
theorem haltEntry_enters {s : State} {c : HaltCause} (hp : s.pw.haltPend = some c) (hm : s.pw.mode ≠ .halt) (hr : s.pw.recovery = false) :
    (haltEntry s).clk = s.clk ∧ (haltEntry s).pending = s.pending ∧
      (∃ d f, (haltEntry s).pw = { s.pw with mode := .halt, target := .halt, dom := d, cause := c, haltPend := none, trans := none, pf := f }) ∧
      (haltEntry s).srv.stopCmd = true ∧ (haltEntry s).cfg.committed = s.cfg.committed ∧ (haltEntry s).keys = s.keys := by
  obtain ⟨u, hu, he⟩ : ∃ u, chip u = chip s ∧ haltEntry s = dropLatched (
      let t := logE (putMode { u with pw := { u.pw with haltPend := none, trans := none, cause := c }, srv := { u.srv with stopCmd := true } } .halt)
        .error srcChip 0x0104 [("cause", 1, HaltCause.code c)]
      { t with srv := { t.srv with stopCmd := true } }) := by
    refine ⟨_, ?_, by simp only [haltEntry, hp, hr, beq_iff_eq, hm, Bool.false_eq_true, if_false]; rfl⟩
    split
    · split
      · exact (complete_chip s _ _ _).1
      · rfl
    · rfl
  obtain ⟨hclk, hpend, hpw, hcom, -, hkeys⟩ := putMode_chip
    { u with pw := { u.pw with haltPend := none, trans := none, cause := c }, srv := { u.srv with stopCmd := true } } .halt
  simp only [chip, Prod.mk.injEq] at hu
  obtain ⟨huc, hup, huw, huk, hum⟩ := hu
  rw [he]
  simp only [dropLatched, mapSad_clk, mapSad_pending, mapSad_pw, mapSad_cfg, mapSad_srv, mapSad_keys, logE_clk, logE_pending, logE_pw, logE_cfg,
    logE_keys, hclk, hpend, hpw, hcom, hkeys (by decide)]
  exact ⟨huc, hup, ⟨_, _, by rw [← huw]; rfl⟩, trivial, hum, huk⟩

end Sys2Proof.Machine
end

section
/-! SUPPORT. Start-up and core restarts (R32, R40, R43, R58): what they leave of the power block, the configuration and the keys. -/

namespace Sys2Proof.Machine

open Sys2Proof

/-! ### START_UP_COMPLETE -/

/-- The power block that start-up ends in: PARK, or HALT where it is in force (R32). -/
def startedPw (s : State) : Power :=
  let halted := s.pw.mode == .halt
  let m : Mode := if halted then .halt else .park
  { s.pw with devReady := true, mode := m, target := m, dom := domOf s m, cause := if halted then s.pw.cause else .none
              restartHalt := false, cold := false }

theorem startedPw_mode (s : State) : (startedPw s).mode = if s.pw.mode = .halt then .halt else .park := by
  simp [startedPw]

theorem startedPw_cause (s : State) : (startedPw s).cause = if s.pw.mode = .halt then s.pw.cause else .none := by
  simp [startedPw]

/-- The end of start-up, past a HALT cause that waits: the power block, records, latches and lines to the console. -/
theorem startUpComplete_eq {s u : State} (hu : (if s.pw.restartHalt then haltEntry s else s) = u) :
    ∃ v p d f, startUpComplete s = { u with pw := startedPw u, evt := v, pcie := p, sad := d, fil := f } := by
  unfold startUpComplete
  rw [hu]
  extract_lets w old halted m cold _ ready bells x start logged
  have hready : ready = { u with pw := startedPw u } := rfl
  have hbells : LogOnly ready bells := .foldl lateBell_logOnly _ _
  have hstart : LogOnly ready start := hbells.logE _ _ _ _
  have hlogged : LogOnly ready logged := iteInduction (motive := LogOnly ready) (fun _ => hstart) fun _ =>
    iteInduction (motive := LogOnly ready) (fun _ => hstart.trans (logMode_logOnly _ _ _)) fun _ =>
      (hstart.trans (logMode_logOnly _ _ _)).trans (modeAttention_logOnly _)
  obtain ⟨v, p, d, he⟩ := hlogged
  rw [hready] at he
  clear_value logged
  subst he
  split
  · exact ⟨v, p, d, _, rfl⟩
  · exact ⟨v, p, d, u.fil, rfl⟩

/-- The row of START_UP_COMPLETE runs once, out of the recovery state. -/
theorem exec_startUpComplete {s : State} (hl : live s = true) (hr : s.pw.recovery = false) (hd : s.pw.devReady = false) :
    exec .startUpComplete s = .next { startUpComplete (quiet s) with clk := s.clk, pending := s.pending } :=
  actIf_live hl (by simp [hr, hd]) _

/-- In HALT already, a further cause only leaves the ones that wait. -/
theorem haltEntry_halt {s : State} (hm : s.pw.mode = .halt) : ∃ c, haltEntry s = { s with pw := { s.pw with haltPend := c } } := by
  unfold haltEntry
  split
  · exact ⟨s.pw.haltPend, rfl⟩
  · split
    · exact ⟨s.pw.haltPend, rfl⟩
    · rw [if_pos (by simp [hm])]
      exact ⟨_, rfl⟩

/-- Settles O14: by whether the restart enters HALT, and by whether HALT is in force. -/
theorem startUpEndsInParkOrHalt : Obligations.StartUpEndsInParkOrHalt := by
  intro s hl hr hd
  refine ⟨fun hh => ?plain, fun hh hm => ?halted, fun c hh hm hc => ?enters⟩ <;> refine ⟨_, exec_startUpComplete hl hr hd, ?_⟩
  case plain =>
    obtain ⟨v, p, d, f, h⟩ := startUpComplete_eq (s := quiet s) (u := quiet s) (by rw [if_neg]; simp [quiet, hh])
    rw [h]
    exact ⟨rfl, startedPw_mode _, rfl, startedPw_cause _, rfl, rfl, rfl, rfl, rfl, rfl, rfl, rfl, rfl⟩
  case halted =>
    obtain ⟨c, hc⟩ := haltEntry_halt (s := quiet s) hm
    obtain ⟨v, p, d, f, h⟩ := startUpComplete_eq (s := quiet s) ((if_pos (c := (quiet s).pw.restartHalt = true) hh).trans hc)
    rw [h]
    exact ⟨rfl, (startedPw_mode _).trans (if_pos hm), (startedPw_cause _).trans (if_pos hm), rfl, rfl, rfl, rfl⟩
  case enters =>
    obtain ⟨-, -, ⟨dm, pf, hpw⟩, hsrv, hcom, hkeys⟩ := haltEntry_enters (s := quiet s) hc hm hr
    obtain ⟨v, p, d, f, h⟩ := startUpComplete_eq (s := quiet s) (if_pos (c := (quiet s).pw.restartHalt = true) hh)
    have hmode : (haltEntry (quiet s)).pw.mode = .halt := by rw [hpw]
    rw [h]
    exact ⟨rfl, (startedPw_mode _).trans (if_pos hmode), ((startedPw_cause _).trans (if_pos hmode)).trans (by rw [hpw]),
      (congrArg Power.haltPend hpw :), rfl, hsrv, hcom, hkeys⟩

/-! ### Core restarts -/

/-- What a boot decision leaves as it is (R424): that the part is not ready, how its restart ends, and the key slots. -/
def bootKept (s : State) : Bool × Bool × Bool × Vector (Option (List Byte)) 16 :=
  (s.pw.devReady, s.pw.restartPend, s.pw.restartHalt, s.keys.slots)

/-- One state differs from another in the flash die and the firmware's state at most. -/
def FlashFw (s t : State) : Prop := ∃ f w, t = { s with fl := f, fw := w }

theorem FlashFw.refl (s : State) : FlashFw s s := ⟨_, _, rfl⟩

theorem FlashFw.trans {s t u : State} (h : FlashFw s t) (g : FlashFw t u) : FlashFw s u := by
  obtain ⟨f, w, rfl⟩ := h
  obtain ⟨f', w', rfl⟩ := g
  exact ⟨f', w', rfl⟩

theorem FlashFw.appendLog {s t : State} (h : FlashFw s t) (r : LogRegion) (e : LogEntry) : FlashFw s (appendLog t r e) := by
  obtain ⟨f, hf⟩ := appendLog_eq t r e
  exact h.trans ⟨f, _, hf⟩

theorem FlashFw.startErase {s t : State} (h : FlashFw s t) (k : Nat) : FlashFw s (startErase t k) := by
  obtain ⟨f, hf⟩ := startErase_eq t k
  exact h.trans ⟨f, _, hf⟩

theorem FlashFw.fl {s t : State} (h : FlashFw s t) (f : Flash) : FlashFw s { t with fl := f } := h.trans ⟨_, _, rfl⟩

theorem FlashFw.fw {s t : State} (h : FlashFw s t) (w : Fw) : FlashFw s { t with fw := w } := h.trans ⟨_, _, rfl⟩

theorem FlashFw.foldl {α : Type} {f : State → α → State} (hf : ∀ s a, FlashFw s (f s a)) {s t : State} (h : FlashFw s t) (l : List α) :
    FlashFw s (l.foldl f t) := foldl_keeps (FlashFw s) f (fun u a hu => hu.trans (hf u a)) l t h

/-- The erases that a power-off cut are done again (R402): the flash die alone changes. -/
theorem reErase_flashFw (s : State) : FlashFw s (reErase s).1 := by
  refine .foldl (fun t k => ?_) (.fl (.refl s) _) _
  obtain ⟨f, hf⟩ := journaled_eq t k
  dsimp only
  rw [hf]
  unfold sectorErased
  split
  · exact ⟨_, _, rfl⟩
  · split <;> exact ⟨_, _, rfl⟩

/-- Falling back writes the boot and selection records, and what is told of it (R421). -/
theorem fallBack_flashFw {s t : State} (h : FlashFw s t) (x : Slot) (reason : Nat) (o : BootObs) :
    FlashFw s (fallBack t x reason o).1 := by
  unfold fallBack
  extract_lets y ok v fell _ told chosen
  have htold : FlashFw s told := .fw (h.appendLog _ _) _
  have hchosen : FlashFw s chosen := htold.appendLog _ _
  split
  · split
    · dsimp only
      exact hchosen.appendLog _ _
    · exact hchosen
  · exact htold

/-- So does choosing the slot that starts. -/
theorem chooseSlot_flashFw (s : State) (o : BootObs) : FlashFw s (chooseSlot s o).1 := by
  have hv : ∀ {t : State} (x : Slot), FlashFw s t → FlashFw s (if slotPasses t x o then (t, some x) else fallBack t x 2 o).1 := by
    intro t x ht
    split
    · exact ht
    · exact fallBack_flashFw ht x 2 o
  unfold chooseSlot
  extract_lets x verified
  split
  · split
    · exact fallBack_flashFw (.refl s) _ _ _
    · split
      · exact fallBack_flashFw (.refl s) _ _ _
      · exact hv x (.appendLog (.refl s) _ _)
  · exact hv x (.refl s)

theorem bootFw_flashFw (s : State) (x : Option Slot) : FlashFw s (bootFw s x) := by
  cases x <;> exact ⟨_, _, rfl⟩

theorem trimConfigs_flashFw (s : State) : FlashFw s (trimConfigs s) := by
  have hdrop : ∀ {t : State} (p : CfgRec → Bool), FlashFw s t → FlashFw s ((t.fl.cfgs.filter p).foldl (fun s c => (List.range 16).foldl
      (fun s i => startErase s (0x100 + 16 * c.place + i)) s) { t with fl := { t.fl with cfgs := t.fl.cfgs.filter fun c => !p c } }) :=
    fun p ht => .foldl (fun u c => .foldl (fun v i => .startErase (.refl v) _) (.refl u) _) (.fl ht _) _
  exact hdrop _ (hdrop _ (.refl s))

/-- A loaded configuration leaves nothing uncommitted (R411), and the power block and keys as they were. -/
theorem loadRecord_kept (s : State) (c : Option CfgRec) :
    (loadRecord s c).cfg.uncommitted = [] ∧ bootKept (loadRecord s c) = bootKept s := ⟨rfl, rfl⟩

theorem bootKept_flashFw {s t : State} (h : FlashFw s t) : bootKept t = bootKept s ∧ t.cfg = s.cfg := by
  obtain ⟨f, w, rfl⟩ := h
  exact ⟨rfl, rfl⟩

theorem bootKept_logOnly {s t : State} (h : LogOnly s t) : bootKept t = bootKept s ∧ t.cfg = s.cfg := by
  obtain ⟨v, p, d, rfl⟩ := h
  exact ⟨rfl, rfl⟩

/-- Start-up's configuration, of whichever version (R408-R411). -/
theorem configLoad_kept (s : State) (x : Slot) : (configLoad s x).cfg.uncommitted = [] ∧ bootKept (configLoad s x) = bootKept s := by
  obtain ⟨t, c, ht, hk⟩ : ∃ t c, configLoad s x = loadRecord t c ∧ bootKept t = bootKept s := by
    unfold configLoad
    dsimp only
    have ha : ∀ t e, bootKept (appendLog t .select e) = bootKept t := fun t e => (bootKept_flashFw (.appendLog (.refl t) _ e)).1
    have hl : ∀ t sev src code body, bootKept (logE t sev src code body) = bootKept t := fun t sev src code body =>
      (bootKept_logOnly ((LogOnly.refl t).logE sev src code body)).1
    split
    · split
      · exact ⟨_, _, rfl, rfl⟩
      · split
        · exact ⟨_, _, rfl, (hl _ _ _ _ _).trans (ha _ _)⟩
        · exact ⟨_, _, rfl, ha _ _⟩
    · split
      · exact ⟨_, _, rfl, rfl⟩
      · split
        · exact ⟨_, _, rfl, (hl _ _ _ _ _).trans (ha _ _)⟩
        · exact ⟨_, _, rfl, (ha _ _).trans (by split <;> rfl)⟩
  exact ht ▸ ⟨rfl, hk⟩

@[simp] theorem selectSource_cfg (s : State) (ftick : Bool) : (selectSource s ftick).cfg = s.cfg := by
  unfold selectSource
  dsimp only
  split
  · rfl
  · split <;> split <;> simp [logSlew, logFlywheel]

@[simp] theorem selectSource_keys (s : State) (ftick : Bool) : (selectSource s ftick).keys = s.keys := by
  unfold selectSource
  dsimp only
  split
  · rfl
  · split <;> split <;> simp [logSlew, logFlywheel]

@[simp] theorem syncCfg_cfg (s : State) : (syncCfg s).cfg = s.cfg := by simp [syncCfg]

@[simp] theorem syncCfg_keys (s : State) : (syncCfg s).keys = s.keys := by simp [syncCfg]

/-- The KEK's start writes the key store's KEK, and a record where none is left (R416). -/
theorem kekStart_eq (s : State) : ∃ k v p d, kekStart s = { s with keys := { s.keys with kek := k }, evt := v, pcie := p, sad := d } := by
  unfold kekStart
  extract_lets k _ keyed
  split
  · obtain ⟨v, p, d, h⟩ := logE_eq keyed .error srcChip 0x0806 [] none
    exact ⟨k, v, p, d, h⟩
  · exact ⟨k, _, _, _, rfl⟩

/-- The recovery state is a start without a configuration (R60). -/
theorem enterRecovery_kept (s : State) : bootKept (enterRecovery s) = bootKept s ∧ (enterRecovery s).cfg.uncommitted = s.cfg.uncommitted := by
  unfold enterRecovery
  extract_lets _ _ _ _ told _ _ _ opened
  obtain ⟨v, p, d, h⟩ := logE_eq opened .info srcChip 0x0106 [("fw", 4, imgVersion opened.fl.stage1 2), ("cfg", 4, 0), ("run", 1, 2)] none
  rw [h]
  exact ⟨rfl, rfl⟩

/-- The voltage loop's start writes its state, and a record where the regulator does not answer (R50). -/
theorem avsStart_eq (s : State) (ok : Bool) : ∃ v p d a, avsStart s ok = { s with evt := v, pcie := p, sad := d, pw := { s.pw with avs := a } } := by
  unfold avsStart
  extract_lets was on _ started
  split
  · exact ⟨_, _, _, _, rfl⟩
  · obtain ⟨v, p, d, h⟩ := logE_eq started .warn srcChip 0x010B [] none
    exact ⟨v, p, d, _, h⟩

/-- A boot decision, whatever slot or none it starts, keeps what is told in `bootKept`, and leaves nothing uncommitted where nothing
was. -/
theorem bootDecide_kept (s : State) (o : BootObs) :
    bootKept (bootDecide s o) = bootKept s ∧ (s.cfg.uncommitted = [] → (bootDecide s o).cfg.uncommitted = []) := by
  unfold bootDecide
  split
  next t redone hr =>
  have ht : bootKept t = bootKept s ∧ t.cfg = s.cfg := by
    have h := bootKept_flashFw (reErase_flashFw s)
    rwa [hr] at h
  split
  · exact ⟨ht.1, fun h => (congrArg Cfg.uncommitted ht.2).trans h⟩
  · extract_lets _ _ _ powered _ keyed
    have hk : bootKept keyed = bootKept s ∧ keyed.cfg = s.cfg := by
      obtain ⟨k, v, p, d, h⟩ := kekStart_eq { powered with fw := { powered.fw with fellback := false } }
      change keyed = _ at h
      rw [h]
      exact ht
    split
    next u x hu =>
    have hx : bootKept u = bootKept s ∧ u.cfg = s.cfg := by
      have h := bootKept_flashFw (chooseSlot_flashFw keyed o)
      rw [hu] at h
      exact ⟨h.1.trans hk.1, h.2.trans hk.2⟩
    extract_lets a b
    have hb : bootKept b = bootKept s ∧ b.cfg = s.cfg := by
      have ha := bootKept_flashFw (bootFw_flashFw u x)
      have hl := bootKept_logOnly (s := a) (t := b) (.foldl (fun s k => (LogOnly.refl s).logE _ _ _ _) _ _)
      exact ⟨hl.1.trans (ha.1.trans hx.1), hl.2.trans (ha.2.trans hx.2)⟩
    clear_value b
    split
    · obtain ⟨hrk, hru⟩ := enterRecovery_kept b
      exact ⟨hrk.trans hb.1, fun hn => hru.trans ((congrArg Cfg.uncommitted hb.2).trans hn)⟩
    · next x =>
      obtain ⟨hcu, hck⟩ := configLoad_kept b x
      have htr := bootKept_flashFw (trimConfigs_flashFw (configLoad b x))
      extract_lets c e
      have he : bootKept e = bootKept s ∧ e.cfg.uncommitted = [] := by
        have hc : bootKept c = bootKept s ∧ c.cfg.uncommitted = [] :=
          ⟨htr.1.trans (hck.trans hb.1), (congrArg Cfg.uncommitted htr.2).trans hcu⟩
        have hl := bootKept_logOnly ((LogOnly.refl c).logE .error srcChip 0x0809
          [("reason", 1, c.fw.reason), ("fw", 4, imgVersion (imageOf c x) (slotNo x))])
        exact iteInduction (motive := fun e => bootKept e = bootKept s ∧ e.cfg.uncommitted = [])
          (fun _ => ⟨hl.1.trans hc.1, (congrArg Cfg.uncommitted hl.2).trans hc.2⟩) fun _ => hc
      clear_value e
      obtain ⟨v, p, d, a, h⟩ := avsStart_eq e o.voutOk
      rw [h]
      exact ⟨he.1, fun _ => he.2⟩

/-- A core restart leaves the part not ready, its restart's end told, nothing uncommitted and no keys (R43). -/
theorem coreRestart_kept (s : State) (halt : Bool) (o : BootObs) :
    (coreRestart halt o s).pw.devReady = false ∧ (coreRestart halt o s).pw.restartPend = false ∧
      (coreRestart halt o s).pw.restartHalt = halt ∧ (coreRestart halt o s).cfg.uncommitted = [] ∧
      (coreRestart halt o s).keys.slots = Vector.replicate 16 none := by
  obtain ⟨hk, hu⟩ := bootDecide_kept (restartState s halt) o
  simp only [bootKept, Prod.mk.injEq] at hk
  obtain ⟨hd, hp, hh, hs⟩ := hk
  simp only [coreRestart, syncCfg_pw, syncCfg_cfg, syncCfg_keys]
  exact ⟨hd, hp, hh, hu rfl, hs⟩

/-- Settles O15: both rows run `coreRestart`. -/
theorem coreRestartsRunStartUpAgain : Obligations.CoreRestartsRunStartUpAgain := by
  refine ⟨fun o s hl hp => ⟨_, actIf_live hl hp _, ?_⟩, fun o s hl hr => ⟨_, actIf_live hl hr _, ?_⟩⟩
  · exact coreRestart_kept (quiet s) false o
  · exact coreRestart_kept (quiet s) true o

end Sys2Proof.Machine
end

section
/-! SUPPORT. HALT's causes and power failure (R40, R42, R56, R62-R66). -/

namespace Sys2Proof.Machine

open Sys2Proof

/-! ### HALT's causes -/

/-- A cause that is found asks for HALT, unless one found before it in the tick does (R40). -/
theorem haltRequest_eq (s : State) (c : HaltCause) :
    haltRequest s c = { s with pw := { s.pw with haltPend := some (s.pw.haltPend.getD c) } } := by
  unfold haltRequest
  cases s.pw.haltPend <;> rfl

/-- THERM_WARN takes the temperature, caps the clock at 105 °C and asks for HALT at 115 °C (R56); it may record the warning. -/
theorem thermWarn_eq (tj : Int) (s : State) : ∃ v p, thermWarn tj s = { s with evt := v, pcie := p, pw := { s.pw with
    tj := tj, thermCap := s.pw.thermCap || decide (105 ≤ tj), thermHold := s.pw.thermHold || decide (115 ≤ tj)
    haltPend := if 115 ≤ tj then some (s.pw.haltPend.getD .thermal) else s.pw.haltPend } } := by
  have hcap : ∃ v p, (let u := { s with pw := { s.pw with tj := tj } }
      if 105 ≤ tj then
        let t := { u with pw := { u.pw with thermCap := true } }
        if u.pw.thermCap then t else logE t .warn srcChip 0x010C [("tj", 1, twos 8 tj)]
      else u) = { s with evt := v, pcie := p, pw := { s.pw with tj := tj, thermCap := s.pw.thermCap || decide (105 ≤ tj) } } := by
    by_cases h : 105 ≤ tj
    · simp only [h, if_true, decide_true, Bool.or_true]
      split
      · exact ⟨_, _, rfl⟩
      · exact logE_chip _ _ _ _ _
    · simp only [h, if_false, decide_false, Bool.or_false]
      exact ⟨_, _, rfl⟩
  obtain ⟨v, p, h⟩ := hcap
  refine ⟨v, p, ?_⟩
  unfold thermWarn
  dsimp only at h ⊢
  rw [h]
  by_cases h115 : 115 ≤ tj
  · simp only [h115, if_true, haltRequest_eq, decide_true, Bool.or_true]
  · simp only [h115, if_false, decide_false, Bool.or_false]

/-- Under THERM_WARN the clock is capped at 900 MHz (R56). -/
theorem clkCap_le {s : State} (h : s.pw.thermCap = true) (c : Nat) : clkCap s c ≤ 2 := by
  simp only [clkCap, h, if_true]
  exact Nat.min_le_right _ _

/-- Settles O16. -/
theorem haltCauses : Obligations.HaltCauses := by
  refine ⟨fun s hl => ?xtal, fun s hl => ?firmware, fun s hl => ?dram, fun s hl ht => ?tension, fun tj s hl => ?warn,
    fun s c h => clkCap_le h c, haltRequest_eq, fun tj s hl h => ?cooled, fun tj s hl h => ?warm, fun s hl => ?crystal⟩
  case xtal => exact row_eq hl rfl rfl rfl
  case firmware => exact row_eq hl rfl rfl rfl
  case dram => exact row_eq hl rfl rfl rfl
  case tension => exact rowIf_eq hl (decide_eq_true ht) rfl rfl rfl
  case warn =>
    obtain ⟨v, p, h⟩ := thermWarn_eq tj (quiet s)
    exact ⟨_, row_eq hl h rfl rfl, rfl, rfl, rfl, rfl⟩
  case cooled => exact row_eq hl (if_pos h) rfl rfl
  case warm => exact row_eq hl (if_neg (Int.not_lt.2 h)) rfl rfl
  case crystal => exact row_eq hl rfl rfl rfl

/-! ### Power failure -/

/-- A complete record is PF_RECORD, its vector, and what its flash sector holds (R65, R406). -/
theorem pfRecordDone_pending {s : State} (h : s.pw.pf.recPend = true) : pfRecordDone s =
    { latchPf s 4 with
      pw := { s.pw with pf := { s.pw.pf with recPend := false, pfRecord := true } }
      fl := if s.fl.pfSecond then { s.fl with pf2 := s.fl.pfPlan, pfPlan := [] } else { s.fl with pf1 := s.fl.pfPlan, pfPlan := [] } } := by
  unfold pfRecordDone
  rw [if_pos h]
  extract_lets _ _ t
  have ht : t.fl = s.fl := rfl
  rw [ht]
  split <;> rfl

/-- With no record under way its end changes nothing. -/
theorem pfRecordDone_none {s : State} (h : s.pw.pf.recPend = false) : pfRecordDone s = s := by
  simp only [pfRecordDone, h, Bool.false_eq_true, if_false]

/-- A flush leaves a new epoch for when the power has returned (R66). -/
theorem afterFlush_next (s : State) : ∃ p w l, afterFlush s = { s with med := { s.med with next := (p, w) :: l } } ∧
    p.epoch = s.med.plait.epoch + 1 := by
  unfold afterFlush
  split
  · exact ⟨_, _, _, rfl, rfl⟩
  · next h =>
    obtain ⟨⟨p, w⟩, l, hl⟩ := List.exists_cons_of_ne_nil (fun hn => h (List.isEmpty_iff.2 hn))
    rw [hl]
    exact ⟨_, _, _, rfl, rfl⟩

/-- The end of a flush: FLUSH_DONE, the gates low, a new epoch, and its vector (R64, R66). -/
theorem flushDone_eq (s : State) : ∃ p w l, flushDone s = { latchPf s 4 with
      med := { s.med with flush := false, flushStep := 0, gates := Vector.replicate 4 false, lane := .idle, next := (p, w) :: l }
      pw := { s.pw with pf := { s.pw.pf with flushDone := true } } } ∧ p.epoch = s.med.plait.epoch + 1 := by
  obtain ⟨p, w, l, h, he⟩ := afterFlush_next (latchPf { s with
    med := { s.med with flush := false, flushStep := 0, gates := Vector.replicate 4 false, lane := .idle }
    pw := { s.pw with pf := { s.pw.pf with flushDone := true } } } 4)
  exact ⟨p, w, l, h, he⟩

/-- Settles O17: each row by whether its rule enables it. -/
theorem powerFailSteps : Obligations.PowerFailSteps := by
  refine ⟨fun s hl => ?recognised, fun s hl h => ?record, fun s hl h => ?noRecord, fun s hl hf hs => ?flush, fun s hl h => ?noFlush,
    fun s hl h => ?returns, fun s hl h1 h2 => ?noReturn⟩
  case recognised => exact row_eq hl rfl rfl rfl
  case record => exact ⟨_, row_eq hl (pfRecordDone_pending (s := quiet s) h) rfl rfl, rfl, rfl, rfl, rfl, rfl⟩
  case noRecord => exact row_eq hl (pfRecordDone_none (s := quiet s) h) rfl rfl
  case flush =>
    obtain ⟨p, w, l, h, he⟩ := flushDone_eq (quiet s)
    exact ⟨_, rowIf_eq hl (by simp [hf, hs]) h rfl rfl, rfl, rfl, rfl, fun g => Vector.getElem_replicate g.isLt, rfl,
      ⟨p, w, l, rfl, he⟩, rfl, rfl, rfl⟩
  case noFlush => exact rowIf_off hl (by rcases h with h | h <;> simp [h])
  case returns => exact rowIf_eq hl (by rcases h with h | h <;> simp [h]) rfl rfl rfl
  case noReturn => exact rowIf_off hl (by simp [h1, h2])

end Sys2Proof.Machine
end

section
/-! SUPPORT. The voltage loop (R44-R50): what an update makes of the loop's state, stage by stage. -/

namespace Sys2Proof.Machine

open Sys2Proof

/-- A change of the voltage loop's state, beside records and a frequency step, that leaves configuration, saddles and the mode. -/
def AvsOnly (s t : State) : Prop :=
  ∃ v p a c h b, t = { s with evt := v, pcie := p, pw := { s.pw with avs := a, clkDown := c, haltPend := h }, out := { s.out with pmbus := b } }

theorem AvsOnly.refl (s : State) : AvsOnly s s := ⟨_, _, _, _, _, _, rfl⟩

theorem AvsOnly.kept {s t : State} (h : AvsOnly s t) : t.pw.mode = s.pw.mode ∧ t.cfg = s.cfg ∧ t.sad = s.sad := by
  obtain ⟨v, p, a, c, k, b, rfl⟩ := h
  exact ⟨rfl, rfl, rfl⟩

theorem AvsOnly.trans {s t u : State} (h : AvsOnly s t) (g : AvsOnly t u) : AvsOnly s u := by
  obtain ⟨v, p, a, c, k, b, rfl⟩ := h
  obtain ⟨v', p', a', c', k', b', rfl⟩ := g
  exact ⟨v', p', a', c', k', b', rfl⟩

theorem AvsOnly.avs {s t : State} (h : AvsOnly s t) (a : Avs) : AvsOnly s { t with pw := { t.pw with avs := a } } :=
  h.trans ⟨_, _, _, _, _, _, rfl⟩

theorem AvsOnly.logE {s t : State} (h : AvsOnly s t) (sev : Sev) (code : Nat) (body : List (String × Nat × Nat)) :
    AvsOnly s (logE t sev srcChip code body) := by
  obtain ⟨v, p, hl⟩ := logE_chip t sev code body none
  exact h.trans ⟨v, p, _, _, _, _, hl⟩

/-- A loop's state after its readback (R47): what is written down, and the record of a second mismatch in a row. -/
def avsRead (a : Avs) (failed mv : Nat) : Avs :=
  if a.wrote && failed < 4 then
    let bad := decide (15 < ((mv : Int) - a.vset).natAbs)
    { a with wrote := bad, misRun := if bad then a.misRun + 1 else 0, confirmed := if bad then a.confirmed else a.vset, failRun := 0 }
  else a

/-- The loop's state after the tries of an update (R49): the third update in a row whose tries all fail freezes it. -/
def avsTried (a : Avs) (failed : Nat) : Avs :=
  if 4 ≤ failed then
    if a.failRun + 1 = 3 then { a with failRun := a.failRun + 1, frozen := true, offBit := true, vset := a.confirmed }
    else { a with failRun := a.failRun + 1 }
  else { a with failRun := 0 }

/-- Falling short changes CEIL alone of the loop's state (R48). -/
theorem avsShort_avs (s : State) (m : Int) : AvsOnly s (avsShort s m) ∧
    (avsShort s m).pw.avs = { s.pw.avs with ceil := true } ∧ (avsShort s m).out = s.out := by
  unfold avsShort
  extract_lets _ a t clk _ u
  split
  · rw [haltRequest_eq]
    exact ⟨⟨_, _, _, _, _, _, rfl⟩, rfl, rfl⟩
  · have hu : AvsOnly s u := ⟨_, _, _, _, _, _, rfl⟩
    exact ⟨hu.logE _ _ _, by rw [logE_pw], by rw [logE_out]⟩

/-- A setpoint that is written lies within the floor and the ceiling (R45). -/
theorem avsClamp_bounds {s : State} (h0 : 0 ≤ pint s .avsFloor) (h1 : pint s .avsFloor ≤ pint s .avsCeiling) (v : Int) :
    pint s .avsFloor ≤ (avsClamp s v : Int) ∧ (avsClamp s v : Int) ≤ pint s .avsCeiling := by
  unfold avsClamp
  omega

/-- Writing a setpoint changes the setpoint alone, and only where it differs (R44). -/
theorem avsWrite_avs (s : State) (v : Nat) : AvsOnly s (avsWrite s v) ∧
    (avsWrite s v).pw.avs = { s.pw.avs with vset := v, wrote := s.pw.avs.wrote || decide (v ≠ s.pw.avs.vset) } := by
  unfold avsWrite
  split
  · next h =>
    refine ⟨.refl s, ?_⟩
    subst h
    simp
  · next h => exact ⟨⟨_, _, _, _, _, _, rfl⟩, by simp [h]⟩

/-- The update of the voltage loop in its three stages: readback, lost bus, and the step that the margin asks for. -/
theorem avsUpdate_stages (m : Int) (k mv : Nat) (s : State) : ∃ u, AvsOnly s u ∧ u.pw.avs = avsTried (avsRead s.pw.avs k mv) k ∧
    u.out = s.out ∧ ∃ t, AvsOnly u t ∧ avsUpdate m k mv s = t ∧
      (t.pw.avs.failRun = u.pw.avs.failRun ∧ t.pw.avs.confirmed = u.pw.avs.confirmed ∧ t.pw.avs.frozen = u.pw.avs.frozen ∧
        t.pw.avs.offBit = u.pw.avs.offBit ∧ t.pw.avs.last = u.pw.avs.last) ∧
      ((t.pw.avs.vset = u.pw.avs.vset ∧ t.out = u.out) ∨ (avsLive u = true ∧ k < 4 ∧ ∃ v, t.pw.avs.vset = avsClamp u v)) := by
  unfold avsUpdate
  extract_lets tgt short a bad run _ s4 read run2 _ _ tried0 _ _ tried atCeil _ _ noCeil
  have hread : AvsOnly s read ∧ read.pw.avs = avsRead s.pw.avs k mv ∧ read.out = s.out := by
    have h4 : AvsOnly s s4 := (AvsOnly.refl s).avs _
    unfold avsRead
    subst read
    split
    · next h =>
      split
      · exact ⟨h4.logE _ _ _, by rw [logE_pw], by rw [logE_out]⟩
      · exact ⟨h4, rfl, rfl⟩
    · exact ⟨.refl s, rfl, rfl⟩
  clear_value read
  obtain ⟨hr, hra, hro⟩ := hread
  have htried : AvsOnly s tried ∧ tried.pw.avs = avsTried read.pw.avs k ∧ tried.out = s.out := by
    have h0 : AvsOnly s tried0 := hr.avs _
    unfold avsTried
    subst tried
    split
    · split
      · next h3 =>
        exact ⟨(h0.avs _).logE _ _ _, by rw [logE_pw], by rw [logE_out]; exact hro⟩
      · next h3 =>
        exact ⟨h0, rfl, hro⟩
    · exact ⟨hr.avs _, rfl, hro⟩
  clear_value tried
  obtain ⟨ht, hta, hto⟩ := htried
  refine ⟨tried, ht, hra ▸ hta, hto, ?_⟩
  have hn : AvsOnly tried noCeil := (AvsOnly.refl _).avs _
  split
  · obtain ⟨h, ha, ho⟩ := avsShort_avs tried m
    exact ⟨_, h, rfl, by rw [ha]; exact ⟨rfl, rfl, rfl, rfl, rfl⟩, .inl ⟨by rw [ha], ho⟩⟩
  · split
    · exact ⟨_, hn, rfl, ⟨rfl, rfl, rfl, rfl, rfl⟩, .inl ⟨rfl, rfl⟩⟩
    · next hl =>
      simp only [Bool.or_eq_true, decide_eq_true_eq, Bool.not_eq_true', not_or, Bool.not_eq_false] at hl
      have hlive : avsLive tried = true := by rw [← hl.2]; rfl
      have hk : k < 4 := by omega
      have hw : ∀ v, ∃ t, AvsOnly tried t ∧ avsWrite noCeil (avsClamp noCeil v) = t ∧
          (t.pw.avs.failRun = tried.pw.avs.failRun ∧ t.pw.avs.confirmed = tried.pw.avs.confirmed ∧
            t.pw.avs.frozen = tried.pw.avs.frozen ∧ t.pw.avs.offBit = tried.pw.avs.offBit ∧ t.pw.avs.last = tried.pw.avs.last) ∧
          ((t.pw.avs.vset = tried.pw.avs.vset ∧ t.out = tried.out) ∨
            (avsLive tried = true ∧ k < 4 ∧ ∃ v, t.pw.avs.vset = avsClamp tried v)) := fun v => by
        obtain ⟨hh, ha⟩ := avsWrite_avs noCeil (avsClamp noCeil v)
        exact ⟨_, hn.trans hh, rfl, by rw [ha]; exact ⟨rfl, rfl, rfl, rfl, rfl⟩, .inr ⟨hlive, hk, v, by rw [ha]; rfl⟩⟩
      split
      · exact hw _
      · split
        · exact hw _
        · exact ⟨_, hn, rfl, ⟨rfl, rfl, rfl, rfl, rfl⟩, .inl ⟨rfl, rfl⟩⟩

/-- Until the loop writes a setpoint, it is the one before or the confirmed one, and what the loop froze stays frozen. -/
theorem avsTried_avsRead (a : Avs) (k mv : Nat) : (avsTried (avsRead a k mv) k).last = a.last ∧
    ((avsTried (avsRead a k mv) k).vset = a.vset ∨ (avsTried (avsRead a k mv) k).vset = (avsTried (avsRead a k mv) k).confirmed) ∧
    (a.frozen = true → (avsTried (avsRead a k mv) k).frozen = true) := by
  have hr : (avsRead a k mv).last = a.last ∧ (avsRead a k mv).vset = a.vset ∧ (avsRead a k mv).frozen = a.frozen := by
    unfold avsRead
    split <;> exact ⟨rfl, rfl, rfl⟩
  obtain ⟨hl, hv, hf⟩ := hr
  unfold avsTried
  split
  · split
    · exact ⟨hl, .inr rfl, fun _ => rfl⟩
    · exact ⟨hl, .inl hv, fun h => hf.trans h⟩
  · exact ⟨hl, .inl hv, fun h => hf.trans h⟩

/-- An update whose tries all fail counts, and the third in a row freezes the loop at the confirmed setpoint (R49). -/
theorem avsTried_failed {k : Nat} (a : Avs) (mv : Nat) (hk : 4 ≤ k) :
    (avsTried (avsRead a k mv) k).failRun = a.failRun + 1 ∧
    (a.failRun = 2 → (avsTried (avsRead a k mv) k).frozen = true ∧ (avsTried (avsRead a k mv) k).offBit = true ∧
      (avsTried (avsRead a k mv) k).vset = a.confirmed) := by
  have hr : avsRead a k mv = a := if_neg (by simp [hk])
  rw [hr, avsTried, if_pos hk]
  split
  · exact ⟨rfl, fun _ => ⟨rfl, rfl, rfl⟩⟩
  · next h => exact ⟨rfl, fun h2 => absurd (by rw [h2]) h⟩

/-- A readback within 15 mV of the setpoint confirms it (R47). -/
theorem avsTried_confirms {a : Avs} {k mv : Nat} (hk : k < 4) (hw : a.wrote = true) (hv : ((mv : Int) - a.vset).natAbs ≤ 15) :
    (avsTried (avsRead a k mv) k).confirmed = a.vset := by
  rw [avsTried, if_neg (by omega), avsRead, if_pos (by simp [hw, hk])]
  simp [hv]

/-- Settles O18: the three stages of an update, and the bounds of the setpoint that its last stage writes. -/
theorem voltageLoopUpdates : Obligations.VoltageLoopUpdates := by
  refine ⟨fun m k mv s hl he ho hd h0 h1 => ?_, fun m k mv s hl hf hd => ?_, fun m k mv s hl hd => rowIf_off hl (by
    simp [avsDue]; omega)⟩
  · have hdue : avsDue s = true := by simp [avsDue, he, ho, hd]
    obtain ⟨u, hu, hua, huo, t, ht, rfl, ⟨hrun, hconf, hfr, hoff, hlast⟩, hset⟩ :=
      avsUpdate_stages m k mv { quiet s with pw := { s.pw with avs := { s.pw.avs with last := s.clk.ptc } } }
    obtain ⟨hl', hv', -⟩ := avsTried_avsRead { s.pw.avs with last := s.clk.ptc } k mv
    obtain ⟨hmode, hcfg', hsad⟩ := (hu.trans ht).kept
    have hcfg : u.cfg = s.cfg := hu.kept.2.1
    refine ⟨_, rowIf_next hl hdue _ _, hlast.trans ((congrArg Avs.last hua).trans hl'), hmode, hcfg',
      hsad, ?_, fun hk => hrun.trans ((congrArg Avs.failRun hua).trans (avsTried_failed _ mv hk).1), fun hk h2 => ?_,
      fun hk hw hv => hconf.trans ((congrArg Avs.confirmed hua).trans (avsTried_confirms hk hw hv))⟩
    · obtain ⟨hvset, -⟩ | ⟨-, -, v, hvset⟩ := hset
      · refine hv'.imp (fun h => hvset.trans ((congrArg Avs.vset hua).trans h)) fun h => .inl ?_
        exact hvset.trans ((congrArg Avs.vset hua).trans (h.trans ((congrArg Avs.confirmed hua).symm.trans hconf.symm)))
      · have hf : pint u .avsFloor = pint s .avsFloor ∧ pint u .avsCeiling = pint s .avsCeiling := by
          simp only [pint, cfgVal, hcfg, and_self]
        have hb := avsClamp_bounds (s := u) (by rwa [hf.1]) (by rwa [hf.1, hf.2]) v
        rw [hf.1, hf.2, ← hvset] at hb
        exact .inr (.inr hb)
    · obtain ⟨h1, h2, h3⟩ := (avsTried_failed { s.pw.avs with last := s.clk.ptc } mv hk).2 h2
      refine ⟨hfr.trans ((congrArg Avs.frozen hua).trans h1), hoff.trans ((congrArg Avs.offBit hua).trans h2), ?_⟩
      obtain ⟨hvset, -⟩ | ⟨-, hk', -⟩ := hset
      · exact hvset.trans ((congrArg Avs.vset hua).trans h3)
      · omega
  · have hdue : avsDue s = true := by simp [avsDue, hf, hd]
    obtain ⟨u, hu, hua, huo, t, ht, rfl, ⟨hrun, hconf, hfr, hoff, hlast⟩, hset⟩ :=
      avsUpdate_stages m k mv { quiet s with pw := { s.pw with avs := { s.pw.avs with last := s.clk.ptc } } }
    obtain ⟨hl', hv', hf'⟩ := avsTried_avsRead { s.pw.avs with last := s.clk.ptc } k mv
    obtain ⟨hmode, hcfg', hsad⟩ := (hu.trans ht).kept
    have huf : u.pw.avs.frozen = true := (congrArg Avs.frozen hua).trans (hf' hf)
    obtain ⟨hvset, hout⟩ | ⟨hlive, -⟩ := hset
    · refine ⟨_, rowIf_next hl hdue _ _, hlast.trans ((congrArg Avs.last hua).trans hl'), hfr.trans huf,
        congrArg Out.pmbus (hout.trans huo), hv'.imp (fun h => hvset.trans ((congrArg Avs.vset hua).trans h)) fun h => ?_,
        hcfg', hsad⟩
      exact hvset.trans ((congrArg Avs.vset hua).trans (h.trans ((congrArg Avs.confirmed hua).symm.trans hconf.symm)))
    · simp [avsLive, huf] at hlive

end Sys2Proof.Machine
end

section
/-! SUPPORT. Association lists, parameters and queue admission (R134, R139-R141). -/

namespace Sys2Proof.Machine

open Sys2Proof

/-- A key put into an association list reads its value, and every other key reads as before. -/
theorem look_put {α β : Type} [DecidableEq α] (k q : α) (v : β) (l : List (α × β)) :
    look q (put k v l) = if q = k then some v else look q l := by
  split
  · next h => exact h ▸ look_put_same k v l
  · next h =>
    induction l with
    | nil => simp [put, look, Ne.symm h]
    | cons p t ih =>
      obtain ⟨a, b⟩ := p
      by_cases ha : a = k
      · have hk : k ≠ q := Ne.symm h
        subst ha
        simp [put, look, hk]
      · by_cases hq : a = q
        · subst hq
          simp [put, look, h]
        · simp only [look, put, ha, if_false, List.find?_cons, hq, decide_false] at ih ⊢
          exact ih

/-- Settles O29: each of the three places a parameter can be stored in is read after it is written. -/
theorem parameterReadAfterWrite : Obligations.ParameterReadAfterWrite := by
  intro s p q v
  have hp : q = p → (pspec q.id).persist = (pspec p.id).persist := fun h => by rw [h]
  unfold cfgVal cfgPut
  cases hpp : (pspec p.id).persist <;> cases hqq : (pspec q.id).persist <;>
    simp only [look_put] <;> (split <;> simp_all)

/-- A full queue takes nothing, and a saddle counts what it refused (R140). -/
theorem admitLine_full {s : State} {ch : Chan} (h : tagCount ch ≤ (queueOf s ch).entries.length) (t : Nat) (v : Verb) (tr : Transport) :
    (admitLine s ch t v tr).2 = some (.busyQueue, []) ∧ queueOf (admitLine s ch t v tr).1 ch = queueOf s ch ∧
      ∀ n, ch = .sad n → (admitLine s ch t v tr).1.sad[n].cnt.refQ = sat 16 (s.sad[n].cnt.refQ + 1) := by
  unfold admitLine
  rw [if_pos h]
  cases ch with
  | adm => exact ⟨rfl, rfl, fun n h => nomatch h⟩
  | sad n =>
    refine ⟨rfl, ?_, fun m hm => ?_⟩
    · simp [queueOf]
    · cases hm
      simp

/-- Settles O21: the three answers of admission in the order in which it gives them. -/
theorem queueAdmission : Obligations.QueueAdmission := by
  refine ⟨fun s t v tr hl hf => ?_, fun s ch t v tr h => admitLine_full h t v tr, fun s ch t v tr e hl he ht => ?_⟩
  · have hn : (s.adm.entries.any (·.tag == t)) = false := by simpa using hf
    simp [admitLine, tagCount, queueOf, Nat.not_le.2 hl, hn, modQ]
  · have hn : ((queueOf s ch).entries.any (·.tag == t)) = true := List.any_eq_true.2 ⟨e, he, by simpa using ht⟩
    simp only [admitLine]
    rw [if_neg (Nat.not_le.2 hl), if_pos hn]

/-- Settles O23: each of the six immediate lines is one more that waits, under its intake number. -/
theorem immediateLinesWaitForBoundary : Obligations.ImmediateLinesWaitForBoundary := by
  intro ch s hl hr
  have h (v : Verb) : actIf s (ready s) (fun s => immRow s ch v) = .next (immRow (quiet s) ch v) := actIf_live_kept hl hr _ rfl rfl
  exact ⟨fun _ _ => h _, fun _ => h _, fun _ => h _, fun _ => h _, fun _ => h _, fun _ => h _⟩

end Sys2Proof.Machine
end

section
/-! SUPPORT. Verbs that report (R118, R132, R178, R181, R183, R185, R201). -/

namespace Sys2Proof.Machine

open Sys2Proof

/-- A verb whose effect is a change of the state and the completion of its command ends as that change. -/
theorem endsAs_of_verbRow {c : Instr} {s u : State} {ch : Chan} {t : Nat} {v : Verb} {body : Nat → State → State} {o : Outc}
    (hx : exec c s = verbRow ch (some t) v body s) (h : Runs s ch t v)
    (hb : body t (withQueue (quiet s) ch (begunQueue s ch t)) = complete (withQueue u ch (begunQueue s ch t)) ch t o)
    (hk : u.clk = s.clk) (hp : u.pending = s.pending) : EndsAs c s ch t o u := by
  rw [EndsAs, hx]
  exact verbRow_ends h hb hk hp

/-- A verb whose effect is its command's completion alone changes nothing else. -/
theorem endsOnly_of_verbRow {c : Instr} {s : State} {ch : Chan} {t : Nat} {v : Verb} {body : Nat → State → State} {o : Outc}
    (hx : exec c s = verbRow ch (some t) v body s) (h : Runs s ch t v)
    (hb : body t (withQueue (quiet s) ch (begunQueue s ch t)) = complete (withQueue (quiet s) ch (begunQueue s ch t)) ch t o) :
    EndsOnly c s ch t o :=
  endsAs_of_verbRow hx h hb rfl rfl

/-- A verb whose effect is a change of the state and of its own entry's progress goes on with that change. -/
theorem goesOn_of_verbRow {c : Instr} {s u : State} {ch : Chan} {t : Nat} {v : Verb} {body : Nat → State → State} (f : Entry → Entry)
    (hx : exec c s = verbRow ch (some t) v body s) (h : Runs s ch t v)
    (hb : body t (withQueue (quiet s) ch (begunQueue s ch t)) = modEntry (withQueue u ch (begunQueue s ch t)) ch t f)
    (hf : ∀ e, (f e).tag = e.tag ∧ (f e).begun = e.begun ∧ (f e).ended = e.ended ∧ (f e).phase = e.phase)
    (hk : u.clk = s.clk) (hp : u.pending = s.pending) : GoesOn c s ch t u := by
  rw [GoesOn, hx]
  exact verbRow_goes f h hb hf hk hp

/-- The same of a verb that leaves its entry as it begins it. -/
theorem goesOn_of_verbRow_begun {c : Instr} {s u : State} {ch : Chan} {t : Nat} {v : Verb} {body : Nat → State → State}
    (hx : exec c s = verbRow ch (some t) v body s) (h : Runs s ch t v)
    (hb : body t (withQueue (quiet s) ch (begunQueue s ch t)) = withQueue u ch (begunQueue s ch t))
    (hk : u.clk = s.clk) (hp : u.pending = s.pending) : GoesOn c s ch t u :=
  goesOn_of_verbRow id hx h (by rw [hb, modEntry_id]) (fun _ => ⟨rfl, rfl, rfl, rfl⟩) hk hp

/-- What STATUS tells of a saddle does not rest on how far a command has come. -/
theorem sadStatus_begun (s : State) (ch : Chan) (t : Nat) (n : SadNo) :
    sadStatus (withQueue (quiet s) ch (begunQueue s ch t)) n = sadStatus s n := by
  cases ch with
  | adm => rfl
  | sad m =>
    by_cases h : m = n
    · subst h
      have hf : followOf (withQueue (quiet s) (.sad m) (begunQueue s (.sad m) t)) m = followOf s m := rfl
      simp only [sadStatus, hf]
      simp only [withQueue, modSad_get_same, begunQueue, queueOf, List.length_map, Fin.getElem_fin, quiet]
      rfl
    · have hf : followOf (withQueue (quiet s) (.sad m) (begunQueue s (.sad m) t)) n = followOf s n := rfl
      have hx : (withQueue (quiet s) (.sad m) (begunQueue s (.sad m) t)).sad[n] = s.sad[n] := modSad_get_other _ _ h
      simp only [sadStatus, hf, hx]
      rfl

theorem doStatus_begun (s : State) (ch : Chan) (t : Nat) (sad : Option SadNo) :
    doStatus (withQueue (quiet s) ch (begunQueue s ch t)) ch sad = doStatus s ch sad := by
  cases ch with
  | sad m => simp only [doStatus, sadStatus_begun]
  | adm =>
    cases sad with
    | some n => simp only [doStatus, sadStatus_begun]
    | none => rfl

/-- What EVENTS lists does not rest on the queues. -/
theorem eventsReply_withQueue (s : State) (ch : Chan) (q : Queue) (a : Option Nat) (n : Nat) (l : Sev) :
    eventsReply (withQueue (quiet s) ch q) ch a n l = eventsReply s ch a n l := by
  cases ch <;> rfl

/-- A parameter reads the same whatever the admin channel's queue holds. -/
theorem paramTold_withQueue_adm (s : State) (q : Queue) : paramTold (withQueue (quiet s) .adm q) = paramTold s := by
  funext p
  rfl

/-- CONFIGS with no version kept, and with some (R4). -/
theorem configsVerb_nil {s : State} {ch : Chan} {q : Queue} (h : s.fl.cfgs.foldr insVersion [] = []) (t : Nat) :
    configsVerb ch t (withQueue (quiet s) ch q) = okWith (withQueue (quiet s) ch q) ch t [] := by
  have hc : (withQueue (quiet s) ch q).fl.cfgs.foldr insVersion [] = [] := by cases ch <;> exact h
  simp only [configsVerb, hc]

theorem configsVerb_cons {s : State} {ch : Chan} {q : Queue} {c : CfgRec} {l : List CfgRec}
    (h : s.fl.cfgs.foldr insVersion [] = c :: l) (t : Nat) :
    configsVerb ch t (withQueue (quiet s) ch q) = okWith (withQueue (quiet s) ch q) ch t
      (configFields (withQueue (quiet s) ch q) c) (l.map (configFields (withQueue (quiet s) ch q))) := by
  have hc : (withQueue (quiet s) ch q).fl.cfgs.foldr insVersion [] = c :: l := by cases ch <;> exact h
  simp only [configsVerb, hc]

/-- Settles O25: each verb's body is the completion of its entry, and what it answers does not rest on that entry. -/
theorem reportsChangeNothing : Obligations.ReportsChangeNothing := by
  intro s ch t
  refine ⟨fun h => ?dev, fun h => ?fw, fun h => ?link, fun h => ?dram, fun h => ?ports, fun sad h => ?status, fun l h => ?get,
    fun hc h => ?keys, fun hc h => ?chans, fun a n l h => ?events, fun h => ?configs, fun a n h => ?plait, fun h => ?hello⟩
  case dev =>
    exact endsOnly_of_verbRow (body := fun t s => okWith s ch t
      [fld "code" "TF64-BG4040", fld "rev" "B1", fld "serial" (hexStr 12 pcieSerial)]) rfl h rfl
  case fw =>
    refine endsOnly_of_verbRow (body := fun t s => okWith s ch t
      [fld "run" (runName s.fw.run), fnum "trial" (b2n s.fw.trial), fld "fwa" (fwStr (fwVer s .a)), fld "fwb" (fwStr (fwVer s .b)),
       fld "stage1" (fwStr (imgVersion s.fl.stage1 2))]) rfl h ?_
    cases ch <;> rfl
  case link =>
    refine endsOnly_of_verbRow (body := fun t s => okWith s ch t
      (if s.pcie.up then [fld "gts" (gtsName s.pcie.speed), fnum "width" s.pcie.width, fld "vfs" "8"] else [fld "link" "down"])) rfl h ?_
    cases ch <;> rfl
  case dram =>
    refine endsOnly_of_verbRow (body := fun t s => okWith s ch t
      [fnum "gib" (if s.pw.gib16 then 16 else 8), fnum "caddies" s.pool.total, fnum "shared" (sharedFree s).toNat]) rfl h ?_
    cases ch <;> rfl
  case ports =>
    refine endsOnly_of_verbRow (body := fun t s => okWith s ch t
      (((List.finRange 4).map fun (p : PortNo) => fld ("sp" ++ toString p.val) (sadName (sadOfPort s p))) ++
        [fld "con" (sadName (sadOfConsole s))])) rfl h ?_
    cases ch <;> rfl
  case status =>
    exact endsOnly_of_verbRow (body := fun t s => complete s ch t (doStatus s ch sad)) rfl h (congrArg _ (doStatus_begun s ch t sad))
  case get =>
    refine ⟨_, endsOnly_of_verbRow (body := fun t s => complete s ch t (doGet s ch l paramTold)) rfl h rfl, fun hc => ?_, fun hg => ?_⟩
    · subst hc
      simp only [doGet, paramTold_withQueue_adm]
    · simp only [doGet, hg]
  case keys =>
    subst hc
    exact endsOnly_of_verbRow (body := keyList) rfl h rfl
  case chans =>
    subst hc
    exact endsOnly_of_verbRow (body := fun t s => okWith s .adm t (chanFields s)) rfl h rfl
  case events =>
    refine endsOnly_of_verbRow (body := eventsVerb ch a n l) rfl h ?_
    rw [eventsVerb, eventsReply_withQueue]
    rfl
  case configs =>
    cases hc : s.fl.cfgs.foldr insVersion [] with
    | nil => exact ⟨{ status := .ok }, rfl, endsOnly_of_verbRow (body := configsVerb ch) rfl h (configsVerb_nil hc t)⟩
    | cons c l => exact ⟨_, rfl, endsOnly_of_verbRow (body := configsVerb ch) rfl h (configsVerb_cons hc t)⟩
  case plait => exact ⟨_, rfl, endsOnly_of_verbRow (body := plaitShow ch a n) rfl h rfl⟩
  case hello => exact ⟨_, rfl, endsOnly_of_verbRow (body := helloVerb ch none) rfl h rfl⟩

end Sys2Proof.Machine
end

section
/-! SUPPORT. Intake (R74, R121) and the start of a command (R39, R41, R143, R152, R159). -/

namespace Sys2Proof.Machine

open Sys2Proof

/-! ### Intake -/

/-- What the intake's turn rests on, with the media side, which no line that is taken in changes. -/
def atIntake (s : State) : Nat × Nat × List Nat × List (Transport × List RawLine) × Media × Cart × Pool :=
  (s.fil.taken, s.fil.rr, s.fil.round, s.fil.waiting, s.med, s.cart, s.pool)

theorem modEntry_atIntake (s : State) (ch : Chan) (t : Nat) (f : Entry → Entry) : atIntake (modEntry s ch t f) = atIntake s := by
  cases ch <;> rfl

theorem rejectLine_atIntake (s : State) (tr : Transport) (ch : Chan) (tag slot : Option Nat) (e : Status × List Fld) :
    atIntake (rejectLine s tr ch tag slot e) = atIntake s := by
  have h : atIntake (countReject s e.1) = atIntake s := by
    unfold countReject
    split <;> rfl
  exact h

theorem admitLine_atIntake (s : State) (ch : Chan) (t : Nat) (v : Verb) (tr : Transport) :
    atIntake (admitLine s ch t v tr).1 = atIntake s := by
  unfold admitLine
  extract_lets q enter
  split
  · split <;> rfl
  split
  · rfl
  split
  · rfl
  split
  · rfl
  split
  · split <;> rfl
  · rfl

theorem acceptLine_atIntake (s : State) (tr : Transport) (ch : Chan) (slot : Option Nat) (p : Parsed) (v : Verb) (typed free : Bool) :
    atIntake (acceptLine s tr ch slot p v typed free) = atIntake s := by
  unfold acceptLine
  dsimp only
  split
  · next t h =>
    have ha := admitLine_atIntake { s with fil := { s.fil with seq := s.fil.seq + 1 } } ch t v tr
    split
    · next u hu =>
      rw [hu] at ha
      exact (modEntry_atIntake _ _ _ _).trans ha
    · next u e hu =>
      rw [hu] at ha
      exact (rejectLine_atIntake _ _ _ _ _ _).trans ha
  · rfl

theorem lineVerb_atIntake (s : State) (tr : Transport) (ch : Option Chan) (typed : Bool) (slot : Option Nat) (p : Parsed) :
    atIntake (lineVerb s tr ch typed slot p) = atIntake s := by
  have hr (e : Status × List Fld) : atIntake (rejectLine s tr (ch.getD .adm) p.tag slot e) = atIntake s := rejectLine_atIntake _ _ _ _ _ _
  unfold lineVerb
  extract_lets c bad bind
  split
  · exact hr _
  split
  · exact hr _
  split
  · exact hr _
  split
  · exact hr _
  split
  · exact hr _
  split
  · exact hr _
  split
  · exact hr _
  · exact acceptLine_atIntake _ _ _ _ _ _ _ _

/-- A line that is taken in answers or joins a queue; it leaves the turn, the other lines and the media side. -/
theorem takeLine_atIntake (s : State) (tr : Transport) (r : RawLine) : atIntake (takeLine s tr r) = atIntake s := by
  unfold takeLine
  extract_lets ch c gen
  split
  · next o _ =>
    have h : atIntake (countReject s o.status) = atIntake s := by
      unfold countReject
      split <;> rfl
    exact h
  · split
    · rfl
    split
    · rfl
    split
    · exact rejectLine_atIntake _ _ _ _ _ _
    split
    · exact rejectLine_atIntake _ _ _ _ _ _
    · exact lineVerb_atIntake _ _ _ _ _ _

/-- The intake's step, where a transport has its turn (R121). -/
theorem intakeNext_takes {s : State} {tr : Transport} {anew : Bool} {r : RawLine} {l : List RawLine} (hb : s.fil.taken < budget s 32)
    (hn : nextTransport s = some (tr, anew)) (hw : look tr s.fil.waiting = some (r :: l)) :
    atIntake (intakeNext s) = (s.fil.taken + 1, Transport.index tr, (if anew then [] else s.fil.round) ++ [Transport.index tr],
      put tr l s.fil.waiting, s.med, s.cart, s.pool) := by
  rw [intakeNext, if_neg (Nat.not_le.2 hb), hn]
  simp only [hw, Option.getD_some]
  rw [takeLine_atIntake]
  split
  · split <;> rfl
  · rfl

theorem lineArrives_kept (s : State) (tr : Transport) (b : List Byte) : live (lineArrives s tr b) = live s ∧
    (lineArrives s tr b).clk = s.clk ∧ (lineArrives s tr b).pending = s.pending ∧
    quiet (lineArrives s tr b) = lineArrives (quiet s) tr b := by
  cases tr <;> exact ⟨rfl, rfl, rfl, rfl⟩

/-- Settles O20: a line that arrives waits behind the others, and the intake takes one from the transport whose turn it is. -/
theorem linesAreTakenInTurn : Obligations.LinesAreTakenInTurn := by
  refine ⟨fun tr b s hl hr => ⟨?_, ?_⟩, fun n b s hl hb => ?_, fun tr tr' anew r l s hl hb hn hw => ?_, fun tr s hl h => ?_⟩
  · obtain ⟨h1, h2, h3, h4⟩ := lineArrives_kept s tr b
    have he : lineIntake tr (some b) (quiet s) = lineIntake tr none (quiet (lineArrives s tr b)) := by
      rw [h4]
      exact congrArg intakeNext (if_pos (show isRead (quiet s) tr = true from hr))
    change act s (lineIntake tr (some b)) = act (lineArrives s tr b) (lineIntake tr none)
    rw [act_live hl, act_live (h1.trans hl), h2, h3]
    exact congrArg (fun x : State => Host.Outcome.next { x with clk := s.clk, pending := s.pending }) he
  · unfold lineArrives
    dsimp only
    split
    · exact ⟨_, look_put_same _ _ _, rfl, rfl⟩
    · exact ⟨_, look_put_same _ _ _, rfl, rfl⟩
  · have hr : isRead (quiet s) (.vf n) = false := by
      change (bindOf s n == .vf) = false
      simpa using hb
    change act s (lineIntake (.vf n) (some b)) = act s (lineIntake (.vf n) none)
    rw [act, act]
    simp only [lineIntake]
    rw [if_neg (show ¬ isRead { s with out := {} } (.vf n) = true from ne_true_of_eq_false hr)]
  · have ht := intakeNext_takes (s := quiet s) hb hn hw
    simp only [atIntake, Prod.mk.injEq] at ht
    obtain ⟨h1, h2, h3, h4, h5, h6, h7⟩ := ht
    exact ⟨_, row_next hl _, h1, h2, h3, (congrArg (look tr) h4).trans (look_put_same _ _ _), h5, h6, h7⟩
  · refine row_eq hl (u := quiet s) ?_ rfl rfl
    change intakeNext (quiet s) = quiet s
    unfold intakeNext
    obtain h | h := h
    · exact if_pos h
    · split
      · rfl
      · rw [show nextTransport (quiet s) = none from h]

/-! ### The start of a command -/

/-- The list that `sg=` names, and none where a line names no list; what `sgt=` names is not on the line. -/
def listOf : XferList → Option (List (Nat × Nat))
  | .sg l => some l
  | .sgt .. => none
  | _ => some []

/-- The lists that a command brings on its line: those of its `sg=`, and none where it names no scatter table. -/
def OnLine (v : Verb) (l : List (Nat × Nat)) : Prop :=
  match v with
  | .write a => listOf a.src = some l
  | .read a => listOf a.dst = some l
  | _ => l = []

/-- A command begins with its lists; a WRITE or MARK of a followed saddle takes its entry of the range lock first, or waits (R152). -/
def startsOn (s : State) (ch : Chan) (e : Entry) (l : List (Nat × Nat)) : State :=
  match ch, runKind e.verb with
    | .sad n, 1 =>
      if followed s n then
        if 64 ≤ s.med.locks.length then setWhy s ch e.tag .lock
        else beginEntry (addLock s n e) ch e.tag fun e => { e with segs := l }
      else beginEntry s ch e.tag fun e => { e with segs := l }
    | _, _ => beginEntry s ch e.tag fun e => { e with segs := l }

/-- What writes no girths takes no lock. -/
theorem startsOn_begins {s : State} {ch : Chan} {e : Entry} (h : runKind e.verb ≠ 1) (l : List (Nat × Nat)) :
    startsOn s ch e l = beginEntry s ch e.tag fun e => { e with segs := l } := by
  unfold startsOn
  split
  · next h1 => exact absurd h1 h
  · rfl

theorem startsOn_sad {s : State} {n : SadNo} {e : Entry} (h : runKind e.verb = 1) (l : List (Nat × Nat)) :
    startsOn s (.sad n) e l =
      if followed s n then
        if 64 ≤ s.med.locks.length then setWhy s (.sad n) e.tag .lock
        else beginEntry (addLock s n e) (.sad n) e.tag fun e => { e with segs := l }
      else beginEntry s (.sad n) e.tag fun e => { e with segs := l } := by
  unfold startsOn
  rw [h]
  rfl

section
variable {s : State} {ch : Chan} {e : Entry} (hn : nextStart (queueOf s ch).entries = some e)
  (hr : ∀ n, ch = .sad n → s.sad[n].reset = none) (ht : s.pw.trans = none) (table : Option (List (Nat × Nat)))
include hn hr

/-- In HALT a command that HALT does not permit waits (R41). -/
theorem startCmd_halt (hm : s.pw.mode = .halt) (hp : modePermits .halt ch e.verb = false) : startCmd ch table s = setWhy s ch e.tag .halt := by
  unfold startCmd
  rw [hn]
  cases ch with
  | adm => simp [hm, hp]
  | sad n => simp [show s.sad[n.val].reset = none from hr n rfl, hm, hp]

include ht

/-- A command whose turn refuses it ends without effect (R39, R159). -/
theorem startCmd_refused (hm : s.pw.mode ≠ .halt) {o : Outc} (ho : turnRefusal s ch e.verb = some o) :
    startCmd ch table s = endWithout s ch e.tag o := by
  unfold startCmd
  rw [hn]
  cases ch with
  | adm => simp [hm, ht, ho]
  | sad n => simp [show s.sad[n.val].reset = none from hr n rfl, hm, ht, ho]

/-- A command that nothing refuses, and whose lists are on its line, begins with them; one of a followed saddle takes its entry of the
range lock first (R152). -/
theorem startCmd_begins (hm : s.pw.mode ≠ .halt) (ho : turnRefusal s ch e.verb = none) {l : List (Nat × Nat)} (hl : OnLine e.verb l) :
    startCmd ch table s = startsOn s ch e l := by
  unfold startCmd
  rw [hn]
  extract_lets resetting
  have hreset : resetting = false := by
    cases ch with
    | adm => rfl
    | sad n => exact congrArg Option.isSome (hr n rfl)
  dsimp only
  rw [hreset, if_neg Bool.false_ne_true, if_neg (by simp [hm]), ht, if_neg (by simp), ho]
  dsimp only
  unfold OnLine at hl
  split at hl
  · next a hv =>
    simp only [hv, startsOn]
    cases hs : a.src with
    | sgt x y => simp [hs, listOf] at hl
    | _ =>
      simp only [hs, listOf, Option.some.injEq] at hl
      subst hl
      rfl
  · next a hv =>
    simp only [hv, startsOn]
    cases hs : a.dst with
    | sgt x y => simp [hs, listOf] at hl
    | _ =>
      simp only [hs, listOf, Option.some.injEq] at hl
      subst hl
      rfl
  · subst hl
    simp only
    rfl

end

/-- What the turn refuses does not rest on the outputs of the step before. -/
theorem turnRefusal_quiet (s : State) (ch : Chan) (v : Verb) : turnRefusal (quiet s) ch v = turnRefusal s ch v := by
  cases ch <;> rfl

theorem modEntry_kept (s : State) (ch : Chan) (t : Nat) (f : Entry → Entry) :
    (modEntry s ch t f).clk = s.clk ∧ (modEntry s ch t f).pending = s.pending := by
  cases ch <;> exact ⟨rfl, rfl⟩

theorem onLine_of_runKind_zero {v : Verb} (h : runKind v = 0) : OnLine v [] := by
  unfold OnLine
  split
  · cases h
  · cases h
  · rfl

/-- A MARK, and a WRITE of words or of a list on its line, write girths and name no scatter table. -/
theorem onLine_of_writes {v : Verb} {l : List (Nat × Nat)}
    (h : (∃ note, v = .mark note ∧ l = []) ∨ (∃ a w, v = .write a ∧ a.src = .words w ∧ l = []) ∨ (∃ a, v = .write a ∧ a.src = .sg l)) :
    runKind v = 1 ∧ OnLine v l := by
  obtain ⟨note, rfl, rfl⟩ | ⟨a, w, rfl, hs, rfl⟩ | ⟨a, rfl, hs⟩ := h
  · exact ⟨rfl, rfl⟩
  · exact ⟨rfl, congrArg listOf hs⟩
  · exact ⟨rfl, congrArg listOf hs⟩

/-- The step of a channel whose next command starts. -/
theorem exec_commandStart {s u : State} {ch : Chan} {table : Option (List (Nat × Nat))} (hl : live s = true)
    (hu : startCmd ch table (quiet s) = u) (hc : u.clk = s.clk) (hp : u.pending = s.pending) :
    exec (.commandStart ch table) s = .next u := by
  subst hu
  exact act_live_kept hl _ hc hp

/-- Settles O22: the next command waits in HALT, is refused by its turn, or begins with the lists of its line. -/
theorem commandStarts : Obligations.CommandStarts := by
  intro ch table s e hl hn hr ht
  have hn' : nextStart (queueOf (quiet s) ch).entries = some e := by rw [← hn]; cases ch <;> rfl
  have hb (hm : s.pw.mode ≠ .halt) (ho : turnRefusal s ch e.verb = none) {l : List (Nat × Nat)} (hl' : OnLine e.verb l) {u : State}
      (hu : startsOn (quiet s) ch e l = u) (hc : u.clk = s.clk) (hp : u.pending = s.pending) :
      exec (.commandStart ch table) s = .next u :=
    exec_commandStart hl ((startCmd_begins hn' hr ht table hm ((turnRefusal_quiet s ch _).trans ho) hl').trans hu) hc hp
  refine ⟨fun hm hp => ?_, fun hm o ho => ?_, fun hm ho hk => ?_, fun hm ho a ha hs => ?_, fun hm ho n hc l hv => ⟨?_, ?_, ?_⟩⟩
  · exact exec_commandStart hl (startCmd_halt hn' hr table hm hp) (modEntry_kept _ _ _ _).1 (modEntry_kept _ _ _ _).2
  · exact exec_commandStart hl (startCmd_refused hn' hr ht table hm ((turnRefusal_quiet s ch _).trans ho))
      (modEntry_kept _ _ _ _).1 (modEntry_kept _ _ _ _).2
  · exact hb hm ho (onLine_of_runKind_zero hk) (startsOn_begins (by omega) _) (modEntry_kept _ _ _ _).1 (modEntry_kept _ _ _ _).2
  · have hk : runKind e.verb ≠ 1 := by rw [ha]; exact nofun
    have hl' : OnLine e.verb (match a.dst with
        | .sg l => l
        | _ => []) := by
      rw [ha]
      simp only [OnLine]
      cases hd : a.dst with
      | sgt x y => exact absurd hd (hs x y)
      | _ => rfl
    exact hb hm ho hl' (startsOn_begins hk _) (modEntry_kept _ _ _ _).1 (modEntry_kept _ _ _ _).2
  all_goals
    subst hc
    obtain ⟨hk, hl'⟩ := onLine_of_writes hv
    intro hf
  · exact hb hm ho hl' ((startsOn_sad hk l).trans (if_neg (ne_true_of_eq_false hf))) (modEntry_kept _ _ _ _).1 (modEntry_kept _ _ _ _).2
  · intro h64
    exact ⟨_, _, rfl, hb hm ho hl' ((startsOn_sad hk l).trans ((if_pos hf).trans (if_neg (Nat.not_le.2 h64))))
      (modEntry_kept _ _ _ _).1 (modEntry_kept _ _ _ _).2⟩
  · intro h64
    exact hb hm ho hl' ((startsOn_sad hk l).trans ((if_pos hf).trans (if_pos h64))) (modEntry_kept _ _ _ _).1 (modEntry_kept _ _ _ _).2

end Sys2Proof.Machine
end

section
/-! SUPPORT. Admission, SADDLE, SEAL and PLAIT (R77, R83-R87, R191, R192, R195-R198). -/

namespace Sys2Proof.Machine

open Sys2Proof

/-! ### Admission beside the admin channel's queue -/

theorem autoPlait_adm (s : State) (q : Queue) : autoPlait { s with adm := q } = autoPlait s := rfl

theorem manualPlait_adm (s : State) (q : Queue) (l : List SlotEl) : manualPlait { s with adm := q } l = manualPlait s l := rfl

theorem admitPlait_adm (s : State) (q : Queue) : admitPlait { s with adm := q } = admitPlait s := rfl

/-- What taking up an admitted plait leaves: each saddle's admitted rate, and the plait pending where it differs from the last (R85,
R87). -/
def takenUp (s : State) (next : List (Plait × W64)) : State :=
  { s with sad := (mapSad s fun n x => { x with admitted := askedRate s n }).sad, med := { s.med with next := next } }

theorem takenUp_saddle (s : State) (next : List (Plait × W64)) (n : SadNo) :
    (takenUp s next).sad[n] = { s.sad[n] with admitted := askedRate s n } := by
  simp [takenUp, mapSad]

/-- Whether an admitted plait is the one that admission started from. -/
def samePlait (s : State) (p : Plait) : Bool :=
  (lastPlait s).slots = p.slots && (lastPlait s).manual = p.manual && (lastPlait s).vIdx = p.vIdx

theorem samePlait_iff (s : State) (p : Plait) : samePlait s p = true ↔
    (lastPlait s).slots = p.slots ∧ (lastPlait s).manual = p.manual ∧ (lastPlait s).vIdx = p.vIdx := by
  simp [samePlait, and_assoc]

/-- Taking up an admitted plait: one that differs waits for its epoch, under the next number (R87). -/
theorem takePlait_eq (s : State) (p : Plait) (w : W64) : takePlait s p w =
    if samePlait s p then (takenUp s s.med.next, none)
    else (takenUp s (s.med.next ++ [({ p with epoch := nextEpoch s }, w)]), some (nextEpoch s)) := rfl

/-- A plait's mode stored and the staged slots gone. -/
def modeStored (s : State) (manual : Bool) : State :=
  { cfgPut s { id := .plaitMode } (.n (if manual then 1 else 0)) with med := { s.med with staged := [] } }

/-- What an adopted plait leaves: its mode stored, the staged slots gone, and the plait taken up. -/
def adopted (s : State) (manual : Bool) (next : List (Plait × W64)) : State := takenUp (modeStored s manual) next

theorem adoptPlait_eq (s : State) (manual : Bool) (p : Plait) : adoptPlait s manual p =
    if samePlait s p then (adopted s manual s.med.next, (lastPlait s).epoch)
    else (adopted s manual (s.med.next ++ [({ p with epoch := nextEpoch s }, s.clk.ptc)]), nextEpoch s) := by
  have ha : adoptPlait s manual p = ((takePlait (modeStored s manual) p s.clk.ptc).1,
    (takePlait (modeStored s manual) p s.clk.ptc).2.getD (lastPlait (takePlait (modeStored s manual) p s.clk.ptc).1).epoch) := rfl
  have hs : samePlait (modeStored s manual) p = samePlait s p := rfl
  rw [ha, takePlait_eq, hs]
  split <;> rfl

theorem cfgVal_cfgPut (s : State) (p q : Param) (v : PVal) : cfgVal (cfgPut s p v) q = if q = p then v else cfgVal s q :=
  parameterReadAfterWrite s p q v

/-- A saddle asks for the same rate whatever the plait's mode. -/
theorem askedRate_plaitMode (s : State) (v : PVal) (n : SadNo) : askedRate (cfgPut s { id := .plaitMode } v) n = askedRate s n := by
  have h (i : PId) (j : Nat) (hi : i ≠ .plaitMode) : pnat (cfgPut s { id := .plaitMode } v) i j = pnat s i j := by
    simp [pnat, pint, cfgVal_cfgPut, hi]
  unfold askedRate classOf
  rw [h _ _ (by decide), h _ _ (by decide)]
  rfl

theorem adopted_adm (s : State) (manual : Bool) (next : List (Plait × W64)) (q : Queue) :
    adopted { s with adm := q } manual next = { adopted s manual next with adm := q } := rfl

theorem adopted_cfgVal (s : State) (manual : Bool) (next : List (Plait × W64)) (q : Param) :
    cfgVal (adopted s manual next) q = if q = { id := .plaitMode } then .n (if manual then 1 else 0) else cfgVal s q :=
  cfgVal_cfgPut s { id := .plaitMode } q _

theorem adopted_saddle (s : State) (manual : Bool) (next : List (Plait × W64)) (n : SadNo) :
    (adopted s manual next).sad[n] = { s.sad[n] with admitted := askedRate s n } := by
  rw [adopted, takenUp_saddle]
  exact congrArg (fun r => { s.sad[n] with admitted := r }) (askedRate_plaitMode s _ n)

/-- Slots put at consecutive positions read back, and every other position reads as before. -/
theorem look_foldl_put (els : List SlotEl) (k : Nat) : ∀ (pos : Nat) (l : List (Nat × SlotEl)),
    (∀ i el, els[i]? = some el → look (pos + k + i) ((els.zipIdx k).foldl (fun l (e, i) => put (pos + i) e l) l) = some el) ∧
    ∀ j, (j < pos + k ∨ pos + k + els.length ≤ j) → look j ((els.zipIdx k).foldl (fun l (e, i) => put (pos + i) e l) l) = look j l := by
  induction els generalizing k with
  | nil => exact fun pos l => ⟨fun i el h => by simp at h, fun j _ => rfl⟩
  | cons e t ih =>
    intro pos l
    obtain ⟨h1, h2⟩ := ih (k + 1) pos (put (pos + k) e l)
    refine ⟨fun i el hi => ?_, fun j hj => ?_⟩
    · cases i with
      | zero =>
        rw [List.zipIdx_cons, List.foldl_cons, h2 _ (.inl (by omega)), Nat.add_zero, look_put, if_pos rfl]
        exact hi
      | succ i =>
        rw [List.zipIdx_cons, List.foldl_cons, show pos + k + (i + 1) = pos + (k + 1) + i by omega]
        exact h1 i el hi
    · rw [List.length_cons] at hj
      rw [List.zipIdx_cons, List.foldl_cons, h2 j (by omega), look_put, if_neg (by omega)]

/-- Settles O31: PUT is a fold of writes at its positions, APPLY and AUTO adopt the plait that admission gives. -/
theorem plaitVerbs : Obligations.PlaitVerbs := by
  intro s t taken
  have htaken (m : Bool) (p : Plait) : ∃ ep u, adoptPlait (quiet s) m p = (u, ep) ∧
      u.clk = s.clk ∧ u.pending = s.pending ∧ taken m p ep u := by
    rw [adoptPlait_eq]
    have hs := samePlait_iff s p
    have hv (q : Param) (hq : q ≠ { id := .plaitMode }) (next : List (Plait × W64)) : cfgVal (adopted (quiet s) m next) q = cfgVal s q :=
      (adopted_cfgVal (quiet s) m next q).trans (if_neg hq)
    have hm (next : List (Plait × W64)) : cfgVal (adopted (quiet s) m next) { id := .plaitMode } = .n (if m then 1 else 0) :=
      (adopted_cfgVal (quiet s) m next _).trans (if_pos rfl)
    by_cases h : samePlait s p = true
    · rw [if_pos (show samePlait (quiet s) p = true from h)]
      exact ⟨_, _, rfl, rfl, rfl, rfl, hm _, fun q hq => hv q hq _, adopted_saddle (quiet s) m _, fun _ => ⟨rfl, rfl⟩, fun hn => absurd (hs.1 h) hn⟩
    · rw [if_neg (show ¬ samePlait (quiet s) p = true from h)]
      exact ⟨_, _, rfl, rfl, rfl, rfl, hm _, fun q hq => hv q hq _, adopted_saddle (quiet s) m _, fun hn => absurd (hs.2 hn) h, fun _ => ⟨rfl, rfl⟩⟩
  have hadm (m : Bool) (p : Plait) (q : Queue) {ep : Nat} {u : State} (h : adoptPlait (quiet s) m p = (u, ep)) :
      adoptPlait { quiet s with adm := q } m p = ({ u with adm := q }, ep) := by
    rw [adoptPlait_eq] at h ⊢
    rw [show samePlait { quiet s with adm := q } p = samePlait (quiet s) p from rfl]
    split at h
    · next hs =>
      obtain ⟨rfl, rfl⟩ := Prod.mk.inj h
      exact if_pos hs
    · next hs =>
      obtain ⟨rfl, rfl⟩ := Prod.mk.inj h
      exact if_neg hs
  refine ⟨fun pos els h hp => ?_, fun pos els h hp => ?_, fun l p h hl hp => ?_, fun h hl => ?_, fun l h hl hp => ?_,
    fun p h hp => ?_, fun h hp => ?_⟩
  · obtain ⟨h1, h2⟩ := look_foldl_put els 0 pos s.med.staged
    refine ⟨_, endsAs_of_verbRow (body := plaitPut pos els) rfl h (if_neg (Nat.not_lt.2 hp)) rfl rfl, h1, h2⟩
  · exact endsOnly_of_verbRow (body := plaitPut pos els) rfl h (if_pos hp)
  · obtain ⟨ep, u, hu, hk, hc, ht⟩ := htaken true p
    refine ⟨ep, u, endsAs_of_verbRow (body := plaitApply) rfl h ?_ hk hc, ht⟩
    change plaitApply t { quiet s with adm := begunQueue s .adm t } = _
    unfold plaitApply
    rw [show stagedList { quiet s with adm := begunQueue s .adm t } = some l from hl]
    dsimp only
    rw [show manualPlait { quiet s with adm := begunQueue s .adm t } l = some p from hp]
    dsimp only
    rw [hadm _ _ _ hu]
    rfl
  · refine endsOnly_of_verbRow (body := plaitApply) rfl h ?_
    unfold plaitApply
    rw [show stagedList (withQueue (quiet s) .adm (begunQueue s .adm t)) = none from hl]
  · refine endsOnly_of_verbRow (body := plaitApply) rfl h ?_
    unfold plaitApply
    rw [show stagedList (withQueue (quiet s) .adm (begunQueue s .adm t)) = some l from hl]
    dsimp only
    rw [show manualPlait (withQueue (quiet s) .adm (begunQueue s .adm t)) l = none from hp]
  · obtain ⟨ep, u, hu, hk, hc, ht⟩ := htaken false p
    refine ⟨ep, u, endsAs_of_verbRow (body := plaitAuto) rfl h ?_ hk hc, ht⟩
    change plaitAuto t { quiet s with adm := begunQueue s .adm t } = _
    unfold plaitAuto
    rw [show autoPlait { quiet s with adm := begunQueue s .adm t } = some p from hp]
    dsimp only
    rw [hadm _ _ _ hu]
    rfl
  · refine endsOnly_of_verbRow (body := plaitAuto) rfl h ?_
    unfold plaitAuto
    rw [show autoPlait (withQueue (quiet s) .adm (begunQueue s .adm t)) = none from hp]

/-! ### SADDLE and SEAL -/

/-- A saddle in the state that OPEN or CLOSE moves it to: an opened one has every credit at 0 (R91). -/
def movedTo (st : SadState) (x : Saddle) : Saddle :=
  if st == .opened then { x with st := st, credits := Vector.replicate 8 0, freeCredit := 0 } else { x with st := st }

theorem movedTo_opened : movedTo .opened = fun x => { x with st := .opened, credits := Vector.replicate 8 0, freeCredit := 0 } := rfl

theorem movedTo_closed : movedTo .closed = fun x => { x with st := .closed } := rfl

/-- What an admitted move of a saddle leaves: the saddle in its new state, and the plait taken up. -/
theorem moveSaddle_admitted {s : State} {n : SadNo} {st : SadState} {p : Plait} (hp : admitPlait (modSad s n (movedTo st)) = some p)
    (t : Nat) : ∃ fs next, ∀ q, moveSaddle { s with adm := q } n st t =
      okWith { takenUp (modSad s n (movedTo st)) next with adm := q } .adm t fs := by
  have hm (q : Queue) : moveSaddle { s with adm := q } n st t =
      match admitPlait { modSad s n (movedTo st) with adm := q } with
      | none => complete (countDeny { s with adm := q } n) .adm t { status := .deniedQos }
      | some p =>
        let v := takePlait { modSad s n (movedTo st) with adm := q } p s.clk.ptc
        okWith v.1 .adm t (saddleFields v.1 n v.2) := rfl
  by_cases h : samePlait (modSad s n (movedTo st)) p = true
  · refine ⟨saddleFields (takenUp (modSad s n (movedTo st)) s.med.next) n none, s.med.next, fun q => ?_⟩
    rw [hm, admitPlait_adm, hp]
    dsimp only
    rw [takePlait_eq, if_pos (show samePlait { modSad s n (movedTo st) with adm := q } p = true from h)]
    rfl
  · refine ⟨saddleFields (takenUp (modSad s n (movedTo st)) (s.med.next ++ [({ p with epoch := nextEpoch s }, s.clk.ptc)])) n
      (some (nextEpoch s)), s.med.next ++ [({ p with epoch := nextEpoch s }, s.clk.ptc)], fun q => ?_⟩
    rw [hm, admitPlait_adm, hp]
    dsimp only
    rw [takePlait_eq, if_neg (show ¬ samePlait { modSad s n (movedTo st) with adm := q } p = true from h)]
    rfl

/-- A move that admission refuses counts, and leaves the saddle as it was (R94). -/
theorem moveSaddle_refused {s : State} {n : SadNo} {st : SadState} (hp : admitPlait (modSad s n (movedTo st)) = none) (t : Nat)
    (q : Queue) : moveSaddle { s with adm := q } n st t = complete { countDeny s n with adm := q } .adm t { status := .deniedQos } := by
  have hm : moveSaddle { s with adm := q } n st t =
      match admitPlait { modSad s n (movedTo st) with adm := q } with
      | none => complete (countDeny { s with adm := q } n) .adm t { status := .deniedQos }
      | some p =>
        let v := takePlait { modSad s n (movedTo st) with adm := q } p s.clk.ptc
        okWith v.1 .adm t (saddleFields v.1 n v.2) := rfl
  rw [hm, admitPlait_adm, hp]
  rfl

/-- A bound and closed saddle's OPEN is its move. -/
theorem saddleOpen_closed {s : State} {n : SadNo} (hb : bindOf s n ≠ .none) (hs : s.sad[n].st = .closed) (t : Nat) :
    saddleOpen n t s = moveSaddle s n .opened t := by
  simp [saddleOpen, hb, show s.sad[n.val].st = .closed from hs]

/-- Settles O28: an opened or closed saddle follows admission, and SEAL stores its switch and slot. -/
theorem saddleVerbs : Obligations.SaddleVerbs := by
  intro s t n
  refine ⟨fun p h hb hs hp => ?_, fun h hb hs hp => ?_, fun h hb => ?_, fun h hb hs => ?_, fun p h hi hp => ?_, fun h hi => ?_,
    fun k h hi hk => ?_, fun h hi => ?_, fun k h hi hk => ?_⟩
  · rw [← movedTo_opened] at hp
    obtain ⟨fs, next, hm⟩ := moveSaddle_admitted hp t
    refine ⟨_, takenUp (modSad (quiet s) n (movedTo .opened)) next, rfl, endsAs_of_verbRow (body := saddleOpen n) rfl h
      ((saddleOpen_closed (s := { quiet s with adm := begunQueue s .adm t }) hb hs t).trans (hm _)) rfl rfl, ?_, ?_, ?_, rfl, rfl, rfl⟩
    all_goals
      rw [takenUp_saddle, modSad_get, if_pos rfl]
      rfl
  · rw [← movedTo_opened] at hp
    exact endsAs_of_verbRow (body := saddleOpen n) rfl h
      ((saddleOpen_closed (s := { quiet s with adm := begunQueue s .adm t }) hb hs t).trans (moveSaddle_refused hp t _)) rfl rfl
  · exact endsOnly_of_verbRow (body := saddleOpen n) rfl h (if_pos (beq_iff_eq.2 hb))
  · exact endsOnly_of_verbRow (body := saddleOpen n) rfl h ((if_neg fun hu => hb (beq_iff_eq.1 hu)).trans (if_pos (bne_iff_ne.2 hs)))
  · rw [← movedTo_closed] at hp
    obtain ⟨fs, next, hm⟩ := moveSaddle_admitted hp t
    refine ⟨_, takenUp (modSad (quiet s) n (movedTo .closed)) next, rfl, endsAs_of_verbRow (body := saddleClose n) rfl h
      ((if_neg (ne_true_of_eq_false (congrArg not hi))).trans (hm _)) rfl rfl, ?_, rfl, rfl, rfl⟩
    rw [takenUp_saddle, modSad_get, if_pos rfl]
    rfl
  · exact endsOnly_of_verbRow (body := saddleClose n) rfl h (if_pos (congrArg not hi))
  · refine ⟨_, cfgPut (cfgPut (quiet s) { id := .sealOn, i := n.val } (.n 1)) { id := .sealSlot, i := n.val } (.n k.val), rfl,
      endsAs_of_verbRow (body := sealVerb n true (some k)) rfl h ((if_neg (ne_true_of_eq_false (congrArg not hi))).trans
        (if_neg (ne_true_of_eq_false (congrArg not hk)))) rfl rfl, ?_, ?_, rfl⟩
    · simp [cfgVal_cfgPut]
    · simp [cfgVal_cfgPut]
  · refine ⟨_, cfgPut (quiet s) { id := .sealOn, i := n.val } (.n 0), rfl,
      endsAs_of_verbRow (body := sealVerb n false none) rfl h (if_neg (ne_true_of_eq_false (congrArg not hi))) rfl rfl, ?_, rfl⟩
    simp [cfgVal_cfgPut]
  · exact endsOnly_of_verbRow (body := sealVerb n true (some k)) rfl h ((if_neg (ne_true_of_eq_false (congrArg not hi))).trans
      (if_pos (congrArg (fun o : Option (List Byte) => !o.isSome) hk)))

end Sys2Proof.Machine
end

section
/-! SUPPORT. Settings that wait for the boundary, and configuration versions (R6, R125, R133, R408, R411). -/

namespace Sys2Proof.Machine

open Sys2Proof

/-- The entry that a verb's effect sees is the command's own, begun. -/
theorem entryOf_begun {s : State} {ch : Chan} {t : Nat} {e : Entry} (h : entryOf s ch t = some e) (u : State) :
    entryOf (withQueue u ch (begunQueue s ch t)) ch t = some { e with begun := true } := by
  have hm := entryOf_modEntry (quiet s) ch t (fun e => { e with begun := true }) (fun _ => rfl)
  rw [← begins, begins_eq, quiet_entryOf, h] at hm
  rw [entryOf_withQueue (quiet s) u]
  exact hm

/-- A setting that is asked for waits for the boundary, under its command's intake number (R125). -/
theorem askSet_waits {s : State} {ch : Chan} {t : Nat} {e : Entry} (h : entryOf s ch t = some e) (v : Verb) :
    askSet ch v t (withQueue (quiet s) ch (begunQueue s ch t)) = withQueue { quiet s with fil := { s.fil with
      imm := s.fil.imm ++ [{ ch := ch, tr := e.tr, verb := v, seq := e.seq, tag := some t }] } } ch (begunQueue s ch t) := by
  rw [askSet, entryOf_begun h]
  cases ch <;> rfl

/-- Settles O30: SET and SADDLE SET wait in intake order; a SET outside its mode's columns is refused before any value is looked at. -/
theorem settingsWaitForBoundary : Obligations.SettingsWaitForBoundary := by
  refine ⟨fun s ch t l e h he => ?_, fun s ch t n a e h he => ?_, fun s ch own p v hs hc => ?_⟩
  · exact goesOn_of_verbRow_begun (body := askSet ch (.set l)) rfl h (askSet_waits he _) rfl rfl
  · exact goesOn_of_verbRow_begun (body := askSet ch (.saddleSet n a)) rfl h (askSet_waits he _) rfl rfl
  · have hf : ([(p, v)].find? fun (q : Param × PVal) => !changeable s.pw.mode (pspec q.1.id).modes) = some (p, v) := by simp [hc]
    simp only [doSet, hs, hf, modeBad]
    by_cases hb : p.id = .sadBind
    · simp [hb, nameArg, busyMode]
    · simp [hb]

/-! ### The flash logs beside the kept versions -/

/-- One state differs from another in its flash state at most, with the kept versions as they were. -/
def LogsOnly (s t : State) : Prop := ∃ f, t = { s with fl := f } ∧ f.cfgs = s.fl.cfgs

theorem LogsOnly.refl (s : State) : LogsOnly s s := ⟨_, rfl, rfl⟩

theorem LogsOnly.trans {s t u : State} (h : LogsOnly s t) (g : LogsOnly t u) : LogsOnly s u := by
  obtain ⟨f, rfl, hf⟩ := h
  obtain ⟨g, rfl, hg⟩ := g
  exact ⟨g, rfl, hg.trans hf⟩

theorem setLog_cfgs (f : Flash) (r : LogRegion) (p : LogPair) : (setLog f r p).cfgs = f.cfgs := by
  cases r <;> rfl

theorem compactLog_logsOnly (s : State) (r : LogRegion) (e : LogEntry) : LogsOnly s (compactLog s r e) := ⟨_, rfl, setLog_cfgs _ _ _⟩

theorem appendJournal_logsOnly (s : State) (e : LogEntry) : LogsOnly s (appendJournal s e) := by
  unfold appendJournal
  extract_lets p
  split
  · exact ⟨_, rfl, rfl⟩
  · exact compactLog_logsOnly _ _ _

theorem appendLog_logsOnly (s : State) (r : LogRegion) (e : LogEntry) : LogsOnly s (appendLog s r e) := by
  have h (r : LogRegion) : LogsOnly s (if (logOf s.fl r).entries.length < 511 then
      { s with fl := setLog s.fl r { logOf s.fl r with entries := (logOf s.fl r).entries ++ [e] } }
      else compactLog (journaled s (spareSector s.fl r)) r e) := by
    split
    · exact ⟨_, rfl, setLog_cfgs _ _ _⟩
    · exact ((appendJournal_logsOnly _ _).trans (appendJournal_logsOnly _ _)).trans (compactLog_logsOnly _ _ _)
  cases r with
  | journal => exact appendJournal_logsOnly s e
  | boot => exact h .boot
  | select => exact h .select

theorem startErase_logsOnly (s : State) (k : Nat) : LogsOnly s (startErase s k) := by
  unfold startErase
  split
  · exact ⟨_, rfl, rfl⟩
  · exact (appendLog_logsOnly _ _ _).trans ⟨_, rfl, rfl⟩

/-- Sectors sent for erasure leave the kept versions. -/
theorem eraseSectors_logsOnly (l : List Nat) (k : Nat) (s : State) : LogsOnly s (l.foldl (fun s i => startErase s (k + i)) s) :=
  foldl_keeps (LogsOnly s) _ (fun u _ hu => hu.trans (startErase_logsOnly u _)) l s (.refl s)

/-- An entry appended to the boot record or the configuration selector is its newest, whether or not its pages had to be compacted
(R404, R410). -/
theorem appendLog_last (s : State) {r : LogRegion} (hr : r ≠ .journal) (e : LogEntry) :
    (logOf (appendLog s r e).fl r).entries.getLast? = some e := by
  have hset (f : Flash) (p : LogPair) : logOf (setLog f r p) r = p := by cases r <;> rfl
  have h : (logOf (if (logOf s.fl r).entries.length < 511 then
      { s with fl := setLog s.fl r { logOf s.fl r with entries := (logOf s.fl r).entries ++ [e] } }
      else compactLog (journaled s (spareSector s.fl r)) r e).fl r).entries.getLast? = some e := by
    split
    · simp [hset]
    · have hc (u : State) : logOf (compactLog u r e).fl r = { entries := neededEntries u.fl r ++ [e], seq := (logOf u.fl r).seq + 1, second := !(logOf u.fl r).second } := by
        cases r <;> rfl
      simp [hc]
  cases r with
  | journal => exact absurd rfl hr
  | boot => exact h
  | select => exact h

/-! ### COMMIT and ROLLBACK -/

/-- What no change of a value reaches beside the values: the configuration, the flash, the keys and the plait (R133). -/
def valueKept (s : State) : Cfg × Flash × Keys × Plait := (s.cfg, s.fl, s.keys, s.med.plait)

theorem LogOnly.valueKept {s t : State} (h : LogOnly s t) : valueKept t = valueKept s := by
  obtain ⟨v, p, d, rfl⟩ := h
  rfl

theorem selectSource_valueKept (s : State) (f : Bool) : valueKept (selectSource s f) = valueKept s := by
  unfold selectSource
  split
  · rfl
  · extract_lets _ t0 t1
    have h1 : valueKept t1 = valueKept s := by
      subst t1
      split
      · exact ((LogOnly.refl t0).logE _ _ _ _).valueKept
      · rfl
    split
    · exact ((LogOnly.refl t1).logE _ _ _ _).valueKept.trans h1
    · exact h1

theorem dropLagging_valueKept (s : State) (n : SadNo) : valueKept (dropLagging s n) = valueKept s := by
  obtain ⟨⟨p, d, h⟩, -⟩ := dropToLag_monOnly n (monCaddies s.sad[n]).length s
  rw [dropLagging, h]
  rfl

theorem valueEffect_valueKept (s t : State) (pv : Param × PVal) : valueKept (valueEffect s t pv) = valueKept t := by
  unfold valueEffect
  extract_lets p n
  split
  · exact selectSource_valueKept t _
  · rfl
  · rfl
  · rfl
  · rfl
  · split
    · rfl
    · split <;> rfl
  · rfl
  · exact dropLagging_valueKept t n
  · split <;> rfl
  · rfl

theorem takePlait_valueKept (s : State) (p : Plait) (w : W64) : valueKept (takePlait s p w).1 = valueKept s := by
  rw [takePlait_eq]
  split <;> rfl

theorem valueEffects_valueKept (s : State) (l : List (Param × PVal)) (t : State) : valueKept (l.foldl (valueEffect s) t) = valueKept t :=
  foldl_keeps (fun u => valueKept u = valueKept t) _ (fun u a h => (valueEffect_valueKept s u a).trans h) l t rfl

theorem le_maxL {l : List Nat} {k : Nat} (h : k ∈ l) : k ≤ maxL l := by
  have hg : ∀ (l : List Nat) (b : Nat), b ≤ l.foldl max b ∧ ∀ k ∈ l, k ≤ l.foldl max b := by
    intro l
    induction l with
    | nil => exact fun b => ⟨le_refl b, fun k h => by simp at h⟩
    | cons x t ih =>
      intro b
      obtain ⟨h1, h2⟩ := ih (max b x)
      refine ⟨(le_max_left b x).trans h1, fun k hk => ?_⟩
      obtain rfl | hk := List.mem_cons.1 hk
      · exact (le_max_right b _).trans h1
      · exact h2 k hk
  exact (hg l 0).2 k h

/-- The lowest of the versions below one is below it, where there is one. -/
theorem lowest_lt {l : List CfgRec} {v : Nat} (h : ∃ c ∈ l, c.version < v) : l.foldl (fun b c => min b c.version) v < v := by
  have hg : ∀ (l : List CfgRec) (b : Nat), l.foldl (fun b c => min b c.version) b ≤ b ∧
      ∀ c ∈ l, l.foldl (fun b c => min b c.version) b ≤ c.version := by
    intro l
    induction l with
    | nil => exact fun b => ⟨le_refl b, fun k h => by simp at h⟩
    | cons x t ih =>
      intro b
      obtain ⟨h1, h2⟩ := ih (min b x.version)
      refine ⟨h1.trans (min_le_left _ _), fun c hc => ?_⟩
      obtain rfl | hc := List.mem_cons.1 hc
      · exact h1.trans (min_le_right _ _)
      · exact h2 c hc
  obtain ⟨c, hc, hv⟩ := h
  exact ((hg l v).2 c hc).trans_lt hv

/-- A commit's end keeps the new version, whichever older one gives its place up (R408, R412). -/
theorem finishCommit_ends {s : State} {e : Entry} (he : entryOf s .adm e.tag = some e) (hn : e.ended = none) (note : String) :
    EndedWith (finishCommit s e note) .adm e.tag { status := .ok, fields := [fnum "cfg" (topVersion s + 1), fnum "parent" s.cfg.version] } ∧
    (finishCommit s e note).cfg = { s.cfg with
      committed := commitBody s, uncommitted := [], version := topVersion s + 1, parent := s.cfg.version } ∧
    (∃ c ∈ (finishCommit s e note).fl.cfgs, c.version = topVersion s + 1 ∧ c.parent = s.cfg.version ∧ c.body = commitBody s ∧
      c.note = note) ∧
    (finishCommit s e note).med = s.med ∧ (finishCommit s e note).keys = s.keys := by
  unfold finishCommit
  extract_lets v run rec_ _ s1 s2 _ s3 s4 low
  have h2 : LogsOnly s1 s2 := appendLog_logsOnly _ _ _
  clear_value s2
  obtain ⟨f, rfl, hf⟩ := h2
  have he4 : EndedWith s4 .adm e.tag { status := .ok, fields := [fnum "cfg" v, fnum "parent" s.cfg.version] } :=
    complete_ended (show entryOf s3 .adm e.tag = some e from he) hn _
  have hc4 : s4.fl.cfgs = s.fl.cfgs ++ [rec_] := hf
  have hm : rec_ ∈ s4.fl.cfgs := by rw [hc4]; exact List.mem_append_right _ (List.mem_singleton.2 rfl)
  split
  · next h9 =>
    split
    · next c hc =>
      have hlow : low < v := by
        have hlen : 9 ≤ s.fl.cfgs.length + 1 := by
          rw [hc4, List.length_append] at h9
          exact h9
        obtain ⟨c0, l0, hl0⟩ := List.exists_cons_of_length_pos (show 0 < s.fl.cfgs.length by omega)
        have hv : c0.version < v := Nat.lt_succ_of_le (le_maxL (List.mem_map_of_mem (hl0 ▸ List.mem_cons_self)))
        refine lowest_lt ⟨c0, List.mem_filter.2 ⟨?_, by simpa using hv.ne⟩, hv⟩
        rw [hc4, hl0]
        exact List.mem_append_left _ List.mem_cons_self
      have hkeep (t : State) (ht : LogsOnly { s4 with fl := { s4.fl with cfgs := s4.fl.cfgs.filter fun d => d.version ≠ low } } t) :
          EndedWith t .adm e.tag { status := .ok, fields := [fnum "cfg" v, fnum "parent" s.cfg.version] } ∧
          t.cfg = s4.cfg ∧ rec_ ∈ t.fl.cfgs ∧ t.med = s.med ∧ t.keys = s.keys := by
        obtain ⟨g, rfl, hg⟩ := ht
        refine ⟨he4, rfl, ?_, rfl, rfl⟩
        change rec_ ∈ g.cfgs
        rw [hg]
        exact List.mem_filter.2 ⟨hm, by simpa using hlow.ne'⟩
      obtain ⟨k1, k2, k3, k4, k5⟩ := hkeep _ (eraseSectors_logsOnly (List.range 16) (0x100 + 16 * c.place) _)
      exact ⟨k1, k2, ⟨rec_, k3, rfl, rfl, rfl, rfl⟩, k4, k5⟩
    · exact ⟨he4, rfl, ⟨rec_, hm, rfl, rfl, rfl, rfl⟩, rfl, rfl⟩
  · exact ⟨he4, rfl, ⟨rec_, hm, rfl, rfl, rfl, rfl⟩, rfl, rfl⟩

/-- The command that waits for the flash has no outcome yet. -/
theorem flashCommand_going {s : State} {e : Entry} (h : flashCommand s = some e) : e.ended = none := by
  have hp := List.find?_some h
  simp only [Bool.and_eq_true, Option.isNone_iff_eq_none] at hp
  exact hp.1.1

/-- The end of a COMMIT's program operation ends the COMMIT (R408). -/
theorem flashOpComplete_commit {s : State} {e : Entry} {note : String} (hp : s.fl.opRun = some .program) (hc : flashCommand s = some e)
    (hv : e.verb = .commit note) (addr : Nat) :
    flashOpComplete .program true addr s = finishCommit { s with fl := { s.fl with opRun := none } } e note := by
  unfold flashOpComplete
  simp [hp, hc, hv]

/-- A ROLLBACK whose values and rates stand puts its version in force, keeps the plait and appends its entry (R411). -/
theorem doRollback_ends {s : State} {target : Option Nat} {c : CfgRec} {pl : Plait} (hc : rollbackRec s (target.getD s.cfg.parent) = some c)
    (hv : (((recordPairs c).filter fun (p, _) => cfgVal s p != cfgVal (withRecord s c) p).findSome? fun (p, _) =>
      valueBad s (withRecord s c) none p) = none) (hp : admitPlait (withRecord s c) = some pl) :
    (doRollback s target).2 = { status := .ok, fields := [fnum "cfg" (target.getD s.cfg.parent)] } ∧
    ∃ u, valueKept u = valueKept (withRecord s c) ∧
      (doRollback s target).1 = appendLog u .select { type := 0x20, arg := 1, value := target.getD s.cfg.parent } := by
  unfold doRollback
  extract_lets v
  rw [hc]
  dsimp only
  rw [hv]
  dsimp only
  rw [hp]
  exact ⟨rfl, _, (valueEffects_valueKept s _ _).trans (takePlait_valueKept _ _ _), rfl⟩

/-- Settles O32: COMMIT programs and ends with the new version, ROLLBACK waits for its boundary and takes the version up there. -/
theorem configurationVersions : Obligations.ConfigurationVersions := by
  intro s t
  refine ⟨fun note h hb => ?_, fun note h hb => ?_, fun e note addr hl hp hc hv he => ?_, fun target c e h hc he => ?_,
    fun target c pl hc hv hp => ?_, fun target h hn => ?_⟩
  · exact goesOn_of_verbRow_begun (body := fun _ s => commitStart s) rfl h (if_neg (ne_true_of_eq_false hb)) rfl rfl
  · exact goesOn_of_verbRow_begun (body := fun _ s => commitStart s) rfl h (if_pos hb) rfl rfl
  · have hb : flashBusy s = true := by simp [flashBusy, hp]
    obtain ⟨h1, h2, h3, h4, h5⟩ := finishCommit_ends (s := { quiet s with fl := { s.fl with opRun := none } }) he (flashCommand_going hc) note
    refine ⟨_, actIf_live hl hb _, ?_⟩
    rw [flashOpComplete_commit (s := quiet s) hp hc hv]
    exact ⟨h1, h2, h3, h4, h5⟩
  · refine goesOn_of_verbRow_begun (body := rollbackVerb target) rfl h ((if_neg ?_).trans (askSet_waits he _)) rfl rfl
    exact ne_true_of_eq_false (congrArg Option.isNone hc)
  · obtain ⟨h1, u, hu, h2⟩ := doRollback_ends hc hv hp
    refine ⟨h1, ?_⟩
    rw [h2]
    simp only [valueKept, Prod.mk.injEq] at hu
    obtain ⟨hcfg, hfl, hkeys, hplait⟩ := hu
    have hlast := appendLog_last u (r := .select) nofun { type := 0x20, arg := 1, value := target.getD s.cfg.parent }
    obtain ⟨f, hf, hfc⟩ := appendLog_logsOnly u .select { type := 0x20, arg := 1, value := target.getD s.cfg.parent }
    refine ⟨?_, hlast, ?_, ?_, ?_⟩
    · rw [hf]
      exact hcfg
    · rw [hf]
      exact hfc.trans (congrArg Flash.cfgs hfl)
    · rw [hf]
      exact hplait
    · rw [hf]
      exact hkeys
  · refine endsOnly_of_verbRow (body := rollbackVerb target) rfl h (if_pos ?_)
    have hr : rollbackRec s (target.getD s.cfg.parent) = none :=
      List.find?_eq_none.2 fun c hc => by simp [hn c hc]
    exact congrArg Option.isNone hr

end Sys2Proof.Machine
end

section
/-! SUPPORT. Confirmation windows and keys (R175, R176, R180, R181, R185-R188, R416, R417). -/

namespace Sys2Proof.Machine

open Sys2Proof

/-- What an append leaves in flash rests on the flash state alone. -/
theorem appendJournal_fl {s u : State} (h : u.fl = s.fl) (e : LogEntry) : (appendJournal u e).fl = (appendJournal s e).fl := by
  simp only [appendJournal, compactLog, h]
  split <;> rfl

theorem appendLog_fl {s u : State} (h : u.fl = s.fl) (r : LogRegion) (e : LogEntry) : (appendLog u r e).fl = (appendLog s r e).fl := by
  have hj (k : Nat) : (journaled u k).fl = (journaled s k).fl := appendJournal_fl (appendJournal_fl h _) _
  have hr (r : LogRegion) : (if (logOf u.fl r).entries.length < 511 then
      { u with fl := setLog u.fl r { logOf u.fl r with entries := (logOf u.fl r).entries ++ [e] } }
      else compactLog (journaled u (spareSector u.fl r)) r e).fl =
      (if (logOf s.fl r).entries.length < 511 then
      { s with fl := setLog s.fl r { logOf s.fl r with entries := (logOf s.fl r).entries ++ [e] } }
      else compactLog (journaled s (spareSector s.fl r)) r e).fl := by
    rw [h]
    split
    · rfl
    · unfold compactLog
      rw [hj]
  cases r with
  | journal => exact appendJournal_fl h e
  | boot => exact hr .boot
  | select => exact hr .select

/-- An append beside the admin channel's queue. -/
theorem appendLog_adm (s : State) (q : Queue) (r : LogRegion) (e : LogEntry) :
    appendLog { s with adm := q } r e = { appendLog s r e with adm := q } := by
  obtain ⟨f, hf⟩ := appendLog_eq s r e
  obtain ⟨g, hg⟩ := appendLog_eq { s with adm := q } r e
  have h := appendLog_fl (s := s) (u := { s with adm := q }) rfl r e
  rw [hf, hg] at h
  rw [hf, hg]
  exact congrArg (fun f => { s with adm := q, fl := f }) h

/-- SELECT as ACTIVATE appends it: a slot that is not confirmed is on trial (R417). -/
def selectEntry (s : State) (x : Slot) : LogEntry :=
  { type := 0x10, arg := slotNo x + (if slotConfirmed s x then 0 else 2), value := imgVersion (imageOf s x) (slotNo x) }

/-- A slot that passes its checks, with no flash work under way, is selected and a restart is asked for (R175, R417). -/
theorem activateVerb_selects {s u : State} {x : Slot} {ok : Bool} (hf : slotFails s x ok = none) (hb : flashBusy s = false)
    (hu : appendLog s .boot (selectEntry s x) = u) (t : Nat) (q : Queue) :
    activateVerb x ok t { s with adm := q } = okWith { u with pw := { u.pw with restartPend := true }, adm := q } .adm t
      [fld "slot" (slotName x), fld "fw" (fwStr (imgVersion (imageOf s x) (slotNo x)))] := by
  subst hu
  have hlog (e : LogEntry) : appendLog { s with adm := q } .boot e = { appendLog s .boot e with adm := q } := appendLog_adm s q .boot e
  unfold activateVerb
  rw [show slotFails { s with adm := q } x ok = none from hf]
  dsimp only
  rw [show flashBusy { s with adm := q } = false from hb, if_neg Bool.false_ne_true, hlog]
  rfl

/-- What is armed is the action that CONFIRM names, under its code, and has not lapsed (R181). -/
def armedWith (s : State) (a : ArmAction) (code : String) : Bool :=
  match s.svc.arm with
  | some (b, c, till) => a == b && c == code && !lapsed s till
  | none => false

theorem armedWith_iff {s : State} {a : ArmAction} {code : String} :
    armedWith s a code = true ↔ ∃ till, s.svc.arm = some (a, code, till) ∧ now s < till.toNat := by
  unfold armedWith
  cases h : s.svc.arm with
  | none => simp
  | some x =>
    obtain ⟨b, c, till⟩ := x
    simp only [lapsed, Bool.and_eq_true, beq_iff_eq, Bool.not_eq_true', decide_eq_false_iff_not, Nat.not_le, Option.some.injEq,
      Prod.mk.injEq]
    constructor
    · rintro ⟨⟨rfl, rfl⟩, hn⟩
      exact ⟨till, ⟨rfl, rfl, rfl⟩, hn⟩
    · rintro ⟨till', ⟨rfl, rfl, rfl⟩, hn⟩
      exact ⟨⟨rfl, rfl⟩, hn⟩

/-- CONFIRM from the console, before its code is looked at (R181). -/
theorem confirmVerb_console {s : State} {t : Nat} {e : Entry} (he : entryOf s .adm t = some e) (hc : e.tr = .console) (a : ArmAction)
    (code : String) : confirmVerb a code t s =
      if armedWith s a code then
        okWith { s with svc := { s.svc with arm := none, confirm := some (a, s.clk.ptc + BitVec.ofNat 64 (pnat s .armTicks)) } } .adm t
          [fld "action" (ArmAction.name a), fnum "ticks" (pnat s .armTicks)]
      else complete { s with svc := { s.svc with arm := none } } .adm t (failWhy .denied "confirm") := by
  have hg : (entryOf s .adm t).all (·.tr != .console) = false := by
    rw [he]
    simp [hc]
  exact if_neg (ne_true_of_eq_false hg)

/-- Settles O33: ACTIVATE, ARM and CONFIRM by the branches of their effects, and the windows that lapse. -/
theorem confirmationWindows : Obligations.ConfirmationWindows := by
  intro s t
  refine ⟨fun x ok h hf hb => ?_, fun x ok k h hf => ?_, fun a h => ?_, fun a code till e h he hc ha hn => ?_,
    fun a code e h he hc ha => ?_, fun hl => ?_⟩
  · obtain ⟨f, hl⟩ := appendLog_eq (quiet s) .boot (selectEntry s x)
    change EndsAs _ _ _ _ _ { appendLog (quiet s) .boot (selectEntry s x) with pw := _ }
    rw [hl]
    exact endsAs_of_verbRow (body := activateVerb x ok) rfl h (activateVerb_selects (s := quiet s) hf hb hl t _) rfl rfl
  · refine endsOnly_of_verbRow (body := activateVerb x ok) rfl h ?_
    unfold activateVerb
    rw [show slotFails (withQueue (quiet s) .adm (begunQueue s .adm t)) x ok = some k from hf]
    rfl
  · exact endsAs_of_verbRow (body := armVerb a) rfl h rfl rfl rfl
  · have hg : armedWith (quiet s) a code = true := armedWith_iff.2 ⟨till, ha, hn⟩
    exact endsAs_of_verbRow (body := confirmVerb a code) rfl h ((confirmVerb_console (entryOf_begun he _) hc a code).trans (if_pos hg))
      rfl rfl
  · have hg : ¬ armedWith (quiet s) a code = true := fun hg => by
      obtain ⟨till, hs, hn⟩ := armedWith_iff.1 hg
      obtain hb | hb | hb := ha a code till hs
      · exact hb rfl
      · exact hb rfl
      · exact absurd hn (Nat.not_lt.2 hb)
    exact endsAs_of_verbRow (body := confirmVerb a code) rfl h ((confirmVerb_console (entryOf_begun he _) hc a code).trans (if_neg hg))
      rfl rfl
  · exact act_live_kept hl _ rfl rfl

/-- LOAD of nine parts, and with one missing (R185, R186). -/
theorem keyLoad_parts {s : State} {k : Fin 16} {b : List Byte} (hh : slotHolders s k = []) (hb : partsBytes 9 s.keys.stage[k] = some b)
    (t : Nat) : keyLoad k t s = match loadedPair s b with
      | some p => okWith (putSlot (modStage s k fun _ => []) k (some p)) .adm t [fnum "slot" k.val, fld "kcv" (kcv p)]
      | none => complete (modStage s k fun _ => []) .adm t (failWhy .badarg "form" [fld "key" "w"]) := by
  unfold keyLoad
  rw [hh]
  dsimp only
  rw [hb]
  rfl

theorem keyLoad_missing {s : State} {k : Fin 16} (hh : slotHolders s k = []) (hb : partsBytes 9 s.keys.stage[k] = none) (t : Nat) :
    keyLoad k t s = complete s .adm t (failWhy .badarg "missing" [fld "key" "seq"]) := by
  unfold keyLoad
  rw [hh]
  dsimp only
  rw [hb]

theorem keyZero_free {s : State} {k : Fin 16} (hh : slotHolders s k = []) (t : Nat) :
    keyZero k t s = okWith (putSlot (modStage s k fun _ => []) k none) .adm t [fnum "slot" k.val] := by
  unfold keyZero
  rw [hh]

theorem keyZero_held {s : State} {k : Fin 16} (hh : slotHolders s k ≠ []) (t : Nat) :
    keyZero k t s = complete s .adm t (busyMode (slotHolders s k)) := by
  unfold keyZero
  cases h : slotHolders s k with
  | nil => exact absurd h hh
  | cons n l => rfl

/-- A part of the KEK with its window open and no KEK installed (R187, R416). -/
theorem keyKek_open {s : State} (hk : s.keys.kek = none) (hl : s.fl.locked = false) (hw : windowOpen s .kek = true) (q : Fin 4) (w : W64)
    (t : Nat) : keyKek q w t s =
      let s := { s with keys := { s.keys with kekStage := put q.val w s.keys.kekStage } }
      if q.val < 3 then okWith s .adm t [fnum "seq" q.val, fnum "kek" 0]
      else match partsBytes 4 s.keys.kekStage with
        | none => complete s .adm t (failWhy .badarg "missing" [fld "key" "seq"])
        | some b =>
          okWith (useWindow { s with
            keys := { s.keys with kek := some b, kekStage := [] }
            fl := { s.fl with keyA := some b, keyB := some b, locked := true } }) .adm t [fnum "seq" q.val, fnum "kek" 1] := by
  have h1 : ¬ (s.keys.kek.isSome || s.fl.locked) = true := by simp [hk, hl]
  have h2 : ¬ (!windowOpen s .kek) = true := by simp [hw]
  exact (if_neg h1).trans (if_neg h2)

/-- Settles O35: each KEY operation by the branches of its effect. -/
theorem keyCommands : Obligations.KeyCommands := by
  intro s t
  refine ⟨fun k q w h => ?_, fun k b h hh hb => ⟨fun p hp => ?_, fun hp => ?_⟩, fun k h hh hb => ?_, fun k h hh => ?_, fun k h hh => ?_,
    fun q w h hk hl hw hq => ?_, fun w b h hk hl hw hb => ?_, fun q w h hk => ?_⟩
  · exact endsAs_of_verbRow (body := keyPart k q w) rfl h rfl rfl rfl
  · refine endsAs_of_verbRow (body := keyLoad k) rfl h ((keyLoad_parts (s := withQueue (quiet s) .adm _) hh hb t).trans ?_) rfl rfl
    rw [show loadedPair (withQueue (quiet s) .adm (begunQueue s .adm t)) b = some p from hp]
    rfl
  · refine endsAs_of_verbRow (body := keyLoad k) rfl h ((keyLoad_parts (s := withQueue (quiet s) .adm _) hh hb t).trans ?_) rfl rfl
    rw [show loadedPair (withQueue (quiet s) .adm (begunQueue s .adm t)) b = none from hp]
    rfl
  · exact endsOnly_of_verbRow (body := keyLoad k) rfl h (keyLoad_missing (s := withQueue (quiet s) .adm _) hh hb t)
  · exact endsAs_of_verbRow (body := keyZero k) rfl h (keyZero_free (s := withQueue (quiet s) .adm _) hh t) rfl rfl
  · exact endsOnly_of_verbRow (body := keyZero k) rfl h (keyZero_held (s := withQueue (quiet s) .adm _) hh t)
  · exact endsAs_of_verbRow (body := keyKek q w) rfl h ((keyKek_open (s := withQueue (quiet s) .adm _) hk hl hw q w t).trans (if_pos hq))
      rfl rfl
  · refine endsAs_of_verbRow (body := keyKek 3 w) rfl h ((keyKek_open (s := withQueue (quiet s) .adm _) hk hl hw 3 w t).trans ?_) rfl rfl
    dsimp only
    rw [if_neg (by decide), show partsBytes 4 (put (3 : Fin 4).val w (withQueue (quiet s) .adm (begunQueue s .adm t)).keys.kekStage) = some b from hb]
    rfl
  · exact endsOnly_of_verbRow (body := keyKek q w) rfl h (if_pos (Bool.or_eq_true_iff.2 (.inl hk)))

end Sys2Proof.Machine
end

section
/-! SUPPORT. CHAN, CAL and TEST (R177, R178, R202, R289, R502-R505). -/

namespace Sys2Proof.Machine

open Sys2Proof

/-- A channel mapped in again: what failed on it is forgotten, and its run of bad rows starts over (R289). -/
def mappedIn (s : State) (c : ChNo) : State :=
  let u := putMapOut s ((mapOut s).filter (· ≠ c.val))
  let v := modWCh { u with med := { u.med with
    failed := u.med.failed.filter (· ≠ c.val)
    written := u.med.written.map fun w => { w with failsOn := w.failsOn.filter fun f => f.1 ≠ c } } } c fun x => { x with chsRun := 0 }
  { v with med := { v.med with stopped := v.med.stopped && 3 ≤ (chansOut v).length } }

/-- Settles O36: OUT and IN store the map; IN forgets what failed on the channel. -/
theorem channelMapping : Obligations.ChannelMapping := by
  intro s t c
  refine ⟨fun h hc hl => ?_, fun h hc hl => ?_, fun h => ?_⟩
  · refine ⟨_, putMapOut (quiet s) (mapOut s ++ [c.val]), rfl, endsAs_of_verbRow (body := chanOutVerb c) rfl h
      ((if_neg (ne_true_of_eq_false hc)).trans (if_neg (Nat.not_le.2 hl))) rfl rfl, ?_, rfl⟩
    simp [putMapOut, cfgVal_cfgPut]
  · exact endsOnly_of_verbRow (body := chanOutVerb c) rfl h ((if_neg (ne_true_of_eq_false hc)).trans (if_pos hl))
  · refine ⟨_, mappedIn (quiet s) c, rfl, endsAs_of_verbRow (body := chanInVerb c) rfl h rfl rfl rfl, ?_, rfl, ?_, ?_, rfl, rfl, rfl⟩
    · exact (cfgVal_cfgPut (quiet s) { id := .chanMapOut } { id := .chanMapOut } _).trans (if_pos rfl)
    · exact congrArg WCh.chsRun (Vector.getElem_set_self c.isLt)
    · exact fun hs => (Bool.and_eq_true_iff.1 hs).1

theorem mem_calOrder (i : CalItem) : i ∈ calOrder := by
  cases i <;> decide

/-- Settles O37: CAL and TEST begin their diagnostic, unless an item needs a tape that is not there. -/
theorem diagnosticsStart : Obligations.DiagnosticsStart := by
  intro s t began
  have htape (items : List CalItem) : (calOrder.filter items.contains).any CalItem.needsTape = true ↔
      ∃ i ∈ items, CalItem.needsTape i = true := by
    simp [mem_calOrder]
  refine ⟨fun items band h hi => ?_, fun items band i h ht hi hn => ?_, fun p h => ?_, fun p h => ?_, fun p h => ?_, fun p h ht => ?_,
    fun p h ht => ?_⟩
  · refine goesOn_of_verbRow_begun (body := calVerb items band) rfl h ((if_neg fun hn => ?_).trans rfl) rfl rfl
    obtain ⟨ha, hb⟩ := Bool.and_eq_true_iff.1 hn
    obtain ⟨i, him, hin⟩ := (htape items).1 ha
    obtain ht | hf := hi
    · exact absurd ((congrArg not ht).symm.trans hb) Bool.false_ne_true
    · exact absurd ((hf i him).symm.trans hin) Bool.false_ne_true
  · exact endsOnly_of_verbRow (body := calVerb items band) rfl h
      (if_pos (Bool.and_eq_true_iff.2 ⟨(htape items).2 ⟨i, hi, hn⟩, congrArg not ht⟩))
  · exact goesOn_of_verbRow_begun (body := testVerb .dram p) rfl h (if_neg Bool.false_ne_true) rfl rfl
  · exact goesOn_of_verbRow_begun (body := testVerb .flash p) rfl h (if_neg Bool.false_ne_true) rfl rfl
  · exact goesOn_of_verbRow_begun (body := testVerb .loop p) rfl h (if_neg Bool.false_ne_true) rfl rfl
  · exact goesOn_of_verbRow_begun (body := testVerb .pattern p) rfl h (if_neg (ne_true_of_eq_false (congrArg not ht))) rfl rfl
  · exact endsOnly_of_verbRow (body := testVerb .pattern p) rfl h (if_pos (congrArg not ht))

/-! ### How CAL and TEST end -/

/-- What a diagnostic's end leaves: the engine stopped with its errors and ticks (R502). -/
theorem diagEnd_eq (s : State) (errors ticks : Nat) : ∃ v p, diagEnd s errors ticks = { s with evt := v, pcie := p, diag := { s.diag with
    running := false, fail := 0 < errors, errors := sat 32 errors, ticks := sat 32 ticks, cut := false } } := by
  unfold diagEnd
  extract_lets code _ u
  obtain ⟨v, p, h⟩ := logE_chip u .info 0x0A02 [("what", 1, code u.diag.what), ("errors", 4, u.diag.errors), ("ticks", 4, u.diag.ticks)] none
  exact ⟨v, p, h⟩

/-- A passing item of CAL writes parameters and read-channel state only. -/
theorem calApply_eq (s : State) (r : CalResult) : ∃ c d, calApply s r = { s with cfg := c, rd := d } := by
  have hput {t : State} (h : ∃ c d, t = { s with cfg := c, rd := d }) (p : Param) (v : PVal) :
      ∃ c d, cfgPut t p v = { s with cfg := c, rd := d } := by
    obtain ⟨c, d, rfl⟩ := h
    unfold cfgPut
    split <;> exact ⟨_, _, rfl⟩
  unfold calApply
  split
  · exact foldl_keeps (fun u => ∃ c d, u = { s with cfg := c, rd := d }) _ (fun u p hu => hput hu p _) _ s ⟨_, _, rfl⟩
  · extract_lets u
    have hu : ∃ c d, u = { s with cfg := c, rd := d } :=
      foldl_keeps (fun u => ∃ c d, u = { s with cfg := c, rd := d }) _ (fun u x hu => hput hu x.1 x.2) _ s ⟨_, _, rfl⟩
    clear_value u
    split
    · exact foldl_keeps (fun u => ∃ c d, u = { s with cfg := c, rd := d }) _ (by rintro _ x ⟨c, d, rfl⟩; exact ⟨_, _, rfl⟩) _ u hu
    · exact hu

theorem calKeep_eq (s : State) (r : CalResult) : ∃ l, calKeep s r = { s with diag := { s.diag with calCh := l } } := ⟨_, rfl⟩

/-- Those of a list that fail a test, counted. -/
theorem length_filter_not {α : Type} (p : α → Bool) (l : List α) : l.length - (l.filter p).length = (l.filter fun a => !p a).length := by
  have h := l.length_eq_length_filter_add p
  omega

/-- What CAL's results leave before its engine stops. -/
theorem calApplied_eq (s : State) (rs ok : List CalResult) :
    ∃ c d l, ok.foldl calApply (rs.foldl calKeep s) = { s with cfg := c, rd := d, diag := { s.diag with calCh := l } } := by
  have h1 : ∃ l, rs.foldl calKeep s = { s with diag := { s.diag with calCh := l } } :=
    foldl_keeps (fun u => ∃ l, u = { s with diag := { s.diag with calCh := l } }) _ (by rintro _ a ⟨l, rfl⟩; exact ⟨_, rfl⟩) rs s ⟨_, rfl⟩
  obtain ⟨l, hl⟩ := h1
  rw [hl]
  obtain ⟨c, d, h⟩ := foldl_keeps (fun u => ∃ c d, u = { s with cfg := c, rd := d, diag := { s.diag with calCh := l } }) calApply
    (by
      rintro _ a ⟨c, d, rfl⟩
      obtain ⟨c', d', h⟩ := calApply_eq { s with cfg := c, rd := d, diag := { s.diag with calCh := l } } a
      exact ⟨c', d', h⟩) ok _ ⟨_, _, rfl⟩
  exact ⟨c, d, l, h⟩

theorem calComplete_ends {rs : List CalResult} {k t : Nat} {s : State} (hc : s.diag.cut = false) (ht : s.diag.tag = some t) :
    ∃ v p c d g m, g.running = false ∧ g.ticks = sat 32 k ∧ calComplete rs k s =
      complete { s with cfg := c, rd := d, evt := v, pcie := p, diag := g } .adm t { status := .ok, fields := [fnum "ticks" k, fnum "fail"
        ((s.diag.items.filterMap fun i => rs.find? (·.item == i)).filter fun r => !calPass s r).length], more := m } := by
  unfold calComplete
  extract_lets l ok fails a b tag u
  obtain ⟨c, d, ch, hb⟩ := calApplied_eq s l ok
  obtain ⟨v, p, hu⟩ := diagEnd_eq b fails k
  have htag : tag = some t := by
    subst tag
    rw [show b = _ from hb]
    exact ht
  rw [hc, if_neg Bool.false_ne_true, htag]
  have hfails : fails = (l.filter fun r => !calPass s r).length := length_filter_not _ _
  have hu' : u = { b with evt := v, pcie := p, diag := { b.diag with
    running := false, fail := 0 < fails, errors := sat 32 fails, ticks := sat 32 k, cut := false } } := hu
  have hb' : b = { s with cfg := c, rd := d, diag := { s.diag with calCh := ch } } := hb
  clear_value u b fails
  subst hu' hb' hfails
  exact ⟨v, p, c, d, _, _, rfl, rfl, rfl⟩

/-- A CAL that a queue reset cut stops its engine and changes no parameter (R502). -/
theorem calComplete_cut {s : State} (hc : s.diag.cut = true) (rs : List CalResult) (k : Nat) :
    ∃ v p g, g.running = false ∧ calComplete rs k s = { s with evt := v, pcie := p, diag := g } := by
  unfold calComplete
  extract_lets l ok fails a b tag u
  rw [if_pos hc]
  obtain ⟨v, p, hu⟩ := diagEnd_eq s fails k
  exact ⟨v, p, _, rfl, hu⟩

/-- What the test's data leave before its engine stops: a test of DRAM overwrites what the caddies held, one of flash its sectors, and
PATTERN the tape; LOOP leaves all of it (R504, R505). -/
def testDone (s : State) (w : DiagWhat) (cut : Bool) (passes : Nat) : State :=
  match w with
  | .dram => dramTested s cut
  | .flash => flashTested s passes
  | .pattern => patternWritten s passes
  | _ => s

/-- A test of flash writes the flash state only. -/
theorem flashTested_eq (s : State) (passes : Nat) : ∃ f, flashTested s passes = { s with fl := f } := by
  have he (s : State) (k : Nat) : ∃ f, eraseSector s k = { s with fl := f } := ⟨_, rfl⟩
  have hp (s : State) (a : Nat) (l : List Byte) : ∃ f, programBytes s a l = { s with fl := f } := ⟨_, rfl⟩
  unfold flashTested
  extract_lets n a b
  obtain ⟨f, hf⟩ : ∃ f, a = { s with fl := f } := by
    obtain ⟨f, hf⟩ := he s 0x4A
    obtain ⟨g, hg⟩ := he { s with fl := f } 0x4B
    exact ⟨g, by rw [← hg, ← hf]⟩
  obtain ⟨g, hg⟩ : ∃ f, b = { a with fl := f } := hp _ _ _
  clear_value b
  subst hg
  clear_value a
  subst hf
  exact ⟨_, rfl⟩

/-- A test of DRAM leaves nothing of what the caddies held, and what lies beyond them stands (R213, R504). -/
theorem dramTested_eq (s : State) (cut : Bool) : ∃ p d o m r, r.store = [] ∧ dramTested s cut = { s with
    pool := p, sad := d, port := o, med := m, rd := r, free := s.free + 1
    dram := { cells := s.dram.cells.filter fun c => decide (s.pool.total * 65536 ≤ c.1) }
    dramFill := if cut then .cut s.free else .pattern } := by
  have hrel : ∀ (l : List Caddy) (s : State), ∃ p, l.foldl (fun s c => askRelease s c.idx (.owner ownRa)) s = { s with pool := p } ∧
      p.total = s.pool.total := fun l s =>
    foldl_keeps (fun u => ∃ p, u = { s with pool := p } ∧ p.total = s.pool.total) _
      (by rintro _ a ⟨p, rfl, hp⟩; exact ⟨_, rfl, hp⟩) l s ⟨_, rfl, rfl⟩
  unfold dramTested
  extract_lets f ds a b lead
  obtain ⟨p, ha, hp⟩ : ∃ p, a = { s with pool := p } ∧ p.total = s.pool.total := hrel _ _
  clear_value a
  subst ha
  rw [← hp]
  exact ⟨p, _, _, _, _, rfl, rfl⟩

/-- PATTERN writes the media side, the read side and the cartridge's mark. -/
theorem patternWritten_eq (s : State) (passes : Nat) : ∃ m r c f, patternWritten s passes = { s with med := m, rd := r, cart := c, free := f } := by
  unfold patternWritten
  extract_lets d u
  obtain ⟨c, f, h⟩ : ∃ c f, u = { s with cart := c, free := f } := openMark_eq s
  clear_value u
  subst h
  exact ⟨_, _, _, _, rfl⟩

theorem testDone_kept (s : State) (w : DiagWhat) (cut : Bool) (passes : Nat) :
    (testDone s w cut passes).adm = s.adm ∧ (testDone s w cut passes).cfg = s.cfg ∧ (testDone s w cut passes).keys = s.keys ∧
      (testDone s w cut passes).diag = s.diag := by
  unfold testDone
  split
  · obtain ⟨p, d, o, m, r, -, h⟩ := dramTested_eq s cut
    rw [h]
    exact ⟨rfl, rfl, rfl, rfl⟩
  · obtain ⟨f, h⟩ := flashTested_eq s passes
    rw [h]
    exact ⟨rfl, rfl, rfl, rfl⟩
  · obtain ⟨m, r, c, f, h⟩ := patternWritten_eq s passes
    rw [h]
    exact ⟨rfl, rfl, rfl, rfl⟩
  · exact ⟨rfl, rfl, rfl, rfl⟩

/-- What a test's end leaves: its data, its passes and values, the engine stopped, and its command completed unless a queue reset has cut
it (R502, R504). -/
theorem testComplete_eq (r : TestResult) (s : State) : ∃ v p g m u, g.running = false ∧ g.cut = false ∧ g.errors = sat 32 r.errors ∧
    g.addr = r.addr ∧ g.pass = (if s.diag.cut then r.partialPass else s.diag.passes) ∧
    u = { testDone s s.diag.what s.diag.cut (if s.diag.cut then r.partialPass else s.diag.passes) with evt := v, pcie := p, diag := g } ∧
    (s.diag.cut = true → testComplete r s = u) ∧
    ∀ t, s.diag.cut = false → s.diag.tag = some t → testComplete r s = okWith u .adm t
      [fld "what" m, fnum "pass" s.diag.passes, fnum "errors" r.errors, fnum "ticks" r.ticks] := by
  generalize hx : testComplete r s = x
  unfold testComplete at hx
  extract_lets w cut passes done chs _ a tag u name at hx
  subst hx
  have hd : done = testDone s w cut passes := rfl
  have htag : tag = s.diag.tag := by
    obtain ⟨-, -, -, h⟩ := testDone_kept s w cut passes
    exact (congrArg Diag.tag h :)
  obtain ⟨v, p, hu⟩ := diagEnd_eq a r.errors r.ticks
  refine ⟨v, p, { a.diag with running := false, fail := 0 < r.errors, errors := sat 32 r.errors, ticks := sat 32 r.ticks, cut := false },
    name w, u, rfl, rfl, rfl, rfl, rfl, hu, fun hc => ?_, fun t hc ht => ?_⟩
  · rw [show cut = true from hc]
    split
    · next h => exact nomatch h
    · rfl
  · have hp : passes = s.diag.passes := if_neg (ne_true_of_eq_false hc)
    rw [htag, ht, ← hp, show cut = false from hc]

/-- A command's completion leaves the channel's other commands. -/
theorem complete_other (s : State) (ch : Chan) {t k : Nat} (h : k ≠ t) (o : Outc) : entryOf (complete s ch t o) ch k = entryOf s ch k :=
  entryOf_modEntry_other s ch h _ (by intro e; split <;> rfl)

/-- Settles O38: an engine's end stops it and completes its command unless that was cut; a cut CAL keeps every parameter. -/
theorem diagnosticsEnd : Obligations.DiagnosticsEnd := by
  refine ⟨fun rs k t e s hl hr hw hi hc ht he hn => ?_, fun rs k s hl hr hw hc => ?_, fun r t e s hl hr hw hc ht he hn => ?_,
    fun r s hl hr hw hc => ?_, fun s r => ?_⟩
  · have hon : (s.diag.running && s.diag.what == .cal && (s.diag.cut || s.diag.items.all fun i => rs.any (·.item == i))) = true := by
      simp [hr, hw]
      exact .inr fun i hm => hi i hm
    obtain ⟨v, p, c, d, g, m, hg, hk, h⟩ := calComplete_ends (rs := rs) (k := k) (s := quiet s) hc ht
    have hx := actIf_live hl hon (calComplete rs k)
    rw [h] at hx
    exact ⟨_, _, hx, complete_ended he hn _, rfl, rfl, hg, hk, rfl, rfl, fun j hj => complete_other _ .adm hj _⟩
  · have hon : (s.diag.running && s.diag.what == .cal && (s.diag.cut || s.diag.items.all fun i => rs.any (·.item == i))) = true := by
      simp [hr, hw, hc]
    obtain ⟨v, p, g, hg, h⟩ := calComplete_cut (s := quiet s) hc rs k
    refine ⟨_, actIf_live hl hon _, ?_⟩
    rw [h]
    exact ⟨hg, rfl, rfl, rfl⟩
  · have hon : (s.diag.running && s.diag.what != .cal) = true := by simp [hr, hw]
    obtain ⟨v, p, g, m, u, hg, -, herr, haddr, hpass, hu, -, h⟩ := testComplete_eq r (quiet s)
    obtain ⟨ha, hcfg, hkeys, -⟩ := testDone_kept (quiet s) s.diag.what s.diag.cut (if s.diag.cut then r.partialPass else s.diag.passes)
    have he' : entryOf u .adm t = some e := by
      rw [hu, ← he]
      exact congrArg (fun q : Queue => q.entries.find? _) ha
    have hx := actIf_live hl hon (testComplete r)
    rw [h t hc ht] at hx
    subst hu
    refine ⟨_, _, hx, complete_ended he' hn _, rfl, rfl, hg, herr, haddr, hpass.trans (if_neg (ne_true_of_eq_false hc)), hcfg, hkeys,
      fun hw => ?_, fun hw => ?_⟩
    · have hd : testDone (quiet s) s.diag.what s.diag.cut (if s.diag.cut then r.partialPass else s.diag.passes) =
          dramTested (quiet s) s.diag.cut := by rw [hw]; rfl
      obtain ⟨q, d, o, m, r', hr', hd'⟩ := dramTested_eq (quiet s) s.diag.cut
      have ht := hd.trans hd'
      exact ⟨congrArg State.dram ht, (congrArg (·.rd.store) ht).trans hr', (congrArg State.dramFill ht).trans
        (if_neg (ne_true_of_eq_false hc))⟩
    · have hd : testDone (quiet s) s.diag.what s.diag.cut (if s.diag.cut then r.partialPass else s.diag.passes) = quiet s := by
        rw [hw]; rfl
      exact ⟨(congrArg State.med hd :), (congrArg State.rd hd :), (congrArg State.dram hd :), (congrArg State.fl hd :)⟩
  · have hon : (s.diag.running && s.diag.what != .cal) = true := by simp [hr, hw]
    obtain ⟨v, p, g, m, u, hg, hcut, -, -, hpass, hu, h, -⟩ := testComplete_eq r (quiet s)
    obtain ⟨ha, hcfg, hkeys, -⟩ := testDone_kept (quiet s) s.diag.what s.diag.cut (if s.diag.cut then r.partialPass else s.diag.passes)
    refine ⟨_, actIf_live hl hon _, ?_⟩
    rw [h hc, hu]
    exact ⟨hg, hcut, hpass.trans (if_pos hc), ha, hcfg, hkeys⟩
  · refine ⟨fun h => ?_, fun h => ?_, fun h => ?_, fun h => ?_⟩
    · rw [calPass, h]
    · rw [calPass, h]
    · rw [calPass, h]
    · obtain h | h := h <;> rw [calPass, h]

end Sys2Proof.Machine
end

section
/-! SUPPORT. MODE and mode transitions (R6, R33, R35, R40, R60). -/

namespace Sys2Proof.Machine

open Sys2Proof

/-- Calling the hosts' attention to a mode change latches causes of the saddles and the admin channel, and changes nothing else (R39). -/
theorem modeAttention_eq (s : State) : ∃ p d, modeAttention s = { s with pcie := p, sad := d } ∧ ∀ n : SadNo, d[n].q = s.sad[n].q := by
  refine foldl_keeps (fun t => ∃ p d, t = { s with pcie := p, sad := d } ∧ ∀ n : SadNo, d[n].q = s.sad[n].q) _ ?_ allSads _
    ⟨_, s.sad, rfl, fun _ => rfl⟩
  rintro _ m ⟨p, d, rfl, hd⟩
  refine ⟨p, _, rfl, fun n => ?_⟩
  obtain ⟨i, hi⟩ := latch_saddle { s with pcie := p, sad := d } m n 1
  exact (congrArg Saddle.q hi).trans (hd n)

/-- A transition between PARK and STAGE writes the mode, the log and the causes, and leaves every queue. -/
theorem putMode_parkToStage {s : State} (h : s.pw.mode = .park) :
    ∃ v p d, putMode s .stage = { s with pw := inMode s .stage, evt := v, pcie := p, sad := d } ∧ ∀ n : SadNo, d[n].q = s.sad[n].q := by
  obtain ⟨v, p, hl⟩ : ∃ v p, logMode { s with pw := inMode s .stage } .park .stage = { s with pw := inMode s .stage, evt := v, pcie := p } :=
    logE_chip _ _ _ _ _
  obtain ⟨p', d, hm, hd⟩ := modeAttention_eq { s with pw := inMode s .stage, evt := v, pcie := p }
  refine ⟨v, p', d, ?_, hd⟩
  have hp : putMode s .stage = modeAttention (logMode { s with pw := inMode s .stage } .park .stage) := by
    unfold putMode
    simp only [h]
    rfl
  rw [hp, hl, hm]

/-- The end of a transition, where its steps have ended: its target is in force, and its MODE completes (R33). -/
theorem endTrans_done {s : State} {tr : Trans} (ht : s.pw.trans = some tr) (hd : tr.done = true) :
    endTrans s = match tr.tag with
      | some g => complete (putMode { s with pw := { s.pw with trans := none, cause := if tr.source == .halt then .none else s.pw.cause } } tr.target)
          tr.ch g { status := .ok, fields := [fld "mode" (Mode.name tr.target)] }
      | none => putMode { s with pw := { s.pw with trans := none, cause := if tr.source == .halt then .none else s.pw.cause } } tr.target := by
  unfold endTrans
  rw [ht]
  dsimp only
  rw [hd] <;> rfl

/-- Settles O42: MODE asks, its transition ends at a boundary with its target in force, and a HALT cause enters HALT. -/
theorem modeChanges : Obligations.ModeChanges := by
  refine ⟨fun s ch t m h => ?_, fun s hl => ?_, fun s hd => ?_, fun s tr ht hd => ?_, fun s tr k e ht hd hk he hn hp hst => ?_,
    fun s c hp hm hr => ?_, fun s h => ?_⟩
  · refine goesOn_of_verbRow_begun (body := modeAsk ch m) rfl h ?_ rfl rfl
    cases ch <;> rfl
  · exact act_live_kept hl _ rfl rfl
  · unfold endTrans
    split
    · rfl
    · next tr ht => exact if_pos (congrArg not (hd tr ht))
  · obtain ⟨-, -, hpw, hcom, hzero, hkeys⟩ := putMode_chip
      { s with pw := { s.pw with trans := none, cause := if tr.source == .halt then .none else s.pw.cause } } tr.target
    have hc : chip (endTrans s) = chip (putMode
        { s with pw := { s.pw with trans := none, cause := if tr.source == .halt then .none else s.pw.cause } } tr.target) := by
      rw [endTrans_done ht hd]
      split
      · exact (complete_chip _ _ _ _).1
      · rfl
    simp only [chip, Prod.mk.injEq] at hc
    obtain ⟨-, -, hpw', hk', hcom'⟩ := hc
    rw [hpw] at hpw'
    refine ⟨?_, ?_, ?_, hcom'.trans hcom, fun h1 h2 => ?_, fun h => hk'.trans (hkeys h)⟩
    · rw [hpw']; rfl
    · rw [hpw']; rfl
    · rw [hpw']; rfl
    · rw [hk']; exact hzero h1 h2
  · obtain ⟨v, p, d, hm, hd'⟩ := putMode_parkToStage
      (s := { s with pw := { s.pw with trans := none, cause := if tr.source == .halt then .none else s.pw.cause } }) hp
    rw [endTrans_done ht hd, hk, hst, hm]
    refine ⟨complete_ended (e := e) ?_ hn _, ?_⟩
    · rw [← he]
      cases hch : tr.ch with
      | adm => rfl
      | sad n => exact congrArg (fun q : Queue => q.entries.find? _) (hd' n)
    · dsimp only
      cases tr.ch <;> exact ⟨rfl, rfl, rfl, rfl⟩
  · obtain ⟨-, -, ⟨dm, pf, hpw⟩, hsrv, -, -⟩ := haltEntry_enters hp hm hr
    rw [hpw]
    exact ⟨rfl, rfl, rfl, rfl, hsrv⟩
  · unfold haltEntry
    split
    · rfl
    · next c hc =>
      obtain h | h := h
      · exact absurd (hc.symm.trans h) nofun
      · exact if_pos h

end Sys2Proof.Machine
end

section
/-! SUPPORT. WRITE and MARK start, TIME and LOG (R146, R190, R203, R210, R211, R222, R498). -/

namespace Sys2Proof.Machine

open Sys2Proof

/-- A verb whose effect is a change of its own entry: what becomes of that entry. -/
theorem marks_of_verbRow {c : Instr} {s u : State} {ch : Chan} {t : Nat} {v : Verb} {e : Entry} {body : Nat → State → State}
    (f : Entry → Entry) (hx : exec c s = verbRow ch (some t) v body s) (h : Runs s ch t v) (he : entryOf s ch t = some e)
    (hb : body t (withQueue (quiet s) ch (begunQueue s ch t)) = modEntry (withQueue u ch (begunQueue s ch t)) ch t f)
    (hf : ∀ e, (f e).tag = e.tag) (hk : u.clk = s.clk) (hp : u.pending = s.pending) :
    ∃ q, exec c s = .next (withQueue u ch q) ∧ entryOf (withQueue u ch q) ch t = some (f { e with begun := true }) ∧
      OthersKept s (withQueue u ch q) ch t := by
  refine ⟨{ entries := (begunQueue s ch t).entries.map fun e => if e.tag == t then f e else e }, ?_, ?_, ?_⟩
  · rw [hx, verbRow_runs h, begins_eq, hb, modEntry_withQueue_eq, ← hk, ← hp]
    cases ch <;> rfl
  · rw [← modEntry_withQueue_eq, entryOf_modEntry _ _ _ _ hf, entryOf_begun he]
    rfl
  · rw [← modEntry_withQueue_eq]
    exact others_kept s u ch t f hf

/-- The room that a saddle's caddies have does not rest on how far a command has come. -/
theorem roomFor_begun (s : State) (n : SadNo) (t full extra : Nat) :
    roomFor (withQueue (quiet s) (.sad n) (begunQueue s (.sad n) t)) n full extra = roomFor s n full extra := by
  have hx : (withQueue (quiet s) (.sad n) (begunQueue s (.sad n) t)).sad[n] = { s.sad[n] with q := begunQueue s (.sad n) t } :=
    (modSad_get _ _ _ _).trans (if_pos rfl)
  have hl : leadBytes (withQueue (quiet s) (.sad n) (begunQueue s (.sad n) t)) n = leadBytes s n := by
    unfold leadBytes
    rw [hx]
    rfl
  have hm : (begunQueue s (.sad n) t).entries.map (fun e => if e.ended.isNone then e.data.length else 0) =
      s.sad[n].q.entries.map fun e => if e.ended.isNone then e.data.length else 0 := by
    rw [begunQueue, List.map_map]
    refine List.map_congr_left fun e _ => ?_
    simp only [Function.comp]
    split <;> rfl
  unfold roomFor
  rw [hx, hl]
  dsimp only
  rw [hm]

/-- The entry of a command whose effect is due has no outcome yet. -/
theorem Runs.entry {s : State} {ch : Chan} {t : Nat} {v : Verb} (h : Runs s ch t v) : ∃ e, entryOf s ch t = some e ∧ e.ended = none := by
  obtain ⟨-, -, -, e, he, -, -, -, hn⟩ := h
  exact ⟨e, he, hn⟩

/-- Words on a line are 8 bytes each. -/
theorem length_words (l : List W64) : (l.flatMap fun w => beBytes 8 w.toNat).length = 8 * l.length := by
  have hb (w : W64) : (beBytes 8 w.toNat).length = 8 := by simp [beBytes]
  induction l with
  | nil => rfl
  | cons w t ih => rw [List.flatMap_cons, List.length_append, hb, ih, List.length_cons]; omega

/-- Settles O43: each start is a change of the command's entry alone, by whether its words find room. -/
theorem writesStart : Obligations.WritesStart := by
  intro s n t
  refine ⟨fun a l h ha hr => ?_, fun a l h ha hr => ?_, fun a l h ha hb => ?_, fun note h => ?_⟩
  · obtain ⟨e, he, hn⟩ := Runs.entry h
    have hlen : (l.flatMap fun w => beBytes 8 w.toNat).length = 8 * l.length := length_words l
    obtain ⟨q, hx, hq, ho⟩ := marks_of_verbRow (c := .write n (some t) a) (body := writeVerb n a) (u := quiet s)
      (fun e => { e with data := l.flatMap fun w => beBytes 8 w.toNat, got := (l.flatMap fun w => beBytes 8 w.toNat).length, why := .none })
      rfl h he (by
        unfold writeVerb
        rw [ha]
        dsimp only
        rw [if_pos (by rw [hlen]; exact (roomFor_begun s n t _ _).trans hr)]) (fun _ => rfl) rfl rfl
    exact ⟨q, _, hx, hq, hn, rfl, rfl, ho⟩
  · obtain ⟨e, he, hn⟩ := Runs.entry h
    have hlen : (l.flatMap fun w => beBytes 8 w.toNat).length = 8 * l.length := length_words l
    obtain ⟨q, hx, hq, ho⟩ := marks_of_verbRow (c := .write n (some t) a) (body := writeVerb n a) (u := quiet s) (fun e => { e with begun := false, why := .pool })
      rfl h he (by
        unfold writeVerb
        rw [ha]
        dsimp only
        rw [if_neg (by rw [hlen]; exact ne_true_of_eq_false ((roomFor_begun s n t _ _).trans hr))]) (fun _ => rfl) rfl rfl
    exact ⟨q, _, hx, hq, hn, rfl, rfl, ho⟩
  · refine goesOn_of_verbRow_begun (body := writeVerb n a) rfl h ?_ rfl rfl
    unfold writeVerb
    rw [ha]
    dsimp only
    split
    · next p hp => exact absurd hp (hb p)
    · rfl
  · exact goesOn_of_verbRow_begun (body := fun _ s => s) rfl h rfl rfl rfl

/-! ### TIME and LOG -/

/-- What a record that is staged leaves in the log rests on the log alone. -/
theorem stage_evt {s u : State} (h : u.evt = s.evt) (e : Evt) : (stage u e).evt = (stage s e).evt := by
  unfold stage
  rw [h]
  extract_lets ev waiting drop
  split
  · rfl
  · split <;> rfl

/-- TIME's record on the event log, and nothing else. -/
theorem timeEvent_eq {s u : State} (h : u.evt = s.evt) (hc : u.clk.session = s.clk.session) (src : Nat) (ptc : W64) (v : Int) (x : String) :
    timeEvent u src ptc v x = { u with evt := (timeEvent s src ptc v x).evt } := by
  unfold timeEvent
  rw [hc]
  obtain ⟨w, hw⟩ := stage_eq u { ptc := ptc, session := s.clk.session, sev := .info, src := src, code := 0x0207,
                                 body := [("t", 8, twos 64 v)], text := some x }
  rw [← stage_evt h, hw]

/-- What a sector sent for erasure leaves in flash rests on the flash state alone. -/
theorem startErase_fl {s u : State} (h : u.fl = s.fl) (k : Nat) : (startErase u k).fl = (startErase s k).fl := by
  simp only [startErase, appendLog_fl h, h]
  split <;> rfl

/-- A record stands in flash, before the sector ahead of it is erased (R498). -/
def inFlash (s : State) (e : Evt) : State :=
  { s with
    fl := { s.fl with
      ring := (s.fl.ring ++ [e]).filter fun x => ringSector x.seq ≠ (ringSector e.seq + 1) % 2048, ringAt := some s.clk.ptc
      ringBad := s.fl.ringBad.filter fun q => ringSector q ≠ (ringSector e.seq + 1) % 2048 && q ≠ e.seq }
    evt := { s.evt with flashed := e.seq, copied := (e.seq + 1) % 2 ^ 32 } }

theorem copyEvt_eq (s : State) (e : Evt) : copyEvt s e =
    if (s.fl.ring ++ [e]).any fun x => ringSector x.seq = (ringSector e.seq + 1) % 2048
    then startErase (inFlash s e) (0x200 + (ringSector e.seq + 1) % 2048) else inFlash s e := rfl

/-- A record's copy writes the log and the flash state only, by what they hold. -/
theorem copyEvt_parts (s : State) (e : Evt) : ∃ f v, copyEvt s e = { s with fl := f, evt := v } := by
  rw [copyEvt_eq]
  split
  · obtain ⟨f, hf⟩ := startErase_eq (inFlash s e) (0x200 + (ringSector e.seq + 1) % 2048)
    exact ⟨f, _, hf⟩
  · exact ⟨_, _, rfl⟩

theorem copyEvt_same {s u : State} (hk : u.clk = s.clk) (hf : u.fl = s.fl) (hv : u.evt = s.evt) (e : Evt) :
    (copyEvt u e).clk = (copyEvt s e).clk ∧ (copyEvt u e).fl = (copyEvt s e).fl ∧ (copyEvt u e).evt = (copyEvt s e).evt := by
  have hi : (inFlash u e).fl = (inFlash s e).fl ∧ (inFlash u e).evt = (inFlash s e).evt := by
    simp only [inFlash, hf, hv, hk, and_self]
  obtain ⟨g, hg⟩ := startErase_eq (inFlash s e) (0x200 + (ringSector e.seq + 1) % 2048)
  obtain ⟨g', hg'⟩ := startErase_eq (inFlash u e) (0x200 + (ringSector e.seq + 1) % 2048)
  have hfl := startErase_fl hi.1 (0x200 + (ringSector e.seq + 1) % 2048)
  rw [copyEvt_eq, copyEvt_eq, hf]
  split
  · refine ⟨?_, hfl, ?_⟩
    · rw [hg, hg']; exact hk
    · rw [hg, hg']; exact hi.2
  · exact ⟨hk, hi⟩

/-- The records that are not in flash yet, the newest that fit (R498). -/
def toCopy (s : State) : List Evt :=
  (s.evt.ring.filter fun e => seqFrom s.evt.copied e.seq).drop
    ((s.evt.ring.filter fun e => seqFrom s.evt.copied e.seq).length - flashRing)

/-- Every record of the log is copied. -/
def allCopied (s : State) : State := { s with evt := { s.evt with copied := s.evt.next } }

theorem saveAll_copies (s : State) : saveAll s = allCopied ((toCopy s).foldl copyEvt s) := by
  unfold saveAll allCopied toCopy
  generalize flashRing = k
  rfl

theorem copies_same (l : List Evt) : ∀ {s u : State}, u.clk = s.clk → u.fl = s.fl → u.evt = s.evt →
    (l.foldl copyEvt u).fl = (l.foldl copyEvt s).fl ∧ (l.foldl copyEvt u).evt = (l.foldl copyEvt s).evt := by
  induction l with
  | nil => exact fun _ hf hv => ⟨hf, hv⟩
  | cons e l ih =>
    intro s u hk hf hv
    obtain ⟨h1, h2, h3⟩ := copyEvt_same hk hf hv e
    exact ih h1 h2 h3

/-- Copying records writes the log and the flash state only, by what they hold. -/
theorem saveAll_eq {s u : State} (hk : u.clk = s.clk) (hf : u.fl = s.fl) (hv : u.evt = s.evt) :
    saveAll u = { u with fl := (saveAll s).fl, evt := (saveAll s).evt } := by
  have hc : toCopy u = toCopy s := by
    unfold toCopy
    rw [hv]
  obtain ⟨h1, h2⟩ := copies_same (toCopy s) hk hf hv
  obtain ⟨f, v, hu⟩ := foldl_keeps (fun t => ∃ f v, t = { u with fl := f, evt := v }) copyEvt
    (by
      rintro _ e ⟨f, v, rfl⟩
      obtain ⟨f', v', h⟩ := copyEvt_parts { u with fl := f, evt := v } e
      exact ⟨f', v', h⟩) (toCopy s) u ⟨_, _, rfl⟩
  have hw (w : State) (h1 : (List.foldl copyEvt u (toCopy s)).fl = w.fl) (h2 : (List.foldl copyEvt u (toCopy s)).evt = w.evt) :
      allCopied (List.foldl copyEvt u (toCopy s)) = { u with fl := (allCopied w).fl, evt := (allCopied w).evt } := by
    rw [hu] at h1 h2 ⊢
    subst h1 h2
    rfl
  calc saveAll u = allCopied ((toCopy u).foldl copyEvt u) := saveAll_copies u
    _ = allCopied ((toCopy s).foldl copyEvt u) := by rw [hc]
    _ = { u with fl := (allCopied ((toCopy s).foldl copyEvt s)).fl, evt := (allCopied ((toCopy s).foldl copyEvt s)).evt } := hw _ h1 h2
    _ = { u with fl := (saveAll s).fl, evt := (saveAll s).evt } := by rw [saveAll_copies s]

theorem logSave_saves {s : State} (hp : pfInForce s = false) (he : s.fl.erasing = none) (t : Nat) :
    logSave t s = okWith (saveAll s) .adm t [fnum "seq" (saveAll s).evt.flashed] :=
  (if_neg (ne_true_of_eq_false hp)).trans (if_neg (ne_true_of_eq_false (congrArg Option.isSome he)))

/-- The log and the flash state of another state, put beside a queue. -/
theorem withQueue_flash (s w : State) (q : Queue) : { withQueue (quiet s) .adm q with fl := w.fl, evt := w.evt } =
    withQueue { quiet s with fl := w.fl, evt := w.evt } .adm q := rfl

/-- The admin channel's TIME with a cartridge loaded, and without one (R203). -/
theorem timeVerb_loaded {s u : State} (he : u.evt = s.evt) (hk : u.clk = s.clk) (hc : u.cart.loaded = true) (v : Option Int)
    (x : Option String) (t : Nat) : timeVerb .adm v x t u = okWith { heldLog u 3 0xFF (twos 64 (v.getD 0)) with
      evt := (timeEvent s srcAdm s.clk.ptc (v.getD 0) (x.getD "")).evt } .adm t
      [fnum "ptc" (now s), fld "sid" (sidStr s.clk.session), fld "where" "CM"] := by
  have h : timeVerb .adm v x t u = let w := timeEvent (heldLog u 3 0xFF (twos 64 (v.getD 0))) srcAdm u.clk.ptc (v.getD 0) (x.getD "")
      okWith w .adm t [fnum "ptc" (now w), fld "sid" (sidStr w.clk.session), fld "where" "CM"] := by
    unfold timeVerb
    extract_lets record owner
    exact (if_neg (by simp)).trans (if_pos hc)
  rw [h, timeEvent_eq (s := s) (u := heldLog u 3 0xFF (twos 64 (v.getD 0))) he (congrArg Clk.session hk)]
  dsimp only
  rw [now, now, ← hk]
  rfl

theorem timeVerb_unloaded {s u : State} (he : u.evt = s.evt) (hk : u.clk = s.clk) (hc : u.cart.loaded = false) (v : Option Int)
    (x : Option String) (t : Nat) : timeVerb .adm v x t u = okWith { u with
      evt := (timeEvent s srcAdm s.clk.ptc (v.getD 0) (x.getD "")).evt } .adm t
      [fnum "ptc" (now s), fld "sid" (sidStr s.clk.session), fld "where" "EVENT"] := by
  have h : timeVerb .adm v x t u = let w := timeEvent u srcAdm u.clk.ptc (v.getD 0) (x.getD "")
      okWith w .adm t [fnum "ptc" (now w), fld "sid" (sidStr w.clk.session), fld "where" "EVENT"] := by
    unfold timeVerb
    extract_lets record owner
    exact (if_neg (by simp)).trans (if_neg (ne_true_of_eq_false hc))
  rw [h, timeEvent_eq (s := s) (u := u) he (congrArg Clk.session hk)]
  dsimp only
  rw [now, now, ← hk]

/-- Settles O47: TIME by its channel and the cartridge, LOG by the room that it finds. -/
theorem timeAndLog : Obligations.TimeAndLog := by
  intro s t
  refine ⟨fun n v x h hm => ?_, fun v x h hc => ?_, fun v x h hc => ?_, fun ch x h hr => ?_, fun ch x h hr => ?_, fun h hp => ?_,
    fun h hp he => ?_⟩
  · refine goesOn_of_verbRow_begun (body := timeVerb (.sad n) v x) rfl h (if_pos ?_) rfl rfl
    exact Bool.and_eq_true_iff.2 ⟨rfl, beq_iff_eq.2 hm⟩
  · obtain ⟨q, h1, h2, -⟩ := endsAs_of_verbRow (c := .time .adm (some t) v x) (body := timeVerb .adm v x)
      (u := { heldLog (quiet s) 3 0xFF (twos 64 (v.getD 0)) with evt := (timeEvent s srcAdm s.clk.ptc (v.getD 0) (x.getD "")).evt }) rfl h
      (timeVerb_loaded (s := s) (u := withQueue (quiet s) .adm (begunQueue s .adm t)) rfl rfl hc v x t) rfl rfl
    exact ⟨_, h1, h2, List.length_append, rfl, rfl⟩
  · obtain ⟨q, h1, h2, -⟩ := endsAs_of_verbRow (c := .time .adm (some t) v x) (body := timeVerb .adm v x)
      (u := { quiet s with evt := (timeEvent s srcAdm s.clk.ptc (v.getD 0) (x.getD "")).evt }) rfl h
      (timeVerb_unloaded (s := s) (u := withQueue (quiet s) .adm (begunQueue s .adm t)) rfl rfl hc v x t) rfl rfl
    exact ⟨_, h1, h2, rfl, rfl, rfl⟩
  · refine goesOn_of_verbRow (body := logText ch x) (fun e => { e with awaitSeq := true, why := .none }) rfl h ?_
      (fun _ => ⟨rfl, rfl, rfl, rfl⟩) rfl rfl
    cases ch <;> exact if_pos hr
  · refine goesOn_of_verbRow (body := logText ch x) (fun e => { e with why := .engine }) rfl h ?_ (fun _ => ⟨rfl, rfl, rfl, rfl⟩) rfl rfl
    cases ch <;> exact if_neg (Nat.not_lt.2 hr)
  · by_cases hp' : pfInForce s = true
    · exact goesOn_of_verbRow (body := logSave) (fun e => { e with why := .power }) rfl h (if_pos hp') (fun _ => ⟨rfl, rfl, rfl, rfl⟩) rfl rfl
    · exact goesOn_of_verbRow (body := logSave) (fun e => { e with why := .engine }) rfl h ((if_neg hp').trans
        (if_pos (hp.resolve_left hp'))) (fun _ => ⟨rfl, rfl, rfl, rfl⟩) rfl rfl
  · have hq := saveAll_eq (s := s) (u := withQueue (quiet s) .adm (begunQueue s .adm t)) rfl rfl rfl
    have hb := (logSave_saves (s := withQueue (quiet s) .adm (begunQueue s .adm t)) hp he t).trans
      (congrArg (fun u => okWith u .adm t [fnum "seq" u.evt.flashed]) (hq.trans (withQueue_flash s (saveAll s) _)))
    exact endsAs_of_verbRow (body := logSave) rfl h hb rfl rfl

end Sys2Proof.Machine
end

section
/-! SUPPORT. Cartridge memory (R179, R390, R391). -/

namespace Sys2Proof.Machine

open Sys2Proof

/-- A CM command whose cartridge answers, with no field in the way, acts at once; in a field it waits (R179, R390). -/
theorem cmAsk_acts {s : State} (hl : s.cart.loaded = true) (hp : s.cart.present = true) (hf : s.cart.field = false) {t : Nat} {e : Entry}
    (he : entryOf s .adm t = some e) : cmAsk t s = cmPerform s e := by
  simp [cmAsk, hl, hp, hf, he]

theorem cmAsk_absent {s : State} (hl : s.cart.loaded = true) (hp : s.cart.present = false) (t : Nat) :
    cmAsk t s = complete s .adm t cmAbsent := by
  simp [cmAsk, hl, hp]

theorem cmAsk_field {s : State} (hl : s.cart.loaded = true) (hp : s.cart.present = true) (hf : s.cart.field = true) (t : Nat) :
    cmAsk t s = setWhy (cmDefer s) .adm t .field := by
  simp [cmAsk, hl, hp, hf]

/-- What a part of cartridge memory tells rests on the cartridge alone. -/
theorem cmFields_cart {s u : State} (hm : u.cart.mem = s.cart.mem) (hl : u.cart.loads = s.cart.loads) (p : CmPart) :
    cmFields u p = cmFields s p ∧ cmLines u p = cmLines s p := by
  unfold cmFields cmLines
  rw [hm, hl]
  exact ⟨rfl, rfl⟩

theorem cmPerform_read {e : Entry} {p : CmPart} (hv : e.verb = .cmRead p) {s u : State} (hc : u.cart.mem = s.cart.mem)
    (hl : u.cart.loads = s.cart.loads) : cmPerform u e = okWith u .adm e.tag (cmFields s p) (cmLines s p) := by
  have hf : cmFields u p = cmFields s p ∧ cmLines u p = cmLines s p := cmFields_cart hc hl p
  unfold cmPerform
  rw [hv, ← hf.1, ← hf.2]

theorem cmPerform_repair {e : Entry} (hv : e.verb = .cmRepair) (s : State) :
    cmPerform s e = okWith (cmRepairNow s) .adm e.tag [fnum "eod" (cmRepairNow s).cart.eodDsn] := by
  unfold cmPerform
  rw [hv]

/-- Both directory copies written with one directory (R179). -/
def bothDirs (s : State) (d : Dir) : State :=
  let u := putDir (putDir s d) d
  { u with cart := { u.cart with eodDsn := d.eod, marked := u.cart.marked && d.opened } }

theorem cmRepairNow_writes (s : State) : cmRepairNow s = bothDirs (writeHeld s) (repairDir (writeHeld s)) := rfl

/-- What REPAIR leaves in the cartridge, and that it writes nothing else (R179). -/
theorem cmRepairNow_eq (s : State) : ∃ c, cmRepairNow s = { s with cart := c } ∧ c.seqDir = s.cart.seqDir + 2 ∧ c.copyB = s.cart.copyB ∧
    c.heldEpochs = [] ∧ c.heldLogs = [] ∧ c.eodDsn = (repairDir s).eod ∧ c.opened = (repairDir s).opened := by
  have hr : (repairDir (writeHeld s)).eod = (repairDir s).eod ∧ (repairDir (writeHeld s)).opened = (repairDir s).opened := by
    have ht : (writeHeld s).cart.tail = s.cart.tail := rfl
    unfold repairDir
    rw [ht]
    constructor <;> split <;> rfl
  have hw : ∃ c, writeHeld s = { s with cart := c } ∧ c.seqDir = s.cart.seqDir ∧ c.copyB = s.cart.copyB ∧ c.heldEpochs = [] ∧
    c.heldLogs = [] := ⟨_, rfl, rfl, rfl, rfl, rfl⟩
  obtain ⟨c, hc, h1, h2, h3, h4⟩ := hw
  rw [← hr.1, ← hr.2, cmRepairNow_writes, hc]
  generalize repairDir { s with cart := c } = d
  exact ⟨_, rfl, congrArg (· + 2) h1, (Bool.not_not _).trans h2, h3, h4, rfl, rfl⟩

/-- REPAIR leaves the same in the cartridge whatever the admin channel's queue holds. -/
theorem cmRepairNow_adm (s : State) (q : Queue) : cmRepairNow { s with adm := q } = { cmRepairNow s with adm := q } := by
  have hw : ∃ c, writeHeld s = { s with cart := c } ∧ writeHeld { s with adm := q } = { s with adm := q, cart := c } := ⟨_, rfl, rfl⟩
  obtain ⟨c, h1, h2⟩ := hw
  have hd : repairDir { s with adm := q, cart := c } = repairDir { s with cart := c } := rfl
  rw [cmRepairNow_writes, cmRepairNow_writes, h1, h2, hd]
  generalize repairDir { s with cart := c } = d
  rfl

/-- What a CM command's entry is when its effect is due. -/
theorem Runs.cmEntry {s : State} {t : Nat} {v : Verb} (h : Runs s .adm t v) : ∃ e, e.verb = v ∧ e.tag = t ∧
    entryOf (withQueue (quiet s) .adm (begunQueue s .adm t)) .adm t = some e := by
  obtain ⟨-, -, -, e, he, -, hv, -, -⟩ := h
  have ht : e.tag = t := by simpa using List.find?_some he
  exact ⟨{ e with begun := true }, hv, ht, entryOf_begun he _⟩

/-- The directory that REPAIR writes: from the tail data set, or what is held without one (R179). -/
theorem repairDir_none {s : State} (h : s.cart.tail = none) :
    (repairDir s).eod = s.cart.eodDsn ∧ (repairDir s).opened = s.cart.marked := by
  simp [repairDir, dirNow, h]

theorem repairDir_tail {s : State} {b : List Byte} {d : Nat} {x : Dir} (h : s.cart.tail = some (b, d)) (hb : parseDir b = some x) :
    (repairDir s).eod = d ∧ (repairDir s).opened = false := by
  simp [repairDir, dirNow, h, hb]

/-- The operations that wait for the antenna end, and nothing but the admin channel's queue changes. -/
theorem cmFails_adm (l : List Entry) (s : State) :
    ∃ q, l.foldl (fun s e => complete s .adm e.tag cmAbsent) s = { s with adm := q } :=
  foldl_keeps (fun u => ∃ q, u = { s with adm := q }) _ (by rintro _ e ⟨q, rfl⟩; exact ⟨_, rfl⟩) l s ⟨_, rfl⟩

/-- CM_TIMEOUT: a cartridge that is not yet marked in STREAM is read-only from then on (R385, R390). -/
theorem cmTimeout_eq (s : State) : ∃ q, cmTimeout s = { s with adm := q, cart := { s.cart with
      cmWait := none, readonly := s.cart.readonly || (s.pw.mode == .stream && !s.cart.marked && s.cart.loaded) } } ∧
    { s with adm := q, cart := { s.cart with cmWait := none } } =
      (cmWaiting s).foldl (fun s e => complete s .adm e.tag cmAbsent) { s with cart := { s.cart with cmWait := none } } := by
  obtain ⟨q, hq⟩ := cmFails_adm (cmWaiting s) { s with cart := { s.cart with cmWait := none } }
  refine ⟨q, ?_, hq.symm⟩
  have h : cmTimeout s = (if s.pw.mode == .stream && !s.cart.marked && s.cart.loaded
      then { s with adm := q, cart := { s.cart with cmWait := none, readonly := true } }
      else { s with adm := q, cart := { s.cart with cmWait := none } }) := by
    unfold cmTimeout
    extract_lets _ u w
    have hw : w = { s with adm := q, cart := { s.cart with cmWait := none } } := hq
    clear_value w
    subst hw
    rfl
  rw [h]
  split
  · next hc => rw [hc, Bool.or_true]
  · next hc => rw [eq_false_of_ne_true hc, Bool.or_false]

/-- A command that waits for the antenna is open. -/
theorem cmWaiting_open {s : State} {e : Entry} (h : e ∈ cmWaiting s) : e.ended = none := by
  have := (List.mem_filter.1 h).2
  simp only [Bool.and_eq_true, Entry.open_, Option.isNone_iff_eq_none] at this
  exact this.1.1

/-- CM_BACKOFF_EXPIRY without a field, while one operation waits, is that operation, out of STREAM (R390). -/
theorem cmBackoff_performs {s u : State} {mv : Nat} {e : Entry} (hs : senseField mv s = u) (hf : u.cart.field = false)
    (hw : cmWaiting u = [e]) (hm : (cmPerform { u with cart := { u.cart with cmWait := none } } e).pw.mode ≠ .stream) :
    cmBackoff mv s = cmPerform { u with cart := { u.cart with cmWait := none } } e := by
  subst hs
  have hc : (cmWaiting { senseField mv s with cart := { (senseField mv s).cart with cmWait := none } }).foldl cmPerform
      { senseField mv s with cart := { (senseField mv s).cart with cmWait := none } } =
      cmPerform { senseField mv s with cart := { (senseField mv s).cart with cmWait := none } } e :=
    congrArg (List.foldl cmPerform _) hw
  have hb : cmBackoff mv s = if (senseField mv s).cart.field then cmDefer (senseField mv s) else
      let w := (cmWaiting { senseField mv s with cart := { (senseField mv s).cart with cmWait := none } }).foldl cmPerform
        { senseField mv s with cart := { (senseField mv s).cart with cmWait := none } }
      if w.pw.mode == .stream && !w.cart.marked then openMark w else w := rfl
  rw [hb, if_neg (ne_true_of_eq_false hf), hc]
  exact if_neg (by simpa using fun h => absurd h hm)

/-- Settles O41: a CM command acts, waits or fails by the field and the antenna, at its start and at each later try. -/
theorem cartridgeMemory : Obligations.CartridgeMemory := by
  refine ⟨fun s t p h hl hp hf => ?_, fun s t p h hl hp => ?_, fun s t p h hl hp hf => ?_, fun s t h hm hl hp hf => ?_,
    fun s t h hm => ?_, fun s mv hl hw hd hmv => ?_, fun s mv e p hl hw hd hmv hm hq he hv => ?_, fun s w hl hw ht => ?_⟩
  · obtain ⟨e, hv, rfl, he⟩ := Runs.cmEntry h
    exact endsOnly_of_verbRow (body := cmAsk) rfl h ((cmAsk_acts (s := withQueue (quiet s) .adm _) hl hp hf he).trans
      (cmPerform_read hv (s := s) rfl rfl))
  · exact endsOnly_of_verbRow (body := cmAsk) rfl h (cmAsk_absent (s := withQueue (quiet s) .adm _) hl hp t)
  · refine ⟨{ quiet s with cart := (cmDefer s).cart, free := s.free + 1 }, ?_, rfl, rfl⟩
    exact goesOn_of_verbRow (body := cmAsk) (fun e => { e with why := .field }) rfl h
      (cmAsk_field (s := withQueue (quiet s) .adm _) hl hp hf t) (fun _ => ⟨rfl, rfl, rfl, rfl⟩) rfl rfl
  · obtain ⟨e, hv, rfl, he⟩ := Runs.cmEntry h
    obtain ⟨c, hc, h1, h2, h3, h4, h5, h6⟩ := cmRepairNow_eq (quiet s)
    have hb : cmRepairNow (withQueue (quiet s) .adm (begunQueue s .adm e.tag)) =
        withQueue { quiet s with cart := c } .adm (begunQueue s .adm e.tag) := (cmRepairNow_adm (quiet s) _).trans (by rw [hc]; rfl)
    refine ⟨{ quiet s with cart := c }, ?_, h1, h2, h3, h4, fun hn => ?_, fun b d x ht hb => ?_, rfl⟩
    · refine endsAs_of_verbRow (body := fun t s => if s.pw.mode == .park then complete s .adm t (deniedMode .park) else cmAsk t s) rfl h
        ((if_neg (mt beq_iff_eq.1 hm)).trans ((cmAsk_acts (s := withQueue (quiet s) .adm _) hl hp hf he).trans ?_)) rfl rfl
      rw [cmPerform_repair hv, hb]
      rfl
    · exact ⟨h5.trans (repairDir_none (s := quiet s) hn).1, h6.trans (repairDir_none (s := quiet s) hn).2⟩
    · exact ⟨h5.trans (repairDir_tail (s := quiet s) ht hb).1, h6.trans (repairDir_tail (s := quiet s) ht hb).2⟩
  · exact endsOnly_of_verbRow (body := fun t s => if s.pw.mode == .park then complete s .adm t (deniedMode .park) else cmAsk t s) rfl h
      (if_pos (beq_iff_eq.2 hm))
  · have hs : senseField mv (quiet s) = { quiet s with cart := { s.cart with field := true } } := by
      have : decide (pnat (quiet s) .cmSenseMv < mv) = true := decide_eq_true hmv
      unfold senseField
      rw [this]
      rfl
    have hb : cmBackoff mv (quiet s) = cmDefer { quiet s with cart := { s.cart with field := true } } := by
      unfold cmBackoff
      rw [hs]
      rfl
    exact (actIf_live_kept hl (by simp [hw, hd]) (cmBackoff mv) (by rw [hb]; rfl) (by rw [hb]; rfl)).trans (congrArg _ hb)
  · have hs : senseField mv (quiet s) = { quiet s with cart := { s.cart with field := false } } := by
      have : decide (pnat (quiet s) .cmSenseMv < mv) = false := decide_eq_false (Nat.not_lt.2 hmv)
      unfold senseField
      rw [this]
      rfl
    have hb : cmBackoff mv (quiet s) = okWith { quiet s with cart := { s.cart with field := false, cmWait := none } } .adm e.tag
        (cmFields s p) (cmLines s p) := by
      have hr : cmPerform { quiet s with cart := { s.cart with field := false, cmWait := none } } e = okWith { quiet s with
          cart := { s.cart with field := false, cmWait := none } } .adm e.tag (cmFields s p) (cmLines s p) := cmPerform_read hv rfl rfl
      exact (cmBackoff_performs hs rfl hq (by rw [hr]; exact hm)).trans hr
    have hn : e.ended = none := cmWaiting_open (s := s) (hq ▸ List.mem_singleton_self e)
    refine ⟨_, actIf_live_kept hl (by simp [hw, hd]) (cmBackoff mv) (by rw [hb]; rfl) (by rw [hb]; rfl), ?_⟩
    rw [hb]
    exact ⟨rfl, complete_ended (s := { quiet s with cart := { s.cart with field := false, cmWait := none } }) (ch := .adm) (t := e.tag) he hn _, rfl, rfl⟩
  · obtain ⟨q, hc, hq⟩ := cmTimeout_eq (quiet s)
    refine ⟨_, actIf_live_kept hl (by simp [hw, ht]) cmTimeout (by rw [hc]; rfl) (by rw [hc]; rfl), ?_⟩
    rw [hc]
    refine ⟨rfl, rfl, rfl, fun e he hi => ?_⟩
    have hn : e.ended = none := cmWaiting_open (s := s) (he ▸ List.mem_singleton_self e)
    have hw1 : cmWaiting (quiet s) = [e] := he
    rw [hw1] at hq
    have hadm : q = (complete (quiet s) .adm e.tag cmAbsent).adm := congrArg State.adm hq
    subst hadm
    exact complete_ended (s := quiet s) (ch := .adm) hi hn cmAbsent

end Sys2Proof.Machine
end

section
/-! SUPPORT. Registers that clear when they are read, and the halves of a pair (R431). -/

namespace Sys2Proof.Machine

open Sys2Proof

/-- What a register read gives. -/
theorem readGives_quiet (s : State) (v : Nat) : readGives (quiet s) v = { quiet s with out := { rdata := some (BitVec.ofNat 64 v) } } := rfl

theorem loHalfRead_pair {s : State} {f : FnNo} {off v : Nat} (h : pairAt s f off = some v) :
    loHalfRead f off s = modFn (readGives s (regRead s f off)) f fun x =>
      { x with latch := put (off + 4) (BitVec.ofNat 32 (halfOf v true)) x.latch } := by
  simp only [loHalfRead, h]

/-- The high half of a pair reads what the low half's read latched, or else itself (R431). -/
theorem hiHalfRead_pair {s : State} {f : FnNo} {off : Nat} (h : (pairAt s f off).isSome = true) :
    hiHalfRead f (off + 4) s = match look (off + 4) s.pcie.fn[f].latch with
      | some v => modFn (readGives s v.toNat) f fun x => { x with latch := x.latch.filter (·.1 ≠ off + 4) }
      | none => modFn (readGives s (regRead s f (off + 4))) f fun x => { x with stale := true, halfOff := off + 4 } := by
  have hc : (decide (off + 4 < 4) || (pairAt s f (off + 4 - 4)).isNone) = false := by
    rw [Nat.add_sub_cancel]
    simpa using h
  exact if_neg (ne_true_of_eq_false hc)

/-- A step is its effect, where that writes neither the clock nor what waits. -/
theorem act_effect {s : State} (hl : live s = true) {f : State → State} {u : State} (h : f (quiet s) = u) (hk : u.clk = s.clk)
    (hp : u.pending = s.pending) : act s f = .next u := by
  subst h
  exact act_live_kept hl f hk hp

/-- Settles O58: each read gives its value and clears the bits that its effect names. -/
theorem readsThatClear : Obligations.ReadsThatClear := by
  intro s hl
  refine ⟨?tick, ?pwr, ?con, fun n => ?code, ?pool, fun f => ?ring, fun f => ?half, ?port, ?shock, ?evt, ?flash, fun f off v h => ?lo,
    fun f off v h hv => ?latched, fun f off h hv => ?live⟩
  case tick =>
    change execTickStatRead s = _
    unfold execTickStatRead
    exact act_effect hl rfl rfl rfl
  case pwr =>
    change execPwrStatRead s = _
    unfold execPwrStatRead
    exact act_effect hl rfl rfl rfl
  case con =>
    change execConStatRead s = _
    unfold execConStatRead
    exact act_effect hl rfl rfl rfl
  case code =>
    change execCodeStatRead n s = _
    unfold execCodeStatRead
    exact act_effect hl rfl rfl rfl
  case pool =>
    change execPoolStatRead s = _
    unfold execPoolStatRead
    exact act_effect hl rfl rfl rfl
  case ring =>
    change execRingStatRead f s = _
    unfold execRingStatRead
    exact act_effect hl rfl rfl rfl
  case half =>
    change execHalfStatRead f s = _
    unfold execHalfStatRead
    exact act_effect hl rfl rfl rfl
  case port =>
    change execSpStatRead s = _
    unfold execSpStatRead
    exact act_effect hl rfl rfl rfl
  case shock =>
    change execShockMgRead s = _
    unfold execShockMgRead
    exact act_effect hl rfl rfl rfl
  case evt =>
    change execEvtStatRead s = _
    unfold execEvtStatRead
    exact act_effect hl rfl rfl rfl
  case flash =>
    change execFlashStatRead s = _
    unfold execFlashStatRead
    exact act_effect hl rfl rfl rfl
  case lo => exact act_effect (f := loHalfRead f off) hl (loHalfRead_pair h) rfl rfl
  case latched =>
    refine act_effect (f := hiHalfRead f (off + 4)) hl ((hiHalfRead_pair h).trans ?_) rfl rfl
    have hq : look (off + 4) (quiet s).pcie.fn[f].latch = some v := hv
    rw [hq]
    rfl
  case live =>
    refine act_effect (f := hiHalfRead f (off + 4)) hl ((hiHalfRead_pair h).trans ?_) rfl rfl
    have hq : look (off + 4) (quiet s).pcie.fn[f].latch = none := hv
    rw [hq]
    rfl

end Sys2Proof.Machine
end

section
/-! SUPPORT. Bytes of a session and the console line (R104-R107, R135, R136). -/

namespace Sys2Proof.Machine

open Sys2Proof

/-- A byte that ends no line is the mode's (R104-R106). -/
theorem sesByte_char {s : State} {tr : Transport} {x : Session} {b : Byte} {bad : Bool} (hx : sessionOf s tr = some x) (hr : b ≠ 0x0D)
    (hn : b ≠ 0x0A) : sesByte s tr b bad = if x.mode == .typed
      then keyByte (modSes s tr fun x => { x with afterCr := false }) tr b bad
      else genByte (modSes s tr fun x => { x with afterCr := false }) tr b bad := by
  simp only [sesByte, hx, hr, hn, decide_false, Bool.and_false, Bool.false_and, Bool.or_self, Bool.false_eq_true, if_false]
  cases x.mode <;> rfl

/-- A generated session's line takes the byte while it has room. -/
theorem sesByte_generated {s : State} {tr : Transport} {x : Session} {b : Byte} {bad : Bool} (hx : sessionOf s tr = some x)
    (hm : x.mode = .generated) (hr : b ≠ 0x0D) (hn : b ≠ 0x0A) :
    sesByte s tr b bad = genByte (modSes s tr fun x => { x with afterCr := false }) tr b bad := by
  rw [sesByte_char hx hr hn, hm]
  rfl

theorem sesByte_typed {s : State} {tr : Transport} {x : Session} {b : Byte} {bad : Bool} (hx : sessionOf s tr = some x)
    (hm : x.mode = .typed) (hr : b ≠ 0x0D) (hn : b ≠ 0x0A) :
    sesByte s tr b bad = keyByte (modSes s tr fun x => { x with afterCr := false }) tr b bad := by
  rw [sesByte_char hx hr hn, hm]
  rfl

/-- A printable byte joins the line of a typed session that has room, and is echoed. -/
theorem keyByte_printable {s : State} {tr : Transport} {x : Session} {b : Byte} (hx : sessionOf s tr = some x) (h1 : 0x20 ≤ b.toNat)
    (h2 : b.toNat ≤ 0x7E) (hl : x.line.length < 200) :
    keyByte s tr b false = emit (modSes s tr fun x => { x with line := x.line ++ [b] }) tr [b] := by
  have hb (k : Byte) (hk : k.toNat < 0x20 ∨ 0x7E < k.toNat) : b ≠ k := fun h => by subst h; omega
  have hline : ((sessionOf s tr).map (·.line)).getD [] = x.line := by rw [hx]; rfl
  unfold keyByte
  extract_lets line store
  have hs : line = x.line := hline
  clear_value line
  subst hs
  rw [if_neg (by simp), if_neg (hb _ (.inl (by decide))), if_neg (by simpa using ⟨hb 0x08 (.inl (by decide)), hb 0x7F (.inr (by decide))⟩),
    if_neg (hb _ (.inl (by decide))), if_pos (by simp [h1, h2])]
  exact if_neg (Nat.not_le.2 hl)

theorem genByte_room {s : State} {tr : Transport} (b : Byte) (bad : Bool) {x : Session} (hx : sessionOf s tr = some x)
    (hl : x.line.length < 200) :
    genByte s tr b bad = modSes s tr fun x => { x with line := x.line ++ [b], badChar := x.badChar || bad } := by
  cases tr with
  | console =>
    cases hx
    simp only [genByte, modSes, Nat.not_le.2 hl, if_false]
  | sp p =>
    cases hx
    simp only [genByte, modSes, modPort, Nat.not_le.2 hl, if_false]
  | pf0 => cases hx
  | vf n => cases hx

/-- What the console writes back is on its line alone. -/
theorem echo_console (s : State) (l : List Byte) :
    ∃ w o, echo s .console l = { s with fil := { s.fil with con := { s.fil.con with out := w } }, out := o } := by
  unfold echo
  split
  · exact ⟨_, _, rfl⟩
  · exact ⟨_, _, rfl⟩

/-- CR ends the line, which waits for intake (R104). -/
theorem sesByte_cr (s : State) : ∃ w o, sesByte s .console 0x0D false = { s with
    fil := { s.fil with
      con := { s.fil.con with line := [], long := false, badChar := false, afterCr := true, out := w }
      waiting := put .console (((look .console s.fil.waiting).getD []) ++
        [{ bytes := s.fil.con.line, long := s.fil.con.long, badChar := s.fil.con.badChar, gen := s.fil.con.mode == .generated }])
        s.fil.waiting }
    out := o } := by
  have h : sesByte s .console 0x0D false = endLine s .console true := rfl
  rw [h, endLine]
  exact echo_console _ _

/-- A BREAK has cleared the partly entered line (R135). -/
def breakSeen (s : State) : State :=
  { s with fil := { s.fil with con := { s.fil.con with line := [], long := false, badChar := false, afterCr := false }, conBreak := true } }

theorem exec_consoleBreak (k : Nat) (s : State) : exec (.consoleBreak k) s =
    actIf s (20 ≤ k && 2 * k < s.fil.baud && !s.fil.conIgnore) fun s =>
      echo (breakSeen s) .console (crlf ++ ascii (promptOf (breakSeen s) .console)) := rfl

/-- The console line as a restore leaves it (R136). -/
def conRestoredTo (s : State) : State := { s with
  cfg := { s.cfg with session := put { id := .consoleSeat } (.n 0) s.cfg.session }
  fil := { s.fil with
    con := { s.fil.con with mode := .typed, next := none, line := [], long := false, badChar := false, afterCr := false }
    baud := 115200, baudPend := none, baudLeft := none, baudHeld := true, conRestored := true } }

theorem exec_consoleRestore (s : State) : exec .consoleRestore s = act s conRestoredTo := rfl

/-- Settles O19: each byte and each level of the console line, by the session's mode. -/
theorem consoleLineSteps : Obligations.ConsoleLineSteps := by
  refine ⟨fun b s hl hi hm h1 h2 hn => ?_, fun b bad s hl hi hm hr hn hk => ?_, fun s hl hi => ?_, fun k s hl hi h1 h2 => ?_,
    fun s hl => ?_, fun s hl hf => ?_, fun k s hl hf => ?_⟩
  · have hb (k : Byte) (hk : k.toNat < 0x20 ∨ 0x7E < k.toNat) : b ≠ k := fun h => by subst h; omega
    have hx : sesByte (quiet s) .console b false = { s with
        fil := { s.fil with con := { s.fil.con with line := s.fil.con.line ++ [b], out := s.fil.con.out ++ [b], afterCr := false } }
        out := { con := [b] } } := by
      rw [sesByte_typed (x := s.fil.con) rfl hm (hb _ (.inl (by decide))) (hb _ (.inl (by decide))),
        keyByte_printable (x := { s.fil.con with afterCr := false }) rfl h1 h2 hn]
      rfl
    exact (actIf_live_kept hl (by simp [hi]) (fun s => sesByte s .console b false) (by rw [hx]) (by rw [hx])).trans (congrArg _ hx)
  · have hx : sesByte (quiet s) .console b bad = { quiet s with
        fil := { s.fil with
          con := { s.fil.con with line := s.fil.con.line ++ [b], badChar := s.fil.con.badChar || bad, afterCr := false } } } := by
      rw [sesByte_generated (x := s.fil.con) rfl hm hr hn, genByte_room (x := { s.fil.con with afterCr := false }) b bad rfl hk]
      rfl
    exact (actIf_live_kept hl (by simp [hi]) (fun s => sesByte s .console b bad) (by rw [hx]; rfl) (by rw [hx]; rfl)).trans
      (congrArg _ hx)
  · obtain ⟨w, o, hx⟩ := sesByte_cr (quiet s)
    have hs := actIf_live hl (c := !s.fil.conIgnore) (by simp [hi]) (fun s => sesByte s .console 0x0D false)
    rw [hx] at hs
    exact ⟨_, hs, rfl, rfl, look_put_same _ _ _, rfl, rfl⟩
  · have hs := actIf_live hl (c := 20 ≤ k && 2 * k < s.fil.baud && !s.fil.conIgnore) (by simp [hi, h1, h2]) fun s =>
      echo (breakSeen s) .console (crlf ++ ascii (promptOf (breakSeen s) .console))
    obtain ⟨w, o, hx⟩ := echo_console (breakSeen (quiet s)) (crlf ++ ascii (promptOf (breakSeen (quiet s)) .console))
    rw [hx, ← exec_consoleBreak] at hs
    exact ⟨_, hs, rfl, rfl, rfl, rfl, rfl, rfl⟩
  · have hs := act_live hl conRestoredTo
    rw [← exec_consoleRestore] at hs
    exact ⟨_, hs, rfl, rfl, rfl, look_put_same _ _ _, rfl, rfl, rfl, rfl⟩
  · have hc := logE_chip { quiet s with fil := { s.fil with conFault := true, conIgnore := true } } .warn 0x0902
      [("ticks", 4, 2000000000 / s.tk.periodNs)] none
    obtain ⟨v, p, hc⟩ := hc
    exact actIf_live_kept hl (c := !s.fil.conFault) (by simp [hf])
      (fun s => logE { s with fil := { s.fil with conFault := true, conIgnore := true } } .warn srcChip 0x0902 [("ticks", 4, faultTicks s)])
      (congrArg State.clk hc :) (congrArg State.pending hc :)
  · exact actIf_live_kept hl hf (fun s => reply { s with fil := { s.fil with conFault := false, conIgnore := false } }
      { tr := .console, tag := .unsol, status := .fault, fields := [fld "why" "linefault", fnum "ticks" k] }) rfl rfl

end Sys2Proof.Machine
end

section
/-! SUPPORT. The write guard: its causes, the inhibit, GUARD, and the links of the groups (R150, R299, R311-R320). -/

namespace Sys2Proof.Machine

open Sys2Proof

/-! ### Causes and the inhibit -/

/-- The causes are up to date, and those that are new are logged. -/
def causesUp (s : State) (v : EvtLog) (p : Pcie) : State :=
  { s with med := { s.med with inh := { s.med.inh with holds := causesHeld s } }, evt := v, pcie := p }

/-- Bringing the causes up to date keeps all but the causes held and the event log (R311, R318). -/
theorem guardCauses_eq (s : State) : ∃ v p, guardCauses s = causesUp s v p := by
  unfold guardCauses
  extract_lets fresh _ _ t
  split
  · refine foldl_keeps (fun u => ∃ v p, u = { t with evt := v, pcie := p }) _ ?_ fresh t ⟨_, _, rfl⟩
    rintro _ c ⟨v, p, rfl⟩
    obtain ⟨v', p', h⟩ := logE_chip { t with evt := v, pcie := p } .warn 0x0401 [("cause", 1, c.1)] none
    exact ⟨v', p', h⟩
  · exact ⟨_, _, rfl⟩

/-- Abandoning the data set on the lanes writes the media side, and of the inhibit the count of abandons alone (R315). -/
theorem abandon_eq (s : State) : ∃ m a, abandon s = { s with med := m } ∧ m.inh = { s.med.inh with abandons := a } ∧
    (s.med.gates = Vector.replicate 4 false → m.gates = Vector.replicate 4 false) := by
  unfold abandon
  split
  · exact ⟨s.med, s.med.inh.abandons, rfl, rfl, id⟩
  · split
    · exact ⟨s.med, s.med.inh.abandons, rfl, rfl, id⟩
    · exact ⟨_, _, rfl, rfl, fun _ => rfl⟩

/-- The guard inhibits writing: in STREAM, with a cause held, where it is not inhibited yet (R311). -/
def guardTrips (s : State) : Bool := s.pw.mode == .stream && !(causesHeld s).isEmpty && !s.med.inh.inhibited

/-- The inhibit in force: the gates are low and it counts (R315, R318). -/
def inhibitIn (s : State) : State := { s with med := { s.med with
  gates := Vector.replicate 4 false, inh := { s.med.inh with inhibited := true, cnt := inc s.med.inh.cnt } } }

/-- A saddle whose girths are not on tape is told. -/
def tellWaiting (s : State) (n : SadNo) : State := if s.sad[n].unsync.isEmpty then s else latch s n 1

theorem guardScan_eq (s : State) : ∃ v p, guardScan s = if guardTrips s then abandon (inhibitIn (allSads.foldl tellWaiting (causesUp s v p)))
    else causesUp s v p := by
  obtain ⟨v, p, hc⟩ := guardCauses_eq s
  have h : guardScan s = if s.pw.mode == .stream && !(guardCauses s).med.inh.holds.isEmpty && !(guardCauses s).med.inh.inhibited
      then abandon (inhibitIn (allSads.foldl tellWaiting (guardCauses s))) else guardCauses s := by
    have ht : tellWaiting = fun s n => if s.sad[n].unsync.isEmpty then s else latch s n 1 := rfl
    simp only [guardScan, inhibitIn, ht]
  rw [hc] at h
  exact ⟨v, p, h⟩

theorem guardScan_trips {s : State} (h : guardTrips s = true) : ∃ m v p d a, guardScan s = { s with med := m, evt := v, pcie := p, sad := d } ∧
    m.gates = Vector.replicate 4 false ∧
    m.inh = { s.med.inh with holds := causesHeld s, inhibited := true, cnt := inc s.med.inh.cnt, abandons := a } := by
  obtain ⟨v, p, hs⟩ := guardScan_eq s
  rw [if_pos h] at hs
  obtain ⟨d, hd⟩ : ∃ d, allSads.foldl tellWaiting (causesUp s v p) = { causesUp s v p with sad := d } := by
    refine foldl_keeps (fun t => ∃ d, t = { causesUp s v p with sad := d }) _ ?_ allSads _ ⟨_, rfl⟩
    rintro _ n ⟨d, rfl⟩
    unfold tellWaiting
    split
    · exact ⟨d, rfl⟩
    · exact ⟨_, rfl⟩
  rw [hd] at hs
  obtain ⟨m, a, hm, hi, hg⟩ := abandon_eq (inhibitIn { causesUp s v p with sad := d })
  exact ⟨m, v, p, d, a, hs.trans hm, hg rfl, hi⟩

theorem guardScan_stays {s : State} (h : guardTrips s = false) : ∃ v p, guardScan s = causesUp s v p := by
  obtain ⟨v, p, hs⟩ := guardScan_eq s
  exact ⟨v, p, hs.trans (if_neg (ne_true_of_eq_false h))⟩

/-- Of the inhibit, a scan writes the causes held, the inhibit itself and its counts. -/
theorem guardScan_inh (s : State) : ∃ h b c a, (guardScan s).med.inh = { s.med.inh with holds := h, inhibited := b, cnt := c, abandons := a } := by
  cases ht : guardTrips s with
  | true =>
    obtain ⟨m, v, p, d, a, hx, -, hi⟩ := guardScan_trips ht
    rw [hx]
    exact ⟨_, _, _, a, hi⟩
  | false =>
    obtain ⟨v, p, hx⟩ := guardScan_stays ht
    rw [hx]
    exact ⟨_, _, _, _, rfl⟩

theorem put_ne_nil {α β : Type} [DecidableEq α] (k : α) (v : β) (l : List (α × β)) : put k v l ≠ [] := fun h => by
  have := look_put_same k v l
  rw [h] at this
  cases this

/-- A cause that is present is held. -/
theorem causesHeld_ne_nil {s : State} {k : Nat} (hk : k < 5) (h : causeNow s k = true) : causesHeld s ≠ [] := by
  have hfold : ∀ (l : List Nat) (a : List (Nat × Nat)), l ≠ [] → l.foldl (fun h k => put k 0 h) a ≠ [] := by
    intro l
    induction l with
    | nil => exact fun _ h => absurd rfl h
    | cons b t ih =>
      intro a _
      cases t with
      | nil => exact put_ne_nil _ _ _
      | cons c t => exact ih _ (List.cons_ne_nil _ _)
  exact hfold _ _ (List.ne_nil_of_mem (List.mem_filter.2 ⟨List.mem_range.2 hk, h⟩))

/-! ### The same change on each saddle or channel of a list -/

/-- A change of one saddle after another leaves each of them changed once. -/
theorem foldl_modSad {s : State} {g : State → SadNo → State} {F : SadNo → Saddle → Saddle}
    (hg : ∀ t n, t.cfg = s.cfg → g t n = modSad t n (F n)) (l : List SadNo) : ∀ (t : State), l.Nodup → t.cfg = s.cfg →
      ∃ d, l.foldl g t = { t with sad := d } ∧ ∀ m : SadNo, d[m] = if m ∈ l then F m t.sad[m] else t.sad[m] := by
  induction l with
  | nil => exact fun t _ _ => ⟨t.sad, rfl, fun m => (if_neg List.not_mem_nil).symm⟩
  | cons n l ih =>
    intro t hn hc
    obtain ⟨hnl, hl⟩ := List.nodup_cons.1 hn
    obtain ⟨d, hd, hm⟩ := ih (modSad t n (F n)) hl hc
    refine ⟨d, ?_, fun m => ?_⟩
    · rw [List.foldl_cons, hg t n hc, hd]
      rfl
    · rw [hm m, modSad_get]
      by_cases h : n = m
      · subst h
        simp [hnl]
      · simp [h, Ne.symm h]

theorem mem_allSads (n : SadNo) : n ∈ allSads := by
  revert n
  decide

theorem allSads_nodup : allSads.Nodup := by decide

/-- A run of bad rows set on each channel of a list: those channels have it, and only the channels change (R299). -/
theorem foldl_modWCh (f : ChNo → WCh → WCh) (l : List ChNo) (s : State) :
    ∃ w, l.foldl (fun s c => modWCh s c (f c)) s = { s with med := { s.med with ch := w } } :=
  foldl_keeps (fun t => ∃ w, t = { s with med := { s.med with ch := w } }) _ (by rintro _ c ⟨w, rfl⟩; exact ⟨_, rfl⟩) l s ⟨_, rfl⟩

theorem foldl_modWCh_chsRun (k : Nat) (c : ChNo) : ∀ (l : List ChNo) (s : State), c ∈ l ∨ s.med.ch[c].chsRun = k →
    (l.foldl (fun s c => modWCh s c fun x => { x with chsRun := k }) s).med.ch[c].chsRun = k
  | [], s, h => h.resolve_left List.not_mem_nil
  | a :: l, s, h => by
    refine foldl_modWCh_chsRun k c l _ ?_
    rw [modWCh_get]
    by_cases ha : a = c
    · exact .inr (by rw [if_pos ha])
    · rw [if_neg ha]
      exact h.imp_left fun hm => (List.mem_cons.1 hm).resolve_left (Ne.symm ha)

/-! ### SHOCK_N, GUARD and the links -/

/-- SHOCK_N is seen low. -/
def shockLow (s : State) : State :=
  { s with med := { s.med with inh := { s.med.inh with shockPin := true } }, sens := { s.sens with pinLow := true } }

theorem exec_shockNFall (s : State) : exec .shockNFall s = act s fun s => guardScan (shockLow s) := rfl

/-- What GUARD does to a saddle whose girths have waited for `k` ticks (R150). -/
def guardHeld (k : Nat) (x : Saddle) : Saddle :=
  if !x.unsync.isEmpty && k ≤ x.guardTicks then
    { x with guardTicks := 0, defPend := if x.defPend.contains .guard then x.defPend else x.defPend ++ [.guard] }
  else x

/-- GUARD acts on each saddle alone (R150). -/
theorem guardTimeout_eq (s : State) :
    ∃ d, guardTimeout s = { s with sad := d } ∧ ∀ m : SadNo, d[m] = guardHeld (pnat s .guardHoldTicks) s.sad[m] := by
  obtain ⟨d, hd, hm⟩ := foldl_modSad (s := s) (F := fun _ => guardHeld (pnat s .guardHoldTicks)) (g := fun s n =>
    if !s.sad[n].unsync.isEmpty && pnat s .guardHoldTicks ≤ s.sad[n].guardTicks then
      deferErr (modSad s n fun x => { x with guardTicks := 0 }) n .guard
    else s) (by
      intro t n hc
      have hk : pnat t .guardHoldTicks = pnat s .guardHoldTicks := by simp only [pnat, pint, cfgVal, hc]
      rw [hk]
      by_cases h : (!t.sad[n].unsync.isEmpty && decide (pnat s .guardHoldTicks ≤ t.sad[n].guardTicks)) = true
      · rw [if_pos h, deferErr, modSad_modSad]
        exact modSad_congr (by rw [guardHeld, if_pos h])
      · rw [if_neg h]
        exact (modSad_eq_self (by rw [guardHeld, if_neg h])).symm) allSads s allSads_nodup rfl
  exact ⟨d, hd, fun m => (hm m).trans (if_pos (mem_allSads m))⟩

/-- A good frame of a group's link ends its run of bad ones (R299). -/
theorem pclRx_good {s : State} {f : List Byte} (h : pclRxOk s f = true) (g : GroupNo) :
    ∃ w, pclRx g (some f) s = { s with med := { s.med with ch := w, pclRun := s.med.pclRun.set g.val 0 g.isLt } } := by
  have hf : (some f).filter (pclRxOk s) = some f := by simp [h]
  obtain ⟨w, hw⟩ := foldl_modWCh (fun c x => { x with chsRun := if beField f 4 4 / 4 ^ (15 - c.val % 16) % 4 = 0 then 0 else x.chsRun + 1 })
    (allChs.filter fun c => c.val / 16 = g.val) s
  refine ⟨w, ?_⟩
  simp only [pclRx, hf]
  rw [hw]

/-- A bad frame counts (R299). -/
def pclBad (g : GroupNo) (s : State) : State := { s with med := { s.med with
  pclErr := s.med.pclErr.set g.val (sat 8 (s.med.pclErr[g] + 1)) g.isLt
  pclRun := s.med.pclRun.set g.val (s.med.pclRun[g] + 1) g.isLt } }

/-- A group's gate is low. -/
def gateLow (g : GroupNo) (s : State) : State := { s with med := { s.med with gates := s.med.gates.set g.val false g.isLt } }

theorem pclRx_bad {s : State} {f : Option (List Byte)} (h : ∀ l, f = some l → pclRxOk s l = false) (g : GroupNo) :
    (s.med.pclRun[g] < 2 → pclRx g f s = pclBad g s) ∧
    (2 ≤ s.med.pclRun[g] → ∃ w v p, pclRx g f s = { pclBad g s with
        med := { (pclBad g s).med with gates := s.med.gates.set g.val false g.isLt, ch := w }, evt := v, pcie := p } ∧
      ∀ c : ChNo, c.val / 16 = g.val → w[c].chsRun = 2) := by
  have hf : f.filter (pclRxOk s) = none := by
    cases f with
    | none => rfl
    | some l => simp [h l rfl]
  have hx : pclRx g f s = if 3 ≤ s.med.pclRun[g] + 1 then
        (allChs.filter fun c => c.val / 16 = g.val).foldl (fun s c => modWCh s c fun x => { x with chsRun := 2 })
          (if s.med.pclRun[g] + 1 = 3 then logE (gateLow g (pclBad g s)) .error srcChip 0x0406 [("group", 1, g.val)] else gateLow g (pclBad g s))
      else pclBad g s := by
    simp only [pclRx, hf]
    rfl
  rw [hx]
  refine ⟨fun hr => if_neg (by omega), fun hr => ?_⟩
  rw [if_pos (by omega)]
  obtain ⟨v, p, ht⟩ : ∃ v p, (if s.med.pclRun[g] + 1 = 3 then logE (gateLow g (pclBad g s)) .error srcChip 0x0406 [("group", 1, g.val)]
      else gateLow g (pclBad g s)) = { gateLow g (pclBad g s) with evt := v, pcie := p } := by
    split
    · exact logE_chip _ _ _ _ _
    · exact ⟨_, _, rfl⟩
  rw [ht]
  obtain ⟨w, hw⟩ := foldl_modWCh (fun _ x => { x with chsRun := 2 }) (allChs.filter fun c => c.val / 16 = g.val)
    { gateLow g (pclBad g s) with evt := v, pcie := p }
  refine ⟨w, v, p, hw, fun c h => ?_⟩
  have := foldl_modWCh_chsRun 2 c (allChs.filter fun c => c.val / 16 = g.val) { gateLow g (pclBad g s) with evt := v, pcie := p }
    (.inl (List.mem_filter.2 ⟨List.mem_finRange c, by simpa using h⟩))
  rwa [hw] at this

/-- Settles O51: SHOCK_N through the guard's scan, GUARD saddle by saddle, and the links by their frames. -/
theorem writeInhibit : Obligations.WriteInhibit := by
  refine ⟨fun s hl hm hi => ?_, fun s hl hm => ?_, fun s hl => ?_, fun s hl hi hh => ?_, fun s hl hp ht => ?_,
    fun s hl => ?_, fun s g f hl hf => ?_, fun s g f hl hf => ?_⟩
  · have hc : causesHeld (shockLow (quiet s)) ≠ [] := causesHeld_ne_nil (k := 1) (by decide) rfl
    obtain ⟨m, v, p, d, a, hx, hg, hn⟩ := guardScan_trips (s := shockLow (quiet s)) (by
      have h1 : (shockLow (quiet s)).pw.mode = .stream := hm
      have h2 : (shockLow (quiet s)).med.inh.inhibited = false := hi
      simp [guardTrips, h1, h2, hc])
    have hs := act_live hl fun s => guardScan (shockLow s)
    rw [← exec_shockNFall, hx] at hs
    exact ⟨_, hs, by rw [hn], by rw [hn]; rfl, by rw [hn]; rfl, hg, rfl, rfl, rfl⟩
  · obtain ⟨v, p, hx⟩ := guardScan_stays (s := shockLow (quiet s)) (by
      have h1 : (shockLow (quiet s)).pw.mode ≠ .stream := hm
      simp [guardTrips, h1])
    have hs := act_live hl fun s => guardScan (shockLow s)
    rw [← exec_shockNFall, hx] at hs
    exact ⟨_, hs, rfl, rfl, rfl, rfl, rfl⟩
  · exact act_live_kept hl (fun s => { s with
      med := { s.med with inh := { s.med.inh with shockPin := false } }, sens := { s.sens with pinLow := false, stuckTold := false } }) rfl rfl
  · exact actIf_live_kept hl (c := s.med.inh.inhibited && s.med.inh.holds.isEmpty) (by simp [hi, hh])
      (fun s => { s with med := { s.med with inh := { s.med.inh with inhibited := false }, settle := pnat s .wplSettle } }) rfl rfl
  · obtain ⟨v, p, hx⟩ := logE_chip { quiet s with sens := { s.sens with stuckTold := true } } .warn 0x0907 [] none
    exact actIf_live_kept hl (c := s.sens.pinLow && !s.sens.stuckTold) (by simp [hp, ht])
      (fun s => logE { s with sens := { s.sens with stuckTold := true } } .warn srcChip 0x0907)
      (congrArg State.clk hx :) (congrArg State.pending hx :)
  · obtain ⟨d, hd, hm⟩ := guardTimeout_eq (quiet s)
    have hs := act_live hl guardTimeout
    rw [hd] at hs
    refine ⟨_, hs, fun n hn hk => (hm n).trans ?_, fun n hn => (hm n).trans ?_, rfl⟩
    · exact if_pos (by simpa [List.isEmpty_iff] using ⟨hn, hk⟩)
    · exact if_neg (by
        simp only [Bool.and_eq_true, Bool.not_eq_true', List.isEmpty_eq_false_iff, decide_eq_true_eq, not_and, Nat.not_le]
        exact fun h => hn.resolve_left h)
  · obtain ⟨w, hx⟩ := pclRx_good (s := quiet s) hf g
    have hs := act_live hl (pclRx g (some f))
    rw [hx] at hs
    exact ⟨_, hs, Vector.getElem_set_self _, rfl, rfl, rfl, rfl⟩
  · obtain ⟨hlow, hhigh⟩ := pclRx_bad (s := quiet s) hf g
    have hs := act_live hl (pclRx g f)
    by_cases hr : s.med.pclRun[g] < 2
    · rw [hlow hr] at hs
      exact ⟨_, hs, Vector.getElem_set_self _, Vector.getElem_set_self _, fun h => absurd hr (Nat.not_lt.2 h), fun _ => ⟨rfl, rfl⟩, rfl⟩
    · obtain ⟨w, v, p, hx, hc⟩ := hhigh (Nat.not_lt.1 hr)
      rw [hx] at hs
      exact ⟨_, hs, Vector.getElem_set_self _, Vector.getElem_set_self _, fun _ => ⟨Vector.getElem_set_self _, hc⟩,
        fun h => absurd h hr, rfl⟩

end Sys2Proof.Machine
end

section
/-! SUPPORT. Sample ports and the sensor bus (R451-R462, R470). -/

namespace Sys2Proof.Machine

open Sys2Proof

/-! ### A state with another state of one port -/

/-- A state with one port, the engines' use of the tick and the outputs put. -/
def atPort (s : State) (p : PortNo) (x : Port) (u : Used) (o : Out) : State :=
  { s with port := s.port.set p.val x p.isLt, used := u, out := o }

theorem atPort_same (s : State) (p : PortNo) (x : Port) (u : Used) (o : Out) : (atPort s p x u o).port[p] = x := by
  simp [atPort]

theorem atPort_other (s : State) {p q : PortNo} (h : q ≠ p) (x : Port) (u : Used) (o : Out) : (atPort s p x u o).port[q] = s.port[q] := by
  simp only [atPort, Fin.getElem_fin, Vector.getElem_set]
  exact if_neg fun e => h (Fin.ext e.symm)

theorem modPort_atPort (s : State) (p : PortNo) (x : Port) (u : Used) (o : Out) (f : Port → Port) :
    modPort (atPort s p x u o) p f = atPort s p (f x) u o := by
  simp [modPort, atPort]

theorem modPort_eq_atPort (s : State) (p : PortNo) (f : Port → Port) : modPort s p f = atPort s p (f s.port[p]) s.used s.out := rfl

/-- What keeps a port from taking a word rests on its lead, not on its other parts. -/
theorem portBlocked_atPort {s : State} {p : PortNo} {x : Port} (h : x.lead = s.port[p].lead) (u : Used) (o : Out) :
    portBlocked (atPort s p x u o) p = portBlocked s p := by
  have hq (q : PortNo) : (atPort s p x u o).port[q].lead = s.port[q].lead := by
    by_cases hqp : q = p
    · subst hqp
      rw [atPort_same, h]
    · rw [atPort_other s hqp]
  have hl (n : SadNo) : leadBytes (atPort s p x u o) n = leadBytes s n := by
    have hb : bindOf (atPort s p x u o) n = bindOf s n := rfl
    unfold leadBytes
    rw [hb]
    split
    · rw [hq]
      rfl
    · rfl
  have hs : sadOfPort (atPort s p x u o) p = sadOfPort s p := rfl
  unfold portBlocked
  rw [hs, hq]
  split
  · rfl
  · unfold roomFor
    rw [hl]
    rfl

theorem readyData_atPort {s : State} {p : PortNo} {x : Port} (h : x.lead = s.port[p].lead) (hf : x.fifo = s.port[p].fifo) (u : Used)
    (o : Out) : readyData (atPort s p x u o) p = readyData s p := by
  have hs : portStretch (atPort s p x u o) p = portStretch s p := by
    unfold portStretch
    rw [atPort_same, hf]
    rfl
  unfold readyData
  rw [portBlocked_atPort h, hs]
  rfl

/-! ### A clock edge of the data channel -/

/-- An edge of a port that the data channel does not own, or past the tick's budget, moves nothing (R19, R455). -/
theorem spDataWord_idle {s : State} {p : PortNo} (h : s.port[p].owner ≠ 1 ∨ budget s 20000 < s.used.port[p] + wordBytes s p) (w : W32) :
    spDataWord p w s = modPort s p fun x => { x with edge := true } := by
  have ho : (modPort s p fun x => { x with edge := true }).port[p].owner = s.port[p].owner := by simp
  unfold spDataWord
  extract_lets t
  refine if_pos ?_
  simp only [Bool.or_eq_true, decide_eq_true_eq]
  exact h.imp_left fun h => ho.trans_ne h

/-- A port that is not ready moves nothing, unless FREE drives it (R457). -/
theorem spDataWord_low {s : State} {p : PortNo} (ho : s.port[p].owner = 1) (hb : s.used.port[p] + wordBytes s p ≤ budget s 20000)
    (hf : pnat s .portFlow p.val = 0) (hr : readyData s p = false) (w : W32) :
    spDataWord p w s = modPort s p fun x => { x with edge := true, low := true } := by
  have ho1 : (modPort s p fun x => { x with edge := true }).port[p].owner = 1 := by simpa using ho
  have hr1 : readyData (modPort s p fun x => { x with edge := true }) p = false :=
    (readyData_atPort (x := { s.port[p] with edge := true }) rfl rfl s.used s.out).trans hr
  have hc : (decide ((modPort s p fun x => { x with edge := true }).port[p].owner ≠ 1) ||
      decide (budget s 20000 < s.used.port[p] + wordBytes s p)) = false := by
    simpa using ⟨ho, hb⟩
  unfold spDataWord
  extract_lets t
  refine (if_neg (ne_true_of_eq_false hc)).trans ((if_pos ?_).trans ?_)
  · simp only [Bool.and_eq_true, decide_eq_true_eq, Bool.not_eq_true']
    exact ⟨hf, hr1⟩
  · simp [t, modPort]

/-- A port as a word moves. -/
def edged (x : Port) : Port := { x with edge := true, inWords := x.inWords + 1 }

/-- What the engines have done in the tick once a word has moved (R19). -/
def usedAtEdge (p : PortNo) (s : State) : Used :=
  { s.used with port := s.used.port.set p.val (s.used.port[p] + wordBytes s p) p.isLt }

/-- The state in which a word moves at an edge (R455). -/
def atEdge (p : PortNo) (s : State) : State := atPort s p (edged s.port[p]) (usedAtEdge p s) s.out

/-- A word moves: one leaves, and one arrives and goes where it is wanted (R455, R459, R461). -/
theorem spDataWord_moves {s : State} {p : PortNo} (ho : s.port[p].owner = 1) (hb : s.used.port[p] + wordBytes s p ≤ budget s 20000)
    (hf : pnat s .portFlow p.val ≠ 0 ∨ readyData s p = true) (w : W32) {t : State} (ht : portIn p w (portOut p (atEdge p s)) = t) :
    (∀ n, sadOfPort t p = some n → spDataWord p w s = refillFifo (claimLead n p 33 t) n p) ∧ (sadOfPort t p = none → spDataWord p w s = t) := by
  have ho1 : (modPort s p fun x => { x with edge := true }).port[p].owner = 1 := by simpa using ho
  have hr1 : readyData (modPort s p fun x => { x with edge := true }) p = readyData s p :=
    readyData_atPort (x := { s.port[p] with edge := true }) rfl rfl s.used s.out
  have hc : (decide ((modPort s p fun x => { x with edge := true }).port[p].owner ≠ 1) ||
      decide (budget s 20000 < s.used.port[p] + wordBytes s p)) = false := by
    simpa using ⟨ho, hb⟩
  have hd : (decide (pnat s .portFlow p.val = 0) && !readyData (modPort s p fun x => { x with edge := true }) p) = false := by
    rw [hr1]
    rcases hf with hf | hf <;> simp [hf]
  have he : modPort { (modPort s p fun x => { x with edge := true }) with
      used := { s.used with port := s.used.port.set p.val (s.used.port[p] + wordBytes s p) p.isLt } } p
      (fun x => { x with inWords := x.inWords + 1 }) = atEdge p s := by
    simp [modPort, atEdge, atPort, edged, usedAtEdge]
  have hx : spDataWord p w s = match sadOfPort t p with
      | some n => refillFifo (claimLead n p 33 t) n p
      | none => t := by
    rw [← ht, ← he]
    exact (if_neg (ne_true_of_eq_false hc)).trans (if_neg (ne_true_of_eq_false hd))
  refine ⟨fun n hn => ?_, fun hn => ?_⟩
  · rw [hx, hn]
  · rw [hx, hn]

/-- The word that leaves: a whole one from the FIFO, or the last one again (R453, R461). -/
theorem portOut_word {s : State} {p : PortNo} {x : Port} {u : Used} {o : Out} (h : wordBytes s p ≤ x.fifo.length) :
    ∃ y, portOut p (atPort s p x u o) = atPort s p y u { o with spOut := some (BitVec.ofNat 32 (leVal (x.fifo.take (wordBytes s p)))) } ∧
      y.lead = x.lead ∧ y.inWords = x.inWords ∧ y.ovr = x.ovr ∧ y.fifo = x.fifo.drop (wordBytes s p) := by
  have hw : wordBytes (atPort s p x u o) p = wordBytes s p := rfl
  unfold portOut
  rw [atPort_same, hw]
  refine ⟨{ x with fifo := x.fifo.drop (wordBytes s p), last := BitVec.ofNat 32 (leVal (x.fifo.take (wordBytes s p))) },
    (if_pos h).trans ?_, rfl, rfl, rfl, rfl⟩
  dsimp only
  rw [modPort_atPort]
  rfl

theorem portOut_again {s : State} {p : PortNo} {x : Port} {u : Used} {o : Out} (h : x.fifo.length < wordBytes s p) :
    ∃ y, portOut p (atPort s p x u o) = atPort s p y u { o with spOut := some x.last } ∧
      y.lead = x.lead ∧ y.ovr = x.ovr ∧ y.underrun = true ∧ y.rep = inc x.rep := by
  unfold portOut
  rw [atPort_same]
  refine ⟨{ x with underrun := true, rep := inc x.rep }, (if_neg (Nat.not_le.2 h)).trans ?_, rfl, rfl, rfl, rfl⟩
  dsimp only
  rw [modPort_atPort]
  rfl

/-- A word that arrives joins the lead (R453). -/
theorem portIn_lead {s : State} {p : PortNo} {x : Port} {u : Used} {o : Out} (h : portBlocked (atPort s p x u o) p = false) (w : W32) :
    ∃ y, portIn p w (atPort s p x u o) = atPort s p y u o ∧
      y.lead = x.lead ++ leBytes (wordBytes s p) (w.toNat % 2 ^ (8 * wordBytes s p)) ∧ y.inWords = x.inWords ∧ y.ovr = x.ovr ∧
      y.fifo = x.fifo := by
  unfold portIn
  rw [if_neg (ne_true_of_eq_false h), modPort_atPort]
  exact ⟨_, rfl, rfl, rfl, rfl, rfl⟩

/-- A blocked word counts as an overrun, the first of a run with a record (R459). -/
theorem portIn_overrun {s : State} {p : PortNo} {x : Port} {u : Used} {o : Out} (h : portBlocked (atPort s p x u o) p = true)
    (hn : sadOfPort s p = none) (w : W32) : ∃ y v q, portIn p w (atPort s p x u o) = { atPort s p y u o with evt := v, pcie := q } ∧
      y.lead = x.lead ∧ y.ovr = inc x.ovr ∧ y.underrun = x.underrun ∧ y.rep = x.rep := by
  have hs : ∀ y u o, ((sadOfPort (atPort s p y u o) p).map (·.val)).getD srcChip = srcChip := by
    intro y u o
    have : sadOfPort (atPort s p y u o) p = none := hn
    rw [this]
    rfl
  unfold portIn
  rw [if_pos h]
  dsimp only
  rw [modPort_atPort, hs]
  split
  · obtain ⟨v, q, hl⟩ := logE_chip (atPort s p _ u o) .warn 0x0903 [("port", 1, p.val), ("prev", 4, (atPort s p x u o).port[p].prevRun)] none
    exact ⟨_, v, q, hl, rfl, rfl, rfl, rfl⟩
  · exact ⟨_, s.evt, s.pcie, rfl, rfl, rfl, rfl, rfl⟩

theorem claimLead_none {s : State} {n : SadNo} (h : writeWanted s n = none) (p : PortNo) (k : Nat) : claimLead n p k s = s := by
  cases k with
  | zero => rfl
  | succ k => simp only [claimLead, h]

theorem modPort_self (s : State) (p : PortNo) : modPort s p (fun x => x) = s := by
  simp [modPort]

/-- A FIFO that has room again takes bytes of the saddle's READ, and nothing without one (R460). -/
theorem refillFifo_eq (s : State) (n : SadNo) (p : PortNo) :
    ∃ f d, refillFifo s n p = { modPort s p fun x => { x with fifo := f } with sad := d } := by
  unfold refillFifo
  split
  · unfold fillFifo
    extract_lets room now t rest
    split <;> exact ⟨s.port[p].fifo ++ now, _, rfl⟩
  · refine ⟨s.port[p].fifo, s.sad, ?_⟩
    exact (modPort_self s p).symm

theorem refillFifo_none {s : State} {n : SadNo} (h : ∀ e ∈ s.sad[n].q.entries, e.ended.isSome = true ∨ e.res = none) (p : PortNo) :
    refillFifo s n p = s := by
  have hf : (s.sad[n].q.entries.find? fun e => e.ended.isNone && e.res.isSome) = none := by
    rw [List.find?_eq_none]
    intro e he
    cases hn : e.ended with
    | none => simp [(h e he).resolve_left (by simp [hn])]
    | some o => simp
  unfold refillFifo
  rw [hf]

theorem wordBytes_pos (s : State) (p : PortNo) : 0 < wordBytes s p := by
  unfold wordBytes
  omega

/-- A word that leaves the FIFO, and one that joins the lead. -/
theorem word_passes {s : State} {p : PortNo} (hk : portBlocked s p = false) (hw : wordBytes s p ≤ s.port[p].fifo.length) (w : W32) :
    ∃ x, portIn p w (portOut p (atEdge p s)) = atPort s p x (usedAtEdge p s)
        { s.out with spOut := some (BitVec.ofNat 32 (leVal (s.port[p].fifo.take (wordBytes s p)))) } ∧
      x.lead = s.port[p].lead ++ leBytes (wordBytes s p) (w.toNat % 2 ^ (8 * wordBytes s p)) ∧ x.inWords = s.port[p].inWords + 1 ∧
      x.ovr = s.port[p].ovr ∧ x.fifo = s.port[p].fifo.drop (wordBytes s p) := by
  obtain ⟨y, h1, h2, h3, h4, h5⟩ := portOut_word (s := s) (p := p) (x := edged s.port[p]) (u := usedAtEdge p s) (o := s.out) hw
  obtain ⟨x, g1, g2, g3, g4, g5⟩ := portIn_lead ((portBlocked_atPort h2 (usedAtEdge p s)
    { s.out with spOut := some (BitVec.ofNat 32 (leVal (s.port[p].fifo.take (wordBytes s p)))) }).trans hk) w
  exact ⟨x, (congrArg (portIn p w) h1).trans g1, g2.trans (by rw [h2]; rfl), g3.trans h3, g4.trans h4, g5.trans h5⟩

/-- A word that passes: one leaves the FIFO, one joins the lead, and the saddle's READ may fill the FIFO again (R455, R460). -/
theorem spDataWord_passes {s : State} {p : PortNo} {n : SadNo} (ho : s.port[p].owner = 1) (hr : readyData s p = true)
    (hk : portBlocked s p = false) (hb : s.used.port[p] + wordBytes s p ≤ budget s 20000) (hn : sadOfPort s p = some n)
    (hq : writeWanted s n = none) (hw : wordBytes s p ≤ s.port[p].fifo.length) (w : W32) :
    ∃ x d, spDataWord p w s = { atPort s p x (usedAtEdge p s)
        { s.out with spOut := some (BitVec.ofNat 32 (leVal (s.port[p].fifo.take (wordBytes s p)))) } with sad := d } ∧
      x.lead = s.port[p].lead ++ leBytes (wordBytes s p) (w.toNat % 2 ^ (8 * wordBytes s p)) ∧ x.inWords = s.port[p].inWords + 1 ∧
      x.ovr = s.port[p].ovr ∧
      ((∀ e ∈ s.sad[n].q.entries, e.ended.isSome = true ∨ e.res = none) → x.fifo = s.port[p].fifo.drop (wordBytes s p) ∧ d = s.sad) := by
  obtain ⟨x, ht, h1, h2, h3, h4⟩ := word_passes hk hw w
  have hx := (spDataWord_moves ho hb (.inr hr) w ht).1 n hn
  have hc : ∀ (u : Used) (o : Out), writeWanted (atPort s p x u o) n = none := fun _ _ => hq
  rw [claimLead_none (hc _ _)] at hx
  by_cases he : ∀ e ∈ s.sad[n].q.entries, e.ended.isSome = true ∨ e.res = none
  · have hr : ∀ (u : Used) (o : Out), refillFifo (atPort s p x u o) n p = atPort s p x u o := fun u o => refillFifo_none (s := atPort s p x u o) he p
    rw [hr] at hx
    exact ⟨x, s.sad, hx, h1, h2, h3, fun _ => ⟨h4, rfl⟩⟩
  · obtain ⟨f, d, hf⟩ := refillFifo_eq (atPort s p x (usedAtEdge p s)
      { s.out with spOut := some (BitVec.ofNat 32 (leVal (s.port[p].fifo.take (wordBytes s p)))) }) n p
    rw [modPort_atPort] at hf
    exact ⟨_, d, hx.trans hf, h1, h2, h3, fun h => absurd h he⟩

/-- A blocked word, with nothing to send: it counts as an overrun, and the last word leaves again. -/
theorem word_overruns {s : State} {p : PortNo} (hk : portBlocked s p = true) (hn : sadOfPort s p = none) (hq : s.port[p].fifo = []) (w : W32) :
    ∃ x v q, portIn p w (portOut p (atEdge p s)) = { atPort s p x (usedAtEdge p s) { s.out with spOut := some s.port[p].last } with
        evt := v, pcie := q } ∧
      x.lead = s.port[p].lead ∧ x.ovr = inc s.port[p].ovr ∧ x.underrun = true ∧ x.rep = inc s.port[p].rep := by
  obtain ⟨y, h1, h2, h3, h4, h5⟩ := portOut_again (s := s) (p := p) (x := edged s.port[p]) (u := usedAtEdge p s) (o := s.out)
    ((congrArg List.length hq).trans_lt (wordBytes_pos s p))
  obtain ⟨x, v, q, g1, g2, g3, g4, g5⟩ := portIn_overrun ((portBlocked_atPort h2 (usedAtEdge p s)
    { s.out with spOut := some s.port[p].last }).trans hk) hn w
  exact ⟨x, v, q, (congrArg (portIn p w) h1).trans g1, g2.trans h2, g3.trans (by rw [h3]; rfl), g4.trans h4, g5.trans h5⟩

/-- Under FREE a blocked word of a port that no saddle has counts as an overrun (R459, R461). -/
theorem spDataWord_overruns {s : State} {p : PortNo} (ho : s.port[p].owner = 1) (hf : pnat s .portFlow p.val = 1)
    (hk : portBlocked s p = true) (hn : sadOfPort s p = none) (hq : s.port[p].fifo = [])
    (hb : s.used.port[p] + wordBytes s p ≤ budget s 20000) (w : W32) :
    ∃ x v q, spDataWord p w s = { atPort s p x (usedAtEdge p s) { s.out with spOut := some s.port[p].last } with evt := v, pcie := q } ∧
      x.lead = s.port[p].lead ∧ x.ovr = inc s.port[p].ovr ∧ x.underrun = true ∧ x.rep = inc s.port[p].rep := by
  obtain ⟨x, v, q, h, hrest⟩ := word_overruns hk hn hq w
  exact ⟨x, v, q, (spDataWord_moves ho hb (.inl (by rw [hf]; decide)) w h).2 hn, hrest⟩

/-! ### The control channel -/

theorem modSes_atPort (s : State) (p : PortNo) (x : Port) (u : Used) (o : Out) (f : Session → Session) :
    modSes (atPort s p x u o) (.sp p) f = atPort s p { x with ses := f x.ses } u o :=
  modPort_atPort s p x u o fun x => { x with ses := f x.ses }

theorem sessionOf_atPort (s : State) (p : PortNo) (x : Port) (u : Used) (o : Out) :
    sessionOf (atPort s p x u o) (.sp p) = some x.ses := by
  simp only [sessionOf, atPort_same]

/-- READY of the control channel rests on the line that it receives. -/
theorem readyCtl_edge (s : State) (p : PortNo) :
    readyCtl (atPort s p { s.port[p] with edge := true } s.used s.out) p = readyCtl s p := by
  have hh : ctlHeld (atPort s p { s.port[p] with edge := true } s.used s.out) p = ctlHeld s p := by
    unfold ctlHeld
    rw [atPort_same]
    rfl
  unfold readyCtl
  rw [hh]
  rfl

/-- An edge of the control channel, by whether it owns the port and is ready (R451, R462). -/
theorem spControlByte_eq (s : State) (p : PortNo) (b : Byte) : spControlByte p b s =
    if (decide (s.port[p].owner ≠ 2) || !readyCtl s p) = true then atPort s p { s.port[p] with edge := true } s.used s.out
    else sesByte (atPort s p { s.port[p] with edge := true, ses := { s.port[p].ses with out := s.port[p].ses.out.drop 1 } } s.used
      { s.out with spOut := some ((s.port[p].ses.out.headD 0).setWidth 32) }) (.sp p) b false := by
  have hx : ∀ t : State, modPort s p (fun x => { x with edge := true }) = t → spControlByte p b s =
      if (decide (t.port[p].owner ≠ 2) || !readyCtl t p) = true then t
      else
        let u := modSes t (.sp p) fun x => { x with out := x.out.drop 1 }
        sesByte { u with out := { u.out with spOut := some ((t.port[p].ses.out.headD 0).setWidth 32) } } (.sp p) b false := by
    rintro _ rfl
    rfl
  rw [hx _ (modPort_eq_atPort s p _), modSes_atPort, atPort_same, readyCtl_edge]
  rfl

/-- An edge of a port that the control channel does not own, or that is not ready, moves nothing (R462). -/
theorem spControlByte_idle {s : State} {p : PortNo} (h : s.port[p].owner ≠ 2 ∨ readyCtl s p = false) (b : Byte) :
    spControlByte p b s = modPort s p fun x => { x with edge := true } := by
  rw [spControlByte_eq, modPort_eq_atPort]
  refine if_pos ?_
  simp only [Bool.or_eq_true, decide_eq_true_eq, Bool.not_eq_true']
  exact h

/-- The port as a byte of the control channel leaves it (R451). -/
def ctlSent (x : Port) : Port := { x with edge := true, ses := { x.ses with out := x.ses.out.drop 1 } }

/-- A byte of the control channel reaches the port's session (R451, R462). -/
theorem spControlByte_moves {s : State} {p : PortNo} (ho : s.port[p].owner = 2) (hr : readyCtl s p = true) (b : Byte) :
    spControlByte p b s = sesByte (atPort s p (ctlSent s.port[p]) s.used
      { s.out with spOut := some ((s.port[p].ses.out.headD 0).setWidth 32) }) (.sp p) b false := by
  have hc : (decide (s.port[p].owner ≠ 2) || !readyCtl s p) = false := by
    rw [ho, hr]
    rfl
  exact (spControlByte_eq s p b).trans (if_neg (ne_true_of_eq_false hc))

/-- In a generated session the byte joins the line (R105). -/
theorem spControlByte_generated {s : State} {p : PortNo} {b : Byte} (ho : s.port[p].owner = 2) (hr : readyCtl s p = true)
    (hm : s.port[p].ses.mode = .generated) (h1 : b ≠ 0x0D) (h2 : b ≠ 0x0A) (hl : s.port[p].ses.line.length < 200) :
    ∃ x, spControlByte p b s = atPort s p x s.used { s.out with spOut := some ((s.port[p].ses.out.headD 0).setWidth 32) } ∧
      x.ses.line = s.port[p].ses.line ++ [b] ∧ x.ses.out = s.port[p].ses.out.drop 1 := by
  rw [spControlByte_moves ho hr, sesByte_generated (x := (ctlSent s.port[p]).ses) (sessionOf_atPort s p _ _ _) hm h1 h2, modSes_atPort,
    genByte_room (x := { (ctlSent s.port[p]).ses with afterCr := false }) b false (sessionOf_atPort s p _ _ _) hl, modSes_atPort]
  exact ⟨_, rfl, rfl, rfl⟩

/-! ### The sensor bus -/

/-- A good read of a device that is not absent gives its bytes (R471). -/
theorem tryDev_good {d : Dev} (h : d.absent = false) (b : List Byte) (c low : Bool) (r : List I2cObs) :
    tryDev (.good b c :: r) { dev := d, low := low } = { dev := { d with present := true, absent := false, fails := 0, goods := 0 }, data := some b
                                                         clears := 0 + if c then 1 else 0, low := false } := by
  simp [tryDev, h]

/-- What the temperature sensors' polls keep of the shock sensor's part (R470). -/
def ShockKept (s t : State) : Prop :=
  ∃ v p w, t = { s with sens := w, evt := v, pcie := p } ∧ w.lastPoll = s.sens.lastPoll ∧ w.shock = s.sens.shock ∧
    w.window = s.sens.window ∧ w.peak = s.sens.peak ∧ w.mg = s.sens.mg

theorem ShockKept.refl (s : State) : ShockKept s s := ⟨_, _, _, rfl, rfl, rfl, rfl, rfl, rfl⟩

theorem ShockKept.trans {s t u : State} (h : ShockKept s t) (g : ShockKept t u) : ShockKept s u := by
  obtain ⟨v, p, w, rfl, h1, h2, h3, h4, h5⟩ := h
  obtain ⟨v', p', w', rfl, g1, g2, g3, g4, g5⟩ := g
  exact ⟨v', p', w', rfl, g1.trans h1, g2.trans h2, g3.trans h3, g4.trans h4, g5.trans h5⟩

theorem logE_shockKept (s : State) (sev : Sev) (code : Nat) (body : List (String × Nat × Nat)) :
    ShockKept s (logE s sev srcChip code body) := by
  obtain ⟨v, p, h⟩ := logE_chip s sev code body none
  rw [h]
  exact ⟨v, p, s.sens, rfl, rfl, rfl, rfl, rfl, rfl⟩

theorem busAfter_shockKept (s : State) (t : Tried) (any : Bool) : ShockKept s (busAfter s t any) := by
  unfold busAfter
  extract_lets told _ u
  have hu : ShockKept s u := ⟨_, _, _, rfl, rfl, rfl, rfl, rfl, rfl⟩
  split
  · exact hu.trans (logE_shockKept _ _ _ _)
  · exact hu

theorem pollTemp_shockKept (i : Nat) (obs : List I2cObs) (s : State) : ShockKept s (pollTemp i obs s) := by
  unfold pollTemp
  extract_lets old t d _ _ u w
  have hu : ShockKept s u := by
    unfold u
    split
    · exact ⟨_, _, _, rfl, rfl, rfl, rfl, rfl, rfl⟩
    · exact ⟨_, _, _, rfl, rfl, rfl, rfl, rfl, rfl⟩
  have hw : ShockKept s w := hu.trans (busAfter_shockKept _ _ _)
  split
  · exact hw.trans (logE_shockKept _ _ _ _)
  · exact hw

theorem shockInit_eq (s : State) : ∃ o b, shockInit s = { s with out := o, sens := { s.sens with initDue := b } } := by
  unfold shockInit
  split
  · exact ⟨s.out, s.sens.initDue, rfl⟩
  · exact ⟨_, false, rfl⟩

/-- A good shock reading joins the window and the peak (R470). -/
theorem shockRead_eq (s : State) (b : List Byte) : ∃ w m h, shockRead s b = { s with
    sens := { s.sens with window := w, mg := m, peak := max s.sens.peak m }, med := { s.med with inh := { s.med.inh with shockBus := h } } } ∧
    w.length = min 1024 (s.sens.window.length + 1) := by
  refine ⟨_, _, _, rfl, ?_⟩
  rw [List.length_take, List.length_cons]

/-- The shock sensor as its attempts left it (R471). -/
def shockPut (s : State) (t : Tried) : State :=
  { s with sens := { s.sens with shock := t.dev, initDue := s.sens.shock.absent && !t.dev.absent } }

/-- The guard's cause of an absent sensor, as the attempts left it (R311). -/
def sensorSeen (s : State) (t : Tried) : State := { s with med := { s.med with inh := { s.med.inh with sensor := t.dev.absent } } }

theorem pollShock_reads {s u : State} {obs : List I2cObs} {t : Tried} {b : List Byte} (hu : shockInit s = u)
    (ht : tryDev obs { dev := u.sens.shock, low := u.sens.busLow } = t) (hb : t.data = some b) :
    pollShock obs s = shockRead (sensorSeen (busAfter (shockPut u t) t (!obs.isEmpty)) t) b := by
  subst hu ht
  simp only [pollShock, hb]
  rfl

/-- The shock sensor's poll with a good read, of a sensor that is not absent (R470, R471). -/
theorem pollShock_good {s : State} (h : s.sens.shock.absent = false) (d : List Byte) (c : Bool) : ∃ v p m o w,
    pollShock [.good d c] s = { s with sens := w, med := m, evt := v, pcie := p, out := o } ∧ w.lastPoll = s.sens.lastPoll ∧
      w.shock.present = true ∧ w.shock.absent = false ∧ w.window.length = min 1024 (s.sens.window.length + 1) ∧
      s.sens.peak ≤ w.peak ∧ w.mg ≤ w.peak ∧ m.inh.sensor = false := by
  obtain ⟨o, i, hi⟩ := shockInit_eq s
  have hx := pollShock_reads hi (tryDev_good h d c s.sens.busLow []) rfl
  generalize htd : ({ dev := { s.sens.shock with present := true, absent := false, fails := 0, goods := 0 }, data := some d
                      clears := 0 + if c then 1 else 0, low := false } : Tried) = t at hx
  have hp : t.dev.present = true := by rw [← htd]
  have ha : t.dev.absent = false := by rw [← htd]
  obtain ⟨v, p, w, hw, h1, h2, h3, h4, -⟩ := busAfter_shockKept (shockPut { s with out := o, sens := { s.sens with initDue := i } } t) t true
  have hw' : busAfter (shockPut { s with out := o, sens := { s.sens with initDue := i } } t) t (!([.good d c] : List I2cObs).isEmpty) =
      { s with out := o, sens := w, evt := v, pcie := p } := hw
  rw [hw'] at hx
  obtain ⟨l, m, b, hr, hl⟩ := shockRead_eq (sensorSeen { s with out := o, sens := w, evt := v, pcie := p } t) d
  refine ⟨v, p, _, o, _, hx.trans hr, h1, (congrArg Dev.present h2).trans hp, (congrArg Dev.absent h2).trans ha,
    hl.trans (congrArg (fun x : List (Int × Int × Int) => min 1024 (x.length + 1)) h3), ?_, Nat.le_max_right _ _, ha⟩
  exact h4.symm.le.trans (Nat.le_max_left _ _)

/-- After the shock sensor's poll come the temperature sensors' and the guard's scan (R470). -/
theorem sensorPoll_scans (a b c : List I2cObs) (s : State) : ∃ t,
    ShockKept (pollShock a { s with sens := { s.sens with lastPoll := s.clk.ptc } }) t ∧ sensorPoll a b c s = guardScan t := by
  refine ⟨_, ?_, rfl⟩
  refine foldl_keeps (ShockKept _) _ (fun _ i h => h.trans (pollTemp_shockKept i _ _)) _ _ ?_
  dsimp only
  generalize pollShock a { s with sens := { s.sens with lastPoll := s.clk.ptc } } = u
  split
  · exact ShockKept.trans ⟨_, _, _, rfl, rfl, rfl, rfl, rfl, rfl⟩ (pollTemp_shockKept _ _ _)
  · exact .refl u

/-- A due poll with a good read of the shock sensor (R470). -/
theorem sensorPoll_good {s : State} (h : s.sens.shock.absent = false) (d : List Byte) (c : Bool) :
    let t := sensorPoll [.good d c] [] [] s
    t.sens.lastPoll = s.clk.ptc ∧ t.sens.shock.present = true ∧ t.sens.shock.absent = false ∧
    t.sens.window.length = min 1024 (s.sens.window.length + 1) ∧ s.sens.peak ≤ t.sens.peak ∧ t.sens.mg ≤ t.sens.peak ∧
    t.med.inh.sensor = false ∧ t.cfg = s.cfg ∧ t.cart = s.cart := by
  obtain ⟨v, p, m, o, w, hx, h1, h2, h3, h4, h5, h6, h7⟩ := pollShock_good (s := { s with sens := { s.sens with lastPoll := s.clk.ptc } }) h d c
  obtain ⟨t, ht, hp⟩ := sensorPoll_scans [.good d c] [] [] s
  rw [hp]
  rw [hx] at ht
  obtain ⟨v', p', w', rfl, g1, g2, g3, g4, g5⟩ := ht
  obtain ⟨m', v'', p'', d', hg⟩ := guardScan_guard { s with sens := w', med := m, evt := v', pcie := p', out := o }
  obtain ⟨a, b, e, f, hi⟩ := guardScan_inh { s with sens := w', med := m, evt := v', pcie := p', out := o }
  have hs := congrArg State.sens hg
  refine ⟨?_, ?_, ?_, ?_, ?_, ?_, (congrArg Inhibit.sensor hi).trans h7, (congrArg State.cfg hg :), (congrArg State.cart hg :)⟩
  · exact (congrArg Sensor.lastPoll hs).trans (g1.trans h1)
  · exact (congrArg (fun x => x.shock.present) hs).trans ((congrArg Dev.present g2).trans h2)
  · exact (congrArg (fun x => x.shock.absent) hs).trans ((congrArg Dev.absent g2).trans h3)
  · exact (congrArg (fun x => x.window.length) hs).trans ((congrArg List.length g3).trans h4)
  · exact h5.trans (g4.symm.trans (congrArg Sensor.peak hs).symm).le
  · exact ((congrArg Sensor.mg hs).trans g5).le.trans (h6.trans (g4.symm.trans (congrArg Sensor.peak hs).symm).le)

/-- The select that is low alone owns the port, and with neither low nothing does (R454). -/
theorem spSelect_eq (s : State) (p : PortNo) {d c : Bool} (h : (d && c) = false) : ∃ x, spSelect p d c s = atPort s p x s.used s.out ∧
    x.selD = d ∧ x.selC = c ∧ x.owner = if d then 1 else if c then 2 else 0 := by
  refine ⟨_, rfl, rfl, rfl, ?_⟩
  rcases d with _ | _ <;> rcases c with _ | _ <;> simp at h ⊢

/-- A step that puts a port, the engines' use of the tick and the outputs. -/
theorem act_atPort {s : State} (hl : live s = true) {f : State → State} {p : PortNo} {x : Port} {u : Used} {o : Out}
    (h : f (quiet s) = atPort (quiet s) p x u o) : act s f = .next (atPort (quiet s) p x u o) := by
  rw [act_live hl, h]
  rfl

/-- Settles O60: the selects, the words and bytes of a port, and a poll of the shock sensor, each by what it finds. -/
theorem portsAndSensors : Obligations.PortsAndSensors := by
  refine ⟨fun p s hl => ?_, fun p w s hl ho => ?_, fun p w s hl ho hf hr hb => ?_, fun p w s hl hb => ?_,
    fun p n w s hl ho hr hk hb hn hw hq => ?_, fun p w s hl ho hf hk hn hq hb => ?_, fun p b s hl h => ?_,
    fun p b s hl ho hr hm h1 h2 hn => ?_, fun a b c s hl h => ?_, fun d c s hl hr hp ha => ?_⟩
  · have hx {d c : Bool} (h : (d && c) = false) : ∃ s', exec (.spSelect p d c) s = .next s' ∧
        s'.port[p].owner = (if d then 1 else if c then 2 else 0) ∧ s'.port[p].selD = d ∧ s'.port[p].selC = c ∧
        (∀ q : PortNo, q ≠ p → s'.port[q] = s.port[q]) ∧ s'.sad = s.sad ∧ s'.cfg = s.cfg := by
      obtain ⟨x, hx, h1, h2, h3⟩ := spSelect_eq (quiet s) p h
      have hq := atPort_same (quiet s) p x (quiet s).used (quiet s).out
      exact ⟨_, act_atPort (f := spSelect p d c) hl hx, (congrArg Port.owner hq).trans h3, (congrArg Port.selD hq).trans h1,
        (congrArg Port.selC hq).trans h2, fun q hq => atPort_other (quiet s) hq x _ _, rfl, rfl⟩
    obtain ⟨s', h1, h2, h3, h4, h5⟩ := hx (d := false) (c := true) rfl
    exact ⟨hx rfl, hx rfl, s', h1, h2, h4, h3, h5⟩
  · have hx : spDataWord p w (quiet s) = modPort (quiet s) p fun x => { x with edge := true } := spDataWord_idle (s := quiet s) (.inl ho) w
    exact (act_live_kept hl (spDataWord p w) (by rw [hx]; rfl) (by rw [hx]; rfl)).trans (congrArg _ hx)
  · have hx : spDataWord p w (quiet s) = modPort (quiet s) p fun x => { x with edge := true, low := true } :=
      spDataWord_low (s := quiet s) ho hb hf hr w
    exact (act_live_kept hl (spDataWord p w) (by rw [hx]; rfl) (by rw [hx]; rfl)).trans (congrArg _ hx)
  · have hx : spDataWord p w (quiet s) = modPort (quiet s) p fun x => { x with edge := true } := spDataWord_idle (s := quiet s) (.inr hb) w
    exact (act_live_kept hl (spDataWord p w) (by rw [hx]; rfl) (by rw [hx]; rfl)).trans (congrArg _ hx)
  · obtain ⟨x, d, hx, h1, h2, h3, h4⟩ := spDataWord_passes (s := quiet s) ho hr hk hb hn hw hq w
    have hs := act_live hl (spDataWord p w)
    rw [hx] at hs
    have hp := atPort_same (quiet s) p x (usedAtEdge p (quiet s))
      { (quiet s).out with spOut := some (BitVec.ofNat 32 (leVal (s.port[p].fifo.take (wordBytes s p)))) }
    have hother (q : PortNo) (hq : q ≠ p) := atPort_other (quiet s) hq x (usedAtEdge p (quiet s))
      { (quiet s).out with spOut := some (BitVec.ofNat 32 (leVal (s.port[p].fifo.take (wordBytes s p)))) }
    refine ⟨_, hs, (congrArg Port.lead hp).trans h1, Vector.getElem_set_self _, (congrArg Port.inWords hp).trans h2, rfl,
      (congrArg Port.ovr hp).trans h3, hother, rfl, rfl, fun he => ?_⟩
    exact ⟨(congrArg Port.fifo hp).trans (h4 he).1, (h4 he).2⟩
  · obtain ⟨x, v, q, hx, h1, h2, h3, h4⟩ := spDataWord_overruns (s := quiet s) ho hf hk hn hq hb w
    have hs := act_live hl (spDataWord p w)
    rw [hx] at hs
    have hp := atPort_same (quiet s) p x (usedAtEdge p (quiet s)) { (quiet s).out with spOut := some s.port[p].last }
    have hother (q : PortNo) (hq : q ≠ p) := atPort_other (quiet s) hq x (usedAtEdge p (quiet s)) { (quiet s).out with spOut := some s.port[p].last }
    exact ⟨_, hs, (congrArg Port.lead hp).trans h1, (congrArg Port.ovr hp).trans h2, (congrArg Port.underrun hp).trans h3,
      (congrArg Port.rep hp).trans h4, rfl, hother, rfl, rfl⟩
  · have hx : spControlByte p b (quiet s) = modPort (quiet s) p fun x => { x with edge := true } := spControlByte_idle (s := quiet s) h b
    exact (act_live_kept hl (spControlByte p b) (by rw [hx]; rfl) (by rw [hx]; rfl)).trans (congrArg _ hx)
  · obtain ⟨x, hx, h3, h4⟩ := spControlByte_generated (s := quiet s) ho hr hm h1 h2 hn
    refine ⟨_, act_atPort hl hx, ?_, ?_, rfl, rfl, fun q hq => atPort_other (quiet s) hq x _ _, rfl, rfl⟩
    · rw [atPort_same]
      exact h3
    · rw [atPort_same]
      exact h4
  · refine actIf_live_disabled hl ?_ _
    rcases h with h | h <;> simp [h]
  · exact ⟨_, actIf_live hl (c := ready s && pollDue s) (by simp [hr, hp]) (sensorPoll [.good d c] [] []), sensorPoll_good (s := quiet s) ha d c⟩

end Sys2Proof.Machine
end

section
/-! SUPPORT. Register writes, vectors and bad accesses (R79, R80, R429, R430, R435, R446, R447). -/

namespace Sys2Proof.Machine

open Sys2Proof

/-- A cause is still latched when no 1 was written for it (R79). -/
theorem mem_causesLeft {n k : Nat} (hk : k < n) (v : Nat) (l : List Nat) :
    k ∈ l.filter (fun k => !(setBits n v).contains k) ↔ k ∈ l ∧ v.testBit k = false := by
  simp [setBits, hk]

/-- A write of 4 B at an aligned offset is a register's (R430). -/
theorem registerWrite_word {off : Nat} (h : off % 4 = 0) (f : FnNo) (v : W64) (s : State) :
    registerWrite f off 4 v s = writeReg f off (v.setWidth 32).toNat s := by
  rw [BitVec.toNat_setWidth]
  exact if_pos (by simp [h])

/-- A write of 8 B at a base pair writes its low half, then its high half. -/
theorem registerWrite_pair (f : FnNo) (v : W64) (s : State) :
    registerWrite f 0x800 8 v s = writeBase f 0x804 (v.toNat / 2 ^ 32) (writeBase f 0x800 (v.toNat % 2 ^ 32) s) := rfl

theorem modFn_modFn (s : State) (f : FnNo) (g k : Fn → Fn) : modFn (modFn s f g) f k = modFn s f fun x => k (g x) := by
  simp [modFn]

theorem writeBase_enabled {s : State} {f : FnNo} (h : s.pcie.fn[f].en = true) (off v : Nat) : writeBase f off v s = s := by
  unfold writeBase
  refine (modFn_congr (h := id) ?_).trans (modFn_id s f)
  exact if_pos h

/-- The command ring's base takes both halves of a pair, without its low 12 bits (R435). -/
theorem cmdBase_pair (o v : W64) : baseHalf (baseHalf o false (v.toNat % 2 ^ 32) 4096) true (v.toNat / 2 ^ 32) 4096 =
    BitVec.ofNat 64 (v.toNat - v.toNat % 4096) := by
  have ho := o.isLt
  have hv := v.isLt
  simp only [baseHalf, Bool.false_eq_true, if_false, if_true, BitVec.toNat_ofNat]
  congr 1
  omega

/-- The command ring's base takes a half while the rings are not enabled (R435). -/
def cmdBaseHalf (hi : Bool) (v : Nat) (x : Fn) : Fn := if x.en then x else { x with cmdBase := baseHalf x.cmdBase hi v 4096 }

theorem writeBase_low (f : FnNo) (v : Nat) (s : State) : writeBase f 0x800 v s = modFn s f (cmdBaseHalf false v) := rfl

theorem writeBase_high (f : FnNo) (v : Nat) (s : State) : writeBase f 0x804 v s = modFn s f (cmdBaseHalf true v) := rfl

theorem writeBase_pair {s : State} {f : FnNo} (h : s.pcie.fn[f].en = false) (v : W64) :
    writeBase f 0x804 (v.toNat / 2 ^ 32) (writeBase f 0x800 (v.toNat % 2 ^ 32) s) = modFn s f fun x =>
      { x with cmdBase := BitVec.ofNat 64 (v.toNat - v.toNat % 4096) } := by
  have hc (x : Fn) (hx : x.en = false) : cmdBaseHalf true (v.toNat / 2 ^ 32) (cmdBaseHalf false (v.toNat % 2 ^ 32) x) =
      { x with cmdBase := BitVec.ofNat 64 (v.toNat - v.toNat % 4096) } := by
    simp only [cmdBaseHalf, hx, Bool.false_eq_true, if_false, cmdBase_pair]
  rw [writeBase_low, writeBase_high, modFn_modFn]
  exact modFn_congr (hc _ h)

theorem sadOfFn_vfOf (n : SadNo) : sadOfFn (vfOf n) = some n := by
  revert n
  decide

theorem writeReg_vfCause (n : SadNo) (v : Nat) (s : State) : writeReg (vfOf n) 0x208 v s = writeCause (vfOf n) n v s := by
  simp [writeReg, sadOfFn_vfOf]

theorem writeReg_vfCoal (n : SadNo) (v : Nat) (s : State) : writeReg (vfOf n) 0x20C v s = writeCoal (vfOf n) n v s := by
  simp [writeReg, sadOfFn_vfOf]

theorem writeReg_scratch (f : FnNo) (v : Nat) (s : State) : writeReg f 0x844 v s = modFn s f fun x => { x with scratch := BitVec.ofNat 32 v } := by
  simp [writeReg]

/-- A function's window shows its own saddle's block, and the PF's shows them all (R429). -/
theorem ownsBlock_iff {f : FnNo} {n : SadNo} : ownsBlock f n = true ↔ f = 0 ∨ f = vfOf n := by
  simp only [ownsBlock, Bool.or_eq_true, decide_eq_true_eq, beq_iff_eq]
  exact or_congr_left ⟨fun h => Fin.ext h, fun h => congrArg Fin.val h⟩

/-- A function with one vector unmasked and nothing pending for it. -/
def unmasked (vec : Fin 16) (x : Fn) : Fn :=
  { x with msixOn := true, masked := x.masked.set vec.val false vec.isLt, pba := x.pba.set vec.val false vec.isLt }

theorem unmasked_same (vec : Fin 16) (x : Fn) : (unmasked vec x).masked[vec] = false ∧ (unmasked vec x).pba[vec] = false := by
  simp [unmasked]

theorem unmasked_other {vec w : Fin 16} (h : w ≠ vec) (x : Fn) :
    (unmasked vec x).masked[w] = x.masked[w] ∧ (unmasked vec x).pba[w] = x.pba[w] := by
  have hne : ¬vec.val = w.val := fun e => h (Fin.ext e.symm)
  simp [unmasked, hne]

/-- Unmasking a vector that the function has posts what was pending for it (R447). -/
theorem unmaskVec_eq {f : FnNo} {vec : Fin 16} (h : vec.val < vectors f) (s : State) : unmaskVec f vec.val s =
    { modFn s f (unmasked vec) with
      out := { s.out with msix := s.out.msix ++ if s.pcie.fn[f].pba[vec] then [(f, vec.val)] else [] } } := by
  have hp : s.pcie.fn[f].pba.toList.getD vec.val false = s.pcie.fn[f].pba[vec] := by simp
  have hm (b : Vector Bool 16) : b.setIfInBounds vec.val false = b.set vec.val false vec.isLt :=
    Vector.ext fun i hi => by rw [Vector.getElem_setIfInBounds, Vector.getElem_set]
  unfold unmaskVec
  rw [if_neg (Nat.not_le.2 h)]
  simp only [hp, hm]
  split
  · rfl
  · rw [List.append_nil]
    rfl

/-- Settles O57: each write by the register that its offset names. -/
theorem registerWrites : Obligations.RegisterWrites := by
  refine ⟨fun f v s hl => ?_, fun f n v s hl h => ⟨?_, ?_⟩, fun f n v s hl h0 hn => ?_, fun v s hl => ⟨?_, ?_⟩, fun f v s hl => ?_,
    fun n v s => ?_, fun f off len v s hl h4 h8 => ?_, fun f off len s hl h => ?_, fun f vec s hl h => ?_⟩
  · exact act_live_kept hl (writeCtl f v.toNat) rfl rfl
  · have hx : writeCause f n v.toNat (quiet s) = modSad (quiet s) n fun x =>
        { x with irq := { x.irq with cause := x.irq.cause.filter fun k => !(setBits 4 v.toNat).contains k } } := if_pos (ownsBlock_iff.2 h)
    have hs := act_live_kept hl (writeCause f n v.toNat) (by rw [hx]; rfl) (by rw [hx]; rfl)
    rw [hx] at hs
    refine ⟨_, hs, rfl, fun k hk => ?_, ?_, fun m hm => modSad_get_other _ _ hm.symm⟩
    · rw [(modSad_get (quiet s) n n _).trans (if_pos rfl)]
      exact mem_causesLeft hk _ _
    · rw [(modSad_get (quiet s) n n _).trans (if_pos rfl)]
      rfl
  · have hx : writeCoal f n v.toNat (quiet s) = _ := if_pos (ownsBlock_iff.2 h)
    exact (act_live_kept hl (writeCoal f n v.toNat) (by rw [hx]; rfl) (by rw [hx]; rfl)).trans (congrArg _ hx)
  · have hc : ¬ownsBlock f n = true := fun h => (ownsBlock_iff.1 h).elim h0 hn
    have h1 : writeCause f n v.toNat (quiet s) = quiet s := if_neg hc
    have h2 : writeCoal f n v.toNat (quiet s) = quiet s := if_neg hc
    exact ⟨(act_live_kept hl (writeCause f n v.toNat) (by rw [h1]; rfl) (by rw [h1]; rfl)).trans (congrArg _ h1),
      (act_live_kept hl (writeCoal f n v.toNat) (by rw [h2]; rfl) (by rw [h2]; rfl)).trans (congrArg _ h2)⟩
  · exact ⟨_, act_live_kept hl (writePfCause v.toNat) rfl rfl, rfl, fun k hk => mem_causesLeft hk _ _⟩
  · exact act_live_kept hl (writePfCoal v.toNat) rfl rfl
  · refine ⟨?_, ?_, fun he => ?_, fun he => ?_⟩
    · have hx : registerWrite f 0x844 4 v (quiet s) = modFn (quiet s) f fun x => { x with scratch := v.setWidth 32 } := by
        have hb : BitVec.ofNat 32 (v.setWidth 32).toNat = v.setWidth 32 := BitVec.eq_of_toNat_eq (by simp)
        rw [registerWrite_word (by decide), writeReg_scratch, hb]
      exact (act_live_kept hl (registerWrite f 0x844 4 v) (by rw [hx]; rfl) (by rw [hx]; rfl)).trans (congrArg _ hx)
    · exact congrArg (act s) (funext fun u => (registerWrite_word (by decide) f v u).trans (by simp [writeReg]))
    · have hx : registerWrite f 0x800 8 v (quiet s) = quiet s := by
        rw [registerWrite_pair, writeBase_enabled (s := quiet s) he, writeBase_enabled (s := quiet s) he]
      exact (act_live_kept hl (registerWrite f 0x800 8 v) (by rw [hx]; rfl) (by rw [hx]; rfl)).trans (congrArg _ hx)
    · have hx := (registerWrite_pair f v (quiet s)).trans (writeBase_pair (s := quiet s) he v)
      exact (act_live_kept hl (registerWrite f 0x800 8 v) (by rw [hx]; rfl) (by rw [hx]; rfl)).trans (congrArg _ hx)
  · refine ⟨congrArg (act s) (funext fun u => ?_), congrArg (act s) (funext fun u => ?_), congrArg (act s) (funext fun u => ?_),
      congrArg (act s) (funext fun u => ?_)⟩
    · rw [registerWrite_word (by decide), writeReg_vfCause]
    · rw [registerWrite_word (by decide), writeReg_vfCoal]
    · rw [registerWrite_word (by decide)]
      rfl
    · rw [registerWrite_word (by decide)]
      rfl
  · have hx : registerWrite f off len v (quiet s) = logE (quiet s) .warn srcChip 0x0901 [("fn", 1, f.val), ("off", 2, off % 65536)] :=
      (if_neg fun hc => h4 (by simpa only [Bool.and_eq_true, decide_eq_true_eq] using hc)).trans
        (if_neg fun hc => h8 (by simpa only [Bool.and_eq_true, Bool.or_eq_true, decide_eq_true_eq, or_assoc] using hc))
    obtain ⟨e, p, hlog⟩ := logE_chip (quiet s) .warn 0x0901 [("fn", 1, f.val), ("off", 2, off % 65536)] none
    exact (act_live_kept hl (registerWrite f off len v) ((congrArg State.clk hx).trans (congrArg State.clk hlog :))
      ((congrArg State.pending hx).trans (congrArg State.pending hlog :))).trans (congrArg _ hx)
  · exact actIf_live_kept hl (c := badRead off len) (by simpa only [badRead, Bool.or_eq_true, decide_eq_true_eq] using h)
      (fun s => { s with out := { s.out with abort := true } }) rfl rfl
  · have hv : vec.val < vectors f := by
      by_cases hf : f = 0
      · subst hf
        exact h
      · rw [if_neg hf] at h
        exact h.trans_eq (if_neg fun h0 => hf (Fin.ext h0)).symm
    have hx := unmaskVec_eq hv (quiet s)
    have hs := act_live_kept hl (unmaskVec f vec.val) (by rw [hx]; rfl) (by rw [hx]; rfl)
    rw [hx] at hs
    have hf : (modFn (quiet s) f (unmasked vec)).pcie.fn[f] = unmasked vec s.pcie.fn[f] := (modFn_get _ f f _).trans (if_pos rfl)
    have ho (g : FnNo) (hg : g ≠ f) : (modFn (quiet s) f (unmasked vec)).pcie.fn[g] = s.pcie.fn[g] := modFn_get_other _ _ hg.symm
    obtain ⟨h1, h2⟩ := hf ▸ unmasked_same vec s.pcie.fn[f]
    exact ⟨_, hs, h1, h2, rfl, fun w hw => hf ▸ unmasked_other hw s.pcie.fn[f], ho, rfl, rfl⟩

end Sys2Proof.Machine
end

section
/-! SUPPORT. Function resets, link events and DMA completions (R95, R444, R445, R448, R450). -/

namespace Sys2Proof.Machine

open Sys2Proof

/-! ### A function's reset -/

/-- What a VF's reset does to the saddle of its number (R95): one bound to a port or to the console stays as it is. -/
def vfHit (s : State) (n : SadNo) (x : Saddle) : Saddle :=
  match bindOf s n with
  | .sp _ | .console => x
  | _ => { x with
    irq := { ticks := pnat s .sadIrqTicks n.val, count := pnat s .sadIrqCount n.val, masked := x.irq.masked }, resetReq := true }

theorem vfHit_vf {s : State} {n : SadNo} (h : bindOf s n = .vf) (x : Saddle) :
    (vfHit s n x).resetReq = true ∧ (vfHit s n x).irq.cause = [] := by
  unfold vfHit
  rw [h]
  exact ⟨rfl, rfl⟩

theorem vfHit_console {s : State} {n : SadNo} (h : bindOf s n = .console) (x : Saddle) : vfHit s n x = x := by
  unfold vfHit
  rw [h]

theorem vfHit_cfg {s t : State} (h : t.cfg = s.cfg) (n : SadNo) : vfHit t n = vfHit s n := by
  unfold vfHit bindOf pnat pint cfgVal
  rw [h]

/-- A VF's reset: its ring block, its lines, and its saddle's part (R448). -/
theorem vfReset_eq (s : State) (n : SadNo) : ∃ l, vfReset s n = { modFn (modSad s n (vfHit s n)) (vfOf n) (fun _ => {}) with fil := l } := by
  have hx : ∃ l, fnReset s (vfOf n) = { modFn s (vfOf n) (fun _ => {}) with fil := l } := ⟨_, rfl⟩
  obtain ⟨l, hl⟩ := hx
  have hb : bindOf { modFn s (vfOf n) (fun _ => {}) with fil := l } n = bindOf s n := rfl
  have hid : bindOf s n = .console ∨ (∃ p, bindOf s n = .sp p) → modSad s n (vfHit s n) = s := fun h => modSad_eq_self (by
    unfold vfHit
    rcases h with h | ⟨p, h⟩ <;> rw [h])
  refine ⟨l, ?_⟩
  unfold vfReset
  rw [hl]
  dsimp only
  rw [hb]
  cases h : bindOf s n with
  | sp p => rw [hid (.inr ⟨p, h⟩)]
  | console => rw [hid (.inl h)]
  | none | vf =>
    have hv : vfHit s n = fun x => { x with
        irq := { ticks := pnat s .sadIrqTicks n.val, count := pnat s .sadIrqCount n.val, masked := x.irq.masked }, resetReq := true } := by
      funext x
      unfold vfHit
      rw [h]
    dsimp only
    rw [hv, askReset, irqReset, modSad_modSad]
    rfl

/-- A state in which VFs have been reset: what each saddle and function is. -/
theorem foldl_vfReset {s : State} (hit : SadNo → Bool) (l : List SadNo) : ∀ t : State, l.Nodup → t.cfg = s.cfg →
    ∃ d v f, l.foldl (fun t n => if hit n then vfReset t n else t) t = { t with sad := d, pcie := { t.pcie with fn := v }, fil := f } ∧
      (∀ n : SadNo, d[n] = if n ∈ l ∧ hit n = true then vfHit s n t.sad[n] else t.sad[n]) ∧
      (∀ n : SadNo, v[vfOf n] = if n ∈ l ∧ hit n = true then {} else t.pcie.fn[vfOf n]) ∧ v[(0 : FnNo)] = t.pcie.fn[(0 : FnNo)] := by
  induction l with
  | nil => exact fun t _ _ => ⟨t.sad, t.pcie.fn, t.fil, rfl, fun n => by simp, fun n => by simp, rfl⟩
  | cons m l ih =>
    intro t hn hc
    obtain ⟨hml, hl⟩ := List.nodup_cons.1 hn
    cases hm : hit m with
    | false =>
      obtain ⟨d, v, f, hx, h1, h2, h3⟩ := ih t hl hc
      have hmem (n : SadNo) : (n ∈ m :: l ∧ hit n = true) ↔ (n ∈ l ∧ hit n = true) := by
        constructor
        · rintro ⟨h, hh⟩
          exact ⟨(List.mem_cons.1 h).resolve_left fun e => by simp [e, hm] at hh, hh⟩
        · exact fun h => ⟨List.mem_cons_of_mem _ h.1, h.2⟩
      refine ⟨d, v, f, ?_, fun n => (h1 n).trans (if_congr (hmem n).symm rfl rfl), fun n => (h2 n).trans (if_congr (hmem n).symm rfl rfl), h3⟩
      rw [List.foldl_cons, if_neg (by simp [hm]), hx]
    | true =>
      obtain ⟨g, hr⟩ := vfReset_eq t m
      obtain ⟨d, v, f, hx, h1, h2, h3⟩ := ih (vfReset t m) hl (by rw [hr]; exact hc)
      have hsad (n : SadNo) : (vfReset t m).sad[n] = if m = n then vfHit s m t.sad[m] else t.sad[n] := by
        rw [hr, ← vfHit_cfg hc]
        exact modSad_get t m n _
      have hfn (k : FnNo) : (vfReset t m).pcie.fn[k] = if vfOf m = k then {} else t.pcie.fn[k] := by
        rw [hr]
        exact modFn_get (modSad t m (vfHit t m)) (vfOf m) k fun _ => {}
      have hmem (n : SadNo) : (n ∈ m :: l ∧ hit n = true) ↔ (m = n ∨ (n ∈ l ∧ hit n = true)) := by
        constructor
        · rintro ⟨h, hh⟩
          exact (List.mem_cons.1 h).elim (fun e => .inl e.symm) fun h => .inr ⟨h, hh⟩
        · rintro (rfl | h)
          · exact ⟨List.mem_cons_self, hm⟩
          · exact ⟨List.mem_cons_of_mem _ h.1, h.2⟩
      refine ⟨d, v, f, ?_, fun n => ?_, fun n => ?_, ?_⟩
      · rw [List.foldl_cons, if_pos hm, hx, hr]
        rfl
      · rw [h1 n, hsad n, if_congr (hmem n) rfl rfl]
        by_cases h : m = n
        · subst h
          simp [hml]
        · simp [h]
      · rw [h2 n, hfn, if_congr (hmem n) rfl rfl]
        have hv : vfOf m = vfOf n ↔ m = n := ⟨fun h => Option.some.inj (by rw [← sadOfFn_vfOf m, h, sadOfFn_vfOf]), fun h => h ▸ rfl⟩
        by_cases h : m = n
        · subst h
          simp
        · simp [h, hv]
      · rw [h3, hfn, if_neg fun h => by simpa [vfOf] using congrArg Fin.val h]

/-- A change of the VFs removes a VF (R448). -/
def vfGone (s : State) (en : Bool) (k : Nat) (n : SadNo) : Bool :=
  n.val < (if s.pcie.vfEn then s.pcie.numVfs else 0) && (if en then min 8 k else 0) ≤ n.val

theorem vfGone_iff {s : State} {en : Bool} {k : Nat} {n : SadNo} :
    vfGone s en k n = true ↔ s.pcie.vfEn = true ∧ n.val < s.pcie.numVfs ∧ (en = false ∨ k ≤ n.val) := by
  unfold vfGone
  rw [Bool.and_eq_true, decide_eq_true_eq, decide_eq_true_eq]
  have := n.isLt
  cases s.pcie.vfEn <;> cases en <;> simp

theorem vfEnableChange_resets (s : State) {en : Bool} {k : Nat} {t : State}
    (h : allSads.foldl (fun t n => if vfGone s en k n then vfReset t n else t) s = t) :
    vfEnableChange en k s = { t with pcie := { t.pcie with vfEn := en, numVfs := min 8 k } } := by
  subst h
  rfl

/-! ### A PF reset -/

/-- What cutting the admin channel's commands keeps (R95, R117). -/
def AdmCut (s t : State) : Prop :=
  t.cfg = s.cfg ∧ t.fl = s.fl ∧ t.pcie = s.pcie ∧ ∀ n : SadNo, ∃ l r, t.sad[n] = { s.sad[n] with posLost := l, resetReq := r }

theorem AdmCut.refl (s : State) : AdmCut s s := ⟨rfl, rfl, rfl, fun _ => ⟨_, _, rfl⟩⟩

theorem AdmCut.trans {s t u : State} (h : AdmCut s t) (g : AdmCut t u) : AdmCut s u := by
  obtain ⟨h1, h2, h3, h4⟩ := h
  obtain ⟨g1, g2, g3, g4⟩ := g
  refine ⟨g1.trans h1, g2.trans h2, g3.trans h3, fun n => ?_⟩
  obtain ⟨l, r, hs⟩ := h4 n
  obtain ⟨l', r', gs⟩ := g4 n
  exact ⟨l', r', by rw [gs, hs]⟩

/-- A change that writes none of the parts that are kept. -/
theorem AdmCut.of_eq {s t : State} (h1 : t.cfg = s.cfg) (h2 : t.fl = s.fl) (h3 : t.pcie = s.pcie) (h4 : t.sad = s.sad) : AdmCut s t :=
  ⟨h1, h2, h3, fun n => ⟨s.sad[n].posLost, s.sad[n].resetReq, by rw [h4]⟩⟩

theorem AdmCut.modSad (s : State) (n : SadNo) (f : Saddle → Saddle) (h : ∃ l r, f s.sad[n] = { s.sad[n] with posLost := l, resetReq := r }) :
    AdmCut s (modSad s n f) := by
  refine ⟨rfl, rfl, rfl, fun m => ?_⟩
  rw [modSad_get]
  split
  · next he => exact he ▸ h
  · exact ⟨_, _, rfl⟩

theorem endMotion_admCut (s : State) : AdmCut s (endMotion s) := .of_eq rfl rfl rfl rfl

theorem cutCommand_admCut (e : Entry) (s : State) : AdmCut s (cutCommand s .adm e) := by
  unfold cutCommand
  extract_lets tag mine _ u w
  have hu : AdmCut s u := .of_eq rfl rfl rfl rfl
  have hw : AdmCut s w := by
    unfold w
    split
    · next t _ =>
      split
      · refine hu.trans ?_
        unfold stayMode
        extract_lets _ y
        have hy : AdmCut u y := by
          unfold y
          split
          · exact .of_eq rfl rfl rfl rfl
          · exact .refl u
        exact hy.trans (.of_eq rfl rfl rfl rfl)
      · exact hu
    · exact hu
  clear_value u w
  have hlost (o : Option SadNo) : AdmCut s (match o with
      | some n => Machine.modSad w n fun x => { x with posLost := true }
      | none => w) := by
    cases o with
    | none => exact hw
    | some n => exact hw.trans (.modSad w n _ ⟨true, _, rfl⟩)
  have hend (t : State) (ht : AdmCut s t) (c : Bool) : AdmCut s (if c then endMotion t else t) := by
    cases c with
    | false => exact ht
    | true => exact ht.trans (endMotion_admCut t)
  cases hv : e.verb with
  | locate | space => exact hend _ (hlost _) _
  | load | unload => exact hend _ hw _
  | logText => exact hw.trans (.of_eq rfl rfl rfl rfl)
  | sreset =>
    dsimp only
    split
    · next n _ =>
      split
      · exact hw.trans (.modSad w n _ ⟨_, false, rfl⟩)
      · exact hw
    · exact hw
  | cal | testDram | testFlash | testLoop | testPattern =>
    dsimp only
    split
    · exact hw.trans (.of_eq rfl rfl rfl rfl)
    · exact hw
  | _ => exact hw

/-- Dropping the admin channel's commands keeps the same, with nothing owed for its tags (R117). -/
theorem dropEntries_admCut {s : State} (hf : s.pcie.flowAdm = false) (p : Entry → Bool) : AdmCut s (dropEntries s .adm p) := by
  have hcut : AdmCut s (((queueOf s .adm).entries.filter p).foldl (fun s e => if e.ended.isSome then s else cutCommand s .adm e) s) := by
    refine foldl_keeps (AdmCut s) _ (fun t e ht => ?_) _ s (.refl s)
    split
    · exact ht
    · exact ht.trans (cutCommand_admCut e t)
  have hfree {t : State} (ht : AdmCut s t) : tagsFreed t .adm = t := if_neg (by
    obtain ⟨-, -, h3, -⟩ := ht
    rw [h3, hf]
    decide)
  unfold dropEntries
  extract_lets gone u w x
  have hu : AdmCut s u := hcut
  clear_value u
  have hw : AdmCut s w := hu.trans (.of_eq rfl rfl rfl rfl)
  have hx : x = w := by
    unfold x
    rw [hfree hw, ite_self]
  exact hx ▸ hw

/-- The admin channel goes into its reset (R95). -/
def admHeld (s : State) : State := { s with pcie := { s.pcie with admReset := true, flowAdm := false }, med := { s.med with staged := [] } }

theorem admReset_admCut (s : State) : AdmCut (admHeld s) (admReset s) := by
  have h : AdmCut (admHeld s) (dropEntries (admHeld s) .adm fun _ => true) := dropEntries_admCut rfl _
  unfold admReset
  change AdmCut (admHeld s) (if chanOf (dropEntries (admHeld s) .adm fun _ => true) .console == some .adm
    then modSes (dropEntries (admHeld s) .adm fun _ => true) .console _ else dropEntries (admHeld s) .adm fun _ => true)
  split
  · exact h.trans (.of_eq rfl rfl rfl rfl)
  · exact h

/-- Every ring block of a list resets (R448). -/
theorem foldl_fnReset (l : List FnNo) : ∀ s : State, ∃ v f, l.foldl fnReset s = { s with pcie := { s.pcie with fn := v }, fil := f } ∧
    ∀ k : FnNo, (k ∈ l ∨ s.pcie.fn[k] = {}) → v[k] = {} := by
  induction l with
  | nil => exact fun s => ⟨s.pcie.fn, s.fil, rfl, fun k h => h.resolve_left List.not_mem_nil⟩
  | cons m l ih =>
    intro s
    have hx : ∃ f, fnReset s m = { modFn s m (fun _ => {}) with fil := f } := ⟨_, rfl⟩
    obtain ⟨g, hg⟩ := hx
    obtain ⟨v, f, h1, h2⟩ := ih (fnReset s m)
    refine ⟨v, f, ?_, fun k hk => h2 k ?_⟩
    · rw [List.foldl_cons, h1, hg]
      rfl
    · have hf : (fnReset s m).pcie.fn[k] = if m = k then {} else s.pcie.fn[k] := by
        rw [hg]
        exact modFn_get s m k fun _ => {}
      by_cases hm : m = k
      · exact .inr (hf.trans (if_pos hm))
      · refine hk.imp (fun h => (List.mem_cons.1 h).resolve_left (Ne.symm hm)) fun h => ?_
        rw [hf, if_neg hm, h]

/-- Every saddle bound to VF goes into its reset with the PF (R448). -/
theorem foldl_askVf (s : State) : ∃ d, allSads.foldl (fun s n => if bindOf s n == .vf then askReset (irqReset s n) n else s) s =
      { s with sad := d } ∧ (∀ n : SadNo, bindOf s n = .vf → d[n].resetReq = true) ∧ ∀ n : SadNo, bindOf s n ≠ .vf → d[n] = s.sad[n] := by
  obtain ⟨d, hd, hm⟩ := foldl_modSad (s := s) (F := fun n => if bindOf s n == .vf then vfHit s n else id)
    (g := fun s n => if bindOf s n == .vf then askReset (irqReset s n) n else s) (by
      intro t n hc
      have hb : bindOf t n = bindOf s n := by simp only [bindOf, pnat, pint, cfgVal, hc]
      rw [hb, ← vfHit_cfg hc]
      split
      · next h =>
        have hv : vfHit t n = fun x => { x with
            irq := { ticks := pnat t .sadIrqTicks n.val, count := pnat t .sadIrqCount n.val, masked := x.irq.masked }, resetReq := true } := by
          funext x
          unfold vfHit
          rw [hb, beq_iff_eq.1 h]
        rw [hv, askReset, irqReset, modSad_modSad]
      · exact (modSad_eq_self rfl).symm) allSads s allSads_nodup rfl
  refine ⟨d, hd, fun n h => ?_, fun n h => ?_⟩
  · rw [hm n, if_pos (mem_allSads n), if_pos (beq_iff_eq.2 h)]
    exact (vfHit_vf h _).1
  · rw [hm n, if_pos (mem_allSads n), if_neg (mt beq_iff_eq.1 h)]
    rfl

/-- The PF's registers and the link after its reset (R448). -/
def pfGone (k : PfResetKind) (s : State) : State := { s with
  pool := { s.pool with audSel := 0 }
  diag := { s.diag with calSel := 0 }
  pcie := { s.pcie with
    up := if k != .flr then false else s.pcie.up, speed := if k != .flr then 0 else s.pcie.speed, l1 := if k != .flr then false else s.pcie.l1
    numVfs := 0, vfEn := false, pfResets := sat 16 (s.pcie.pfResets + 1)
    linkDown := if k == .dlDown then inc s.pcie.linkDown else s.pcie.linkDown
    irq := { ticks := pnat s .admIrqTicks, count := pnat s .admIrqCount }
    wchSel := 0, rchSel := 0, spSel := 0 } }

theorem pfReset_steps (k : PfResetKind) (s : State) : pfReset k s = pfGone k ((List.finRange 9).foldl fnReset
    (allSads.foldl (fun s n => if bindOf s n == .vf then askReset (irqReset s n) n else s) (admReset s))) := rfl

/-- What a PF reset leaves of PCIe (R448). -/
theorem pfReset_eq (k : PfResetKind) (s : State) : let t := pfReset k s
    (∀ f : FnNo, t.pcie.fn[f] = {}) ∧ t.pcie.numVfs = 0 ∧ t.pcie.vfEn = false ∧ t.pcie.pfResets = sat 16 (s.pcie.pfResets + 1) ∧
      t.pcie.admReset = true ∧ t.pcie.irq.cause = [] ∧ t.pcie.up = (if k != .flr then false else s.pcie.up) ∧
      t.pcie.linkDown = (if k == .dlDown then inc s.pcie.linkDown else s.pcie.linkDown) ∧
      (∀ n : SadNo, bindOf s n = .vf → t.sad[n].resetReq = true) ∧
      (∀ n : SadNo, bindOf s n ≠ .vf → ∃ l r, t.sad[n] = { s.sad[n] with posLost := l, resetReq := r }) ∧ t.cfg = s.cfg ∧ t.fl = s.fl := by
  obtain ⟨h1, h2, h3, h4⟩ := admReset_admCut s
  have hb (n : SadNo) : bindOf (admReset s) n = bindOf s n := by simp only [bindOf, pnat, pint, cfgVal, h1]; rfl
  obtain ⟨d, hd, g1, g2⟩ := foldl_askVf (admReset s)
  obtain ⟨v, f, hv, hf⟩ := foldl_fnReset (List.finRange 9) { admReset s with sad := d }
  have e1 : sat 16 ((admReset s).pcie.pfResets + 1) = sat 16 (s.pcie.pfResets + 1) := by rw [h3]; rfl
  have e2 : (admReset s).pcie.admReset = true := by rw [h3]; rfl
  have e3 : (if k != .flr then false else (admReset s).pcie.up) = (if k != .flr then false else s.pcie.up) := by rw [h3]; rfl
  have e4 : (if k == .dlDown then inc (admReset s).pcie.linkDown else (admReset s).pcie.linkDown) =
      (if k == .dlDown then inc s.pcie.linkDown else s.pcie.linkDown) := by rw [h3]; rfl
  rw [pfReset_steps, hd, hv]
  refine ⟨fun f => hf f (.inl (List.mem_finRange f)), rfl, rfl, ?_, ?_, rfl, ?_, ?_, fun n hn => g1 n ((hb n).trans hn), fun n hn => ?_, h1, h2⟩
  · exact e1
  · exact e2
  · exact e3
  · exact e4
  · obtain ⟨l, r, hs⟩ := h4 n
    exact ⟨l, r, (g2 n fun h => hn ((hb n).symm.trans h)).trans hs⟩

/-! ### DMA -/

theorem chanOfFn_vfOf (n : SadNo) : chanOfFn (vfOf n) = .sad n := by
  unfold chanOfFn
  rw [sadOfFn_vfOf]
  rfl

/-- A channel's entries rest on its queue alone. -/
theorem entryOf_congr {s t : State} {ch : Chan} (h : queueOf t ch = queueOf s ch) (k : Nat) : entryOf t ch k = entryOf s ch k := by
  unfold entryOf
  rw [h]

/-- What a WRITE that is cut leaves: its bytes are gone, and its caddies are trimmed (R445). -/
theorem cutCommand_write {s : State} {n : SadNo} {e : Entry} {a : WriteArgs} (hv : e.verb = .write a) : ∃ p m o c,
    cutCommand s (.sad n) e = modSad { modEntry s (.sad n) e.tag (fun e => { e with data := [], segs := [] }) with pw := p, med := m, pool := o } n
      fun x => { x with caddies := c } := by
  unfold cutCommand
  extract_lets tag mine _ u w
  obtain ⟨p, m, hw⟩ : ∃ p m, w = { s with pw := p, med := m } := by
    unfold w
    split
    · split
      · unfold stayMode
        extract_lets _ y
        have hy : ∃ m, y = { u with med := m } := by
          unfold y
          split <;> exact ⟨_, rfl⟩
        obtain ⟨m, hy⟩ := hy
        rw [hy]
        exact ⟨_, m, rfl⟩
      · exact ⟨_, s.med, rfl⟩
    · exact ⟨_, s.med, rfl⟩
  clear_value w
  subst hw
  rw [hv]
  obtain ⟨o, c, h⟩ := trimCaddies_eq (modEntry (unlock { s with pw := p, med := m } n tag) (.sad n) tag fun e => { e with data := [], segs := [] }) n
    (blockOf { s with pw := p, med := m } n)
  exact ⟨p, _, o, c, h⟩

theorem dmaComplete_data {s : State} {n : SadNo} (h : bindOf s n = .vf) (b : List Byte) :
    dmaComplete (vfOf n) .writeData (.ok b) s = takeBytes s n b := by
  simp only [dmaComplete, sadOfFn_vfOf, h, beq_self_eq_true, if_true]

theorem dmaComplete_dataFailed {s : State} {n : SadNo} {e : Entry} (h : writeWanted s n = some e) (x : DmaErr) (a : Nat) :
    dmaComplete (vfOf n) .writeData (.err (x, a)) s = dmaEnd (countDma s (vfOf n) 2 x a) (.sad n) e (dmaFault x a) := by
  simp only [dmaComplete, sadOfFn_vfOf, h, chanOfFn_vfOf]

/-- The WRITE that wants bytes is open and lacks some (R210). -/
theorem writeWanted_spec {s : State} {n : SadNo} {e : Entry} (h : writeWanted s n = some e) :
    e.ended = none ∧ ∃ a, e.verb = .write a ∧ e.data.length < a.len := by
  have hp := List.find?_some h
  simp only [Bool.and_eq_true, Option.isNone_iff_eq_none] at hp
  refine ⟨hp.1.2, ?_⟩
  have h2 := hp.2
  split at h2
  · next a ha => exact ⟨a, ha, by simpa using h2⟩
  · cases h2

/-- Bytes that a WRITE still lacks, within the tick's budget and the caddies' room, join its data (R19, R210). -/
theorem takeBytes_joins {s : State} {n : SadNo} {b : List Byte} {e : Entry} {a : WriteArgs} (hw : writeWanted s n = some e)
    (hv : e.verb = .write a) (hl : b.length ≤ a.len - e.data.length) (hd : b.length ≤ dmaInRoom s n)
    (hr : roomFor s n (blockOf s n) b.length = true) : takeBytes s n b =
      modEntry { s with used := { s.used with dmaIn := s.used.dmaIn + b.length } } (.sad n) e.tag fun e =>
        { e with data := e.data ++ b, got := e.got + b.length, why := .none } := by
  have h1 : b.take (lacks e) = b := List.take_of_length_le (by simpa only [lacks, hv] using hl)
  have h2 : b.take (dmaInRoom s n) = b := List.take_of_length_le hd
  unfold takeBytes
  rw [hw]
  simp only [h1, h2, Nat.lt_irrefl, decide_false, Bool.false_and, Bool.false_eq_true, if_false, hr, if_true]

/-- Past the tick's budget bytes wait for the engine (R19). -/
theorem takeBytes_waits {s : State} {n : SadNo} {b : List Byte} {e : Entry} (hw : writeWanted s n = some e) (hb : 0 < b.length)
    (hd : dmaInRoom s n = 0) : takeBytes s n b = setWhy s (.sad n) e.tag .engine := by
  obtain ⟨-, a, hv, hl⟩ := writeWanted_spec hw
  have h1 : 0 < (b.take (lacks e)).length := by
    simp only [List.length_take, lacks, hv]
    omega
  unfold takeBytes
  rw [hw]
  dsimp only
  rw [hd, List.take_zero]
  exact if_pos (by simpa using h1)

/-- A saddle's caddies are no part of its queue. -/
theorem queueOf_modSad_caddies (s : State) (n : SadNo) (c : List (Nat × Nat)) (ch : Chan) :
    queueOf (modSad s n fun x => { x with caddies := c }) ch = queueOf s ch := by
  cases ch with
  | adm => rfl
  | sad m =>
    refine (congrArg Saddle.q (modSad_get s n m _)).trans ?_
    split
    · next h => exact h ▸ rfl
    · rfl

/-- A failed DMA ends its WRITE, whose bytes are gone, and is counted (R445). -/
theorem dmaEnd_write {s : State} {n : SadNo} {e : Entry} {a : WriteArgs} (hv : e.verb = .write a) (hn : e.ended = none)
    (he : entryOf s (.sad n) e.tag = some e) (o : Outc) : ∃ t, dmaEnd s (.sad n) e o = t ∧ EndedWith t (.sad n) e.tag o ∧
      OthersKept s t (.sad n) e.tag ∧ t.pcie = s.pcie ∧ t.cfg = s.cfg ∧ t.adm = s.adm := by
  obtain ⟨p, m, w, c, hc⟩ := cutCommand_write (s := s) (n := n) hv
  have hq (k : Nat) : entryOf (cutCommand s (.sad n) e) (.sad n) k =
      entryOf (modEntry s (.sad n) e.tag fun e => { e with data := [], segs := [] }) (.sad n) k := by
    rw [hc]
    exact (entryOf_congr (queueOf_modSad_caddies _ n c (.sad n)) k).trans rfl
  have hent : ∀ e : Entry, (if e.ended.isNone then { e with ended := some o, data := [] } else e).tag = e.tag := by
    intro e
    split <;> rfl
  refine ⟨_, rfl, ⟨{ e with data := [], segs := [], ended := some o }, ?_, rfl⟩, fun k hk => ?_, ?_, ?_, ?_⟩
  · unfold dmaEnd endWithout
    rw [entryOf_modEntry _ _ _ _ hent, hq, entryOf_modEntry _ _ _ (fun e => { e with data := [], segs := [] }) fun _ => rfl, he]
    simp [hn]
  · unfold dmaEnd endWithout
    rw [entryOf_modEntry_other _ _ hk _ hent, hq]
    exact entryOf_modEntry_other _ _ hk (fun e => { e with data := [], segs := [] }) fun _ => rfl
  · unfold dmaEnd
    rw [hc]
    rfl
  · unfold dmaEnd
    rw [hc]
    rfl
  · unfold dmaEnd
    rw [hc]
    rfl

/-- Settles O59: each reset by what it hits, each DMA by what its WRITE wants. -/
theorem linkEvents : Obligations.LinkEvents := by
  refine ⟨fun n s hl => ?_, fun k s hl => ?_, fun en k s hl => ?_, fun sp w s hl => ?_, fun e s hl => ?_,
    fun n b e a s hl hb hw hv hlen hd hr he => ?_, fun n b e a s hl hb hw hv hlen hd he => ?_, fun n x a e s hl hw he => ?_,
    fun f r s hl => ?_⟩
  · obtain ⟨l, hx⟩ := vfReset_eq (quiet s) n
    rw [vfHit_cfg (s := s) (t := quiet s) rfl] at hx
    have hs := act_live hl (vfFlr n)
    unfold vfFlr at hs
    rw [hx] at hs
    have hsad (m : SadNo) : (modSad (quiet s) n (vfHit s n)).sad[m] = if n = m then vfHit s n s.sad[n] else s.sad[m] :=
      modSad_get (quiet s) n m (vfHit s n)
    have hfn (f : FnNo) := modFn_get (modSad (quiet s) n (vfHit s n)) (vfOf n) f fun _ => {}
    refine ⟨_, hs, (hfn (vfOf n)).trans (if_pos rfl), fun f hf => (hfn f).trans (if_neg (Ne.symm hf)), rfl,
      fun m hm => (hsad m).trans (if_neg (Ne.symm hm)), fun hb => ?_, fun hb => ?_, rfl, rfl⟩
    · have h := (hsad n).trans (if_pos rfl)
      exact ⟨(congrArg Saddle.resetReq h).trans (vfHit_vf hb _).1, (congrArg (fun x => x.irq.cause) h).trans (vfHit_vf hb _).2⟩
    · exact ((hsad n).trans (if_pos rfl)).trans (vfHit_console hb _)
  · have hs := act_live hl (pfReset k)
    have hf := pfReset_eq k (quiet s)
    generalize pfReset k (quiet s) = t at hs hf
    obtain ⟨h1, h2, h3, h4, h5, h6, h7, h8, h9, h10, h11, h12⟩ := hf
    refine ⟨_, hs, h1, h2, h3, h4, h5, h6, fun hk => ?_, fun hk => ?_, h8.trans (if_congr beq_iff_eq rfl rfl), h9, fun n hn => ?_, h11, h12⟩
    · subst hk
      exact h7
    · exact h7.trans (if_pos (by simpa using hk))
    · obtain ⟨l, r, h⟩ := h10 n hn
      have h' : t.sad[n] = { s.sad[n] with posLost := l, resetReq := r } := h
      exact h'.trans (by rw [h'])
  · obtain ⟨d, v, f, hx, h1, h2, h3⟩ := foldl_vfReset (s := quiet s) (vfGone s en k) allSads (quiet s) allSads_nodup rfl
    have hs := act_live hl (vfEnableChange en k)
    rw [vfEnableChange_resets (quiet s) (t := { quiet s with sad := d, pcie := { s.pcie with fn := v }, fil := f }) hx] at hs
    have hc (n : SadNo) : (n ∈ allSads ∧ vfGone s en k n = true) ↔ vfGone s en k n = true := and_iff_right (mem_allSads n)
    refine ⟨_, hs, rfl, rfl, fun n hn hk => ?_, fun n hn => ?_, h3, rfl, rfl⟩
    · have hg := (hc n).2 (vfGone_iff.2 ⟨hn.1, hn.2, hk⟩)
      refine ⟨(h2 n).trans (if_pos hg), fun hb => ?_⟩
      exact (congrArg Saddle.resetReq ((h1 n).trans (if_pos hg))).trans (vfHit_vf (s := quiet s) hb _).1
    · have hg : ¬(n ∈ allSads ∧ vfGone s en k n = true) := by
        rw [hc, vfGone_iff]
        rintro ⟨hv, hw, hk⟩
        rcases hn with hn | hn | ⟨rfl, hn⟩
        · rw [hn] at hv
          cases hv
        · omega
        · exact hk.elim (fun h => by cases h) fun h => by omega
      exact ⟨(h2 n).trans (if_neg hg), (h1 n).trans (if_neg hg)⟩
  · exact act_live_kept hl (fun s => { s with pcie := { s.pcie with up := true, l1 := false, speed := sp % 16, width := w % 16, admReset := false } }) rfl rfl
  · have hs := act_live hl fun s =>
      if AerErr.correctable e then { s with pcie := { s.pcie with aerCor := inc s.pcie.aerCor } }
      else { s with pcie := { s.pcie with aerUnc := inc s.pcie.aerUnc } }
    refine hs.trans (congrArg _ ?_)
    cases AerErr.correctable e <;> rfl
  · have hx := (dmaComplete_data (s := quiet s) hb b).trans (takeBytes_joins (s := quiet s) hw hv hlen hd hr)
    refine ⟨_, { e with data := e.data ++ b, got := e.got + b.length, why := .none }, act_effect hl hx rfl rfl, ?_, rfl, rfl, rfl,
      fun k hk => ?_, rfl, rfl, rfl⟩
    · exact (entryOf_modEntry _ (.sad n) e.tag (fun e => { e with data := e.data ++ b, got := e.got + b.length, why := .none }) fun _ => rfl).trans
        (congrArg _ he)
    · exact entryOf_modEntry_other _ _ hk (fun e => { e with data := e.data ++ b, got := e.got + b.length, why := .none }) fun _ => rfl
  · have hx := (dmaComplete_data (s := quiet s) hb b).trans (takeBytes_waits (s := quiet s) hw hlen hd)
    refine ⟨_, act_effect hl hx rfl rfl, ?_, rfl, fun k hk => ?_, rfl, rfl⟩
    · exact (entryOf_modEntry (quiet s) (.sad n) e.tag (fun e => { e with why := .engine }) fun _ => rfl).trans (congrArg _ he)
    · exact entryOf_modEntry_other (quiet s) _ hk (fun e => { e with why := .engine }) fun _ => rfl
  · obtain ⟨hn, b, hv, -⟩ := writeWanted_spec hw
    obtain ⟨t, ht, h1, h2, h3, h4, h5⟩ := dmaEnd_write (s := countDma (quiet s) (vfOf n) 2 x a) (n := n) hv hn he (dmaFault x a)
    have hs := act_live hl (dmaComplete (vfOf n) .writeData (.err (x, a)))
    rw [dmaComplete_dataFailed (s := quiet s) hw, ht] at hs
    refine ⟨_, hs, h1, ?_, h2, h4, h5⟩
    refine (congrArg (fun p : Pcie => p.fn[vfOf n]) h3).trans ?_
    exact (modFn_get (quiet s) (vfOf n) (vfOf n) _).trans (if_pos rfl)
  · exact act_live_kept hl (dmaComplete f .readData r) (by cases r <;> rfl) (by cases r <;> rfl)

end Sys2Proof.Machine
end

section
/-! SUPPORT. The motor drive link and the backhitch (R372-R374, R381), servo decoding and lost bands (R352-R360). -/

namespace Sys2Proof.Machine

open Sys2Proof

/-! ### The motor drive link and the backhitch -/

/-- A frame that is missing or fails its checks has been counted (R381). -/
def mdlBad (s : State) : State := { s with srv := { s.srv with mdlErr := sat 16 (s.srv.mdlErr + 1), mdlRun := s.srv.mdlRun + 1 } }

theorem mdlRx_bad {s : State} {f : Option (List Byte)} (h : ∀ l, f = some l → mdlRxOk s l = false) :
    mdlRx f s = if s.srv.mdlRun < 2 then mdlBad s else haltRequest (mdlBad s) .motion := by
  have hf : f.filter (mdlRxOk s) = none := by
    cases f with
    | none => rfl
    | some l => simp [h l rfl]
  have hx : mdlRx f s = if 3 ≤ s.srv.mdlRun + 1 then haltRequest (mdlBad s) .motion else mdlBad s := by
    unfold mdlRx
    rw [hf]
    rfl
  rw [hx]
  split
  · exact (if_neg (by omega)).symm
  · exact (if_pos (by omega)).symm

/-- What a valid frame brings, once its warnings are logged (R381). -/
def mdlTaken (l : List Byte) (s : State) : State := { s with srv := { s.srv with
  mdlRun := 0, mdlWarn := beField l 3 1 / 32 % 4, mdlFaults := if 128 ≤ beField l 3 1 then s.srv.mdlFaults + 1 else 0
  coarse := beField l 3 1 / 4 % 2 = 1 || (s.srv.coarse && beField l 12 2 ≠ s.srv.coarseAt)
  encMoved := signed 32 ((beField l 8 4 + 2 ^ 32 - s.srv.encT) % 2 ^ 32)
  encS := beField l 4 4, encT := beField l 8 4, iS := signed 16 (beField l 14 2), iT := signed 16 (beField l 16 2) } }

theorem mdlRx_good {s : State} {l : List Byte} (h : mdlRxOk s l = true) : ∃ v p, mdlRx (some l) s =
    if 2 ≤ (mdlTaken l s).srv.mdlFaults then haltRequest { mdlTaken l s with evt := v, pcie := p } .motion
    else { mdlTaken l s with evt := v, pcie := p } := by
  have hf : (some l).filter (mdlRxOk s) = some l := by simp [h]
  obtain ⟨v, p, hl⟩ : ∃ v p, (if (beField l 3 1 / 32 % 4 &&& (3 - s.srv.mdlWarn)) ≠ 0 then logE s .warn srcChip 0x0602 [("stat", 1, beField l 3 1)]
      else s) = { s with evt := v, pcie := p } := by
    split
    · exact logE_chip _ _ _ _ _
    · exact ⟨_, _, rfl⟩
  refine ⟨v, p, ?_⟩
  have hx : mdlRx (some l) s = if 2 ≤ (mdlTaken l (if (beField l 3 1 / 32 % 4 &&& (3 - s.srv.mdlWarn)) ≠ 0
        then logE s .warn srcChip 0x0602 [("stat", 1, beField l 3 1)] else s)).srv.mdlFaults
      then haltRequest (mdlTaken l (if (beField l 3 1 / 32 % 4 &&& (3 - s.srv.mdlWarn)) ≠ 0
        then logE s .warn srcChip 0x0602 [("stat", 1, beField l 3 1)] else s)) .motion
      else mdlTaken l (if (beField l 3 1 / 32 % 4 &&& (3 - s.srv.mdlWarn)) ≠ 0
        then logE s .warn srcChip 0x0602 [("stat", 1, beField l 3 1)] else s) := by
    unfold mdlRx
    rw [hf]
    rfl
  rw [hx, hl]
  rfl

/-- Settles O54: the link's frames by their checks, and the backhitch by the conditions of its start and of its wait. -/
theorem motionLinkAndBackhitch : Obligations.MotionLinkAndBackhitch := by
  refine ⟨fun f s hl hm hf => ?_, fun l s hl hm hf => ?_, fun f s hl hm => ?_, fun s hl h1 h2 h3 h4 h5 h6 h7 h8 => ?_, fun s hl hb ht hw => ?_⟩
  · refine (actIf_live hl (c := s.pw.dom.motion != .off) (by simpa using hm) (mdlRx f)).trans (congrArg _ ?_)
    rw [mdlRx_bad (s := quiet s) hf, haltRequest_eq, haltRequest_eq]
    by_cases h : s.srv.mdlRun < 2
    · rw [if_pos h, if_pos (show (quiet s).srv.mdlRun < 2 from h)]
      rfl
    · rw [if_neg h, if_neg (show ¬(quiet s).srv.mdlRun < 2 from h)]
      rfl
  · obtain ⟨v, p, hx⟩ := mdlRx_good (s := quiet s) hf
    rw [haltRequest_eq] at hx
    have hs := actIf_live hl (c := s.pw.dom.motion != .off) (by simpa using hm) (mdlRx (some l))
    have hfaults : (mdlTaken l (quiet s)).srv.mdlFaults = if 128 ≤ beField l 3 1 then s.srv.mdlFaults + 1 else 0 := rfl
    by_cases h : 2 ≤ (mdlTaken l (quiet s)).srv.mdlFaults
    · rw [if_pos h] at hx
      rw [hx] at hs
      refine ⟨_, hs, rfl, rfl, rfl, rfl, rfl, rfl, fun hw => ?_, fun _ _ => rfl, rfl, rfl, rfl, rfl, rfl, rfl⟩
      rw [hfaults, if_neg (Nat.not_le.2 hw)] at h
      omega
    · rw [if_neg h] at hx
      rw [hx] at hs
      refine ⟨_, hs, rfl, rfl, rfl, rfl, rfl, rfl, fun hw => ⟨hfaults.trans (if_neg (Nat.not_le.2 hw)), rfl⟩, fun hw h1 => ?_,
        rfl, rfl, rfl, rfl, rfl, rfl⟩
      rw [hfaults, if_pos hw] at h
      omega
  · exact actIf_live_disabled hl (c := s.pw.dom.motion != .off) (by simpa using hm) _
  · refine actIf_live_kept hl (c := s.pw.mode == .stream && s.med.positioned && s.rein.bh == .none && pnat s .lowPolicy = 1 && !s.med.flush &&
        !s.med.stopAfter && pnat s .reinDwell ≤ s.rein.lowTicks && fillNext s) (by simp [h1, h2, h3, h4, h5, h6, h7, h8]) (fun s => { s with
      rein := { s.rein with bh := .fill, bhCnt := inc s.rein.bhCnt, lowTicks := 0 }
      med := { s.med with stopAfter := true, fillOwed := true } }) rfl rfl
  · refine actIf_live_kept hl (c := s.rein.bh == .wait && s.rein.bhAt.toNat ≤ now s &&
      (bhWanted s || s.rein.bhAt.toNat + pnat s .bhMaxTicks ≤ now s)) (by simpa [hb, ht] using hw) (fun s => { s with
        rein := { s.rein with bh := .runUp, bhAt := BitVec.ofNat 64 (now s + ticksOf s (bhTimes s).2) } }) rfl rfl

/-! ### Servo frames -/

/-- A band's bit changes only what the band's words say. -/
theorem takeBit_eq (s : State) (hi : Bool) (b : Option Bool) : ∃ w p x y, takeBit s hi b = { s with
    srv := { s.srv with bits := w, prev := p, lindex := x, pos := y } } := by
  unfold takeBit
  extract_lets k
  split
  · exact ⟨_, _, _, _, rfl⟩
  · extract_lets l
    split
    · exact ⟨_, _, _, _, rfl⟩
    · extract_lets next
      split
      · exact ⟨_, _, _, _, rfl⟩
      · exact ⟨_, _, _, _, rfl⟩

/-- The servo band of an index. -/
def bandIx (hi : Bool) : Fin 2 := if hi then 1 else 0

/-- A frame time on one band counts for it or against it (R358). -/
theorem band_counted (s : State) (hi v : Bool) (b : Option Bool) : ∃ w p x y, takeBit (countBand s hi v) hi b = { s with
    srv := { s.srv with
      miss := s.srv.miss.set (bandIx hi) (if v then 0 else s.srv.miss[bandIx hi] + 1)
      good := s.srv.good.set (bandIx hi) (if v then s.srv.good[bandIx hi] + 1 else 0)
      bits := w, prev := p, lindex := x, pos := y } } := by
  obtain ⟨w, p, x, y, h⟩ := takeBit_eq (countBand s hi v) hi b
  exact ⟨w, p, x, y, h⟩

/-- A frame time on both bands (R358). -/
theorem bands_counted (s : State) (v : Bool → Bool) (b : Bool → Option Bool) : ∃ m g w p x y,
    [false, true].foldl (fun s hi => takeBit (countBand s hi (v hi)) hi (b hi)) s = { s with
      srv := { s.srv with miss := m, good := g, bits := w, prev := p, lindex := x, pos := y } } ∧
      ∀ hi, m[bandIx hi] = (if v hi then 0 else s.srv.miss[bandIx hi] + 1) ∧ g[bandIx hi] = if v hi then s.srv.good[bandIx hi] + 1 else 0 := by
  obtain ⟨w, p, x, y, h0⟩ := band_counted s false (v false) (b false)
  obtain ⟨w', p', x', y', h1⟩ := band_counted (takeBit (countBand s false (v false)) false (b false)) true (v true) (b true)
  have hx : [false, true].foldl (fun s hi => takeBit (countBand s hi (v hi)) hi (b hi)) s =
      takeBit (countBand (takeBit (countBand s false (v false)) false (b false)) true (v true)) true (b true) := rfl
  rw [h0] at hx h1
  refine ⟨_, _, w', p', x', y', hx.trans h1, fun hi => ?_⟩
  cases hi <;> simp [bandIx]

/-- After a servo frame the guard brings its causes up to date; a frame without a valid reader exceeds the PES limit (R353). -/
theorem pesGuard_eq (s : State) (e : Option Int) : ∃ m v p d, pesGuard s e = { s with med := m, evt := v, pcie := p, sad := d } ∧
    (e = none → m.inh.pes = true) := by
  unfold pesGuard
  extract_lets lim on
  have he : e = none → on = true := by
    rintro rfl
    rfl
  clear_value on
  generalize hon : (on || s.srv.wedgeMode) = c
  obtain ⟨m, v, p, d, h⟩ := guardScan_guard { s with med := { s.med with inh := { s.med.inh with pes := c } } }
  obtain ⟨i, j, k, l, hi⟩ := guardScan_inh { s with med := { s.med with inh := { s.med.inh with pes := c } } }
  refine ⟨m, v, p, d, h, fun hn => ?_⟩
  rw [h] at hi
  refine (congrArg Inhibit.pes hi).trans (?_ : c = true)
  rw [← hon, he hn, Bool.true_or]

/-- What the readers of a frame measured (R352). -/
def measured (l : List (Fin 4 × StripeTimes)) : List (Fin 4 × Int × Bool × Nat) :=
  l.filterMap fun (r, t) => (readFrame t).map fun x => (r, x)

/-- What a frame's speeds leave (R354). -/
def speedTaken (got : List (Fin 4 × Int × Bool × Nat)) (s : State) : State := { s with srv := { s.srv with
  readersNow := (s.srv.readersNow ++ got.map fun x => x.1.val).dedup
  speedSum := s.srv.speedSum + sumL ((got.head?.map fun (_, _, _, v) => v).toList)
  speedN := s.srv.speedN + (if got.isEmpty then 0 else 1) } }

/-- A band's samples of a frame. -/
def bandOf (got : List (Fin 4 × Int × Bool × Nat)) (hi : Bool) : List (Fin 4 × Int × Bool × Nat) := got.filter fun (r, _) => readerHi r == hi

/-- What a frame's samples leave of both bands (R358). -/
def frameBands (got : List (Fin 4 × Int × Bool × Nat)) (s : State) : State :=
  [false, true].foldl (fun s hi =>
    takeBit (countBand s hi (!(bandOf got hi).isEmpty)) hi ((bandOf got hi).head?.map fun (_, _, b, _) => b)) s

/-- The PES of a frame with samples (R353). -/
def framePes (got : List (Fin 4 × Int × Bool × Nat)) (s : State) : Int :=
  (((got.foldl (fun (t : Int) (_, y, _, _) => t + y) 0 : Int) : Rat) / (got.length : Rat) - yTarget s).floor

/-- A tick's PES with one more sample (R354). -/
def pesTaken (e : Int) (s : State) : State := { s with srv := { s.srv with
  pesSum := s.srv.pesSum + e, pesN := s.srv.pesN + 1, pesSq := s.srv.pesSq + e.natAbs * e.natAbs, pesSqN := s.srv.pesSqN + 1 } }

theorem servoFrame_steps (l : List (Fin 4 × StripeTimes)) (s : State) : servoFrame l s =
    if (measured l).isEmpty then pesGuard (speedTaken (measured l) (frameBands (measured l) s)) none
    else pesGuard (pesTaken (framePes (measured l) (speedTaken (measured l) (frameBands (measured l) s)))
      (speedTaken (measured l) (frameBands (measured l) s))) (some (framePes (measured l) (speedTaken (measured l) (frameBands (measured l) s)))) := rfl

/-- A sample is its band's. -/
theorem bandOf_one (r : Fin 4) (x : Int × Bool × Nat) (hi : Bool) : bandOf [(r, x)] hi = if readerHi r == hi then [(r, x)] else [] := by
  cases h : readerHi r == hi <;> simp [bandOf, h]

/-- The frame's mean is its one sample (R353). -/
theorem framePes_one (r : Fin 4) (y : Int) (x : Bool × Nat) (s : State) : framePes [(r, y, x)] s = ((y : Rat) - yTarget s).floor := by
  simp [framePes]

/-- The lateral target rests on the wrap, the loop's offset and the feed-forward (R353). -/
theorem yTarget_congr {s t : State} (hm : t.med = s.med) (hr : t.rd = s.rd) (ho : t.srv.ffOn = s.srv.ffOn) (hf : t.srv.ff = s.srv.ff) :
    yTarget t = yTarget s := by
  unfold yTarget wrapNow
  rw [hm, hr, ho, hf]

/-- A servo frame in which no reader gives a valid sample (R352). -/
theorem servoFrame_none {l : List (Fin 4 × StripeTimes)} (h : measured l = []) (s : State) : ∃ w m v p d,
    servoFrame l s = { s with srv := w, med := m, evt := v, pcie := p, sad := d } ∧
      (∀ hi, w.miss[bandIx hi] = s.srv.miss[bandIx hi] + 1 ∧ w.good[bandIx hi] = 0) ∧ m.inh.pes = true ∧
      w.pesN = s.srv.pesN ∧ w.pesSum = s.srv.pesSum ∧ w.speedN = s.srv.speedN := by
  obtain ⟨m, g, w, p, x, y, hs, hc⟩ := bands_counted s (fun _ => false) (fun _ => none)
  have hf : frameBands [] s = { s with srv := { s.srv with miss := m, good := g, bits := w, prev := p, lindex := x, pos := y } } := hs
  have hx : servoFrame l s = _ := (servoFrame_steps l s).trans (if_pos (by rw [h]; rfl))
  rw [h, hf] at hx
  obtain ⟨e, v, q, d, hp, hpes⟩ := pesGuard_eq (speedTaken [] { s with
    srv := { s.srv with miss := m, good := g, bits := w, prev := p, lindex := x, pos := y } }) none
  exact ⟨_, e, v, q, d, hx.trans hp, hc, hpes rfl, rfl, rfl, rfl⟩

/-- A servo frame with one valid sample (R352-R354). -/
theorem servoFrame_one {l : List (Fin 4 × StripeTimes)} {r : Fin 4} {y : Int} {b : Bool} {v : Nat} (h : measured l = [(r, y, b, v)]) (s : State) :
    ∃ w m e p d, servoFrame l s = { s with srv := w, med := m, evt := e, pcie := p, sad := d } ∧
      (∀ hi, w.miss[bandIx hi] = (if readerHi r == hi then 0 else s.srv.miss[bandIx hi] + 1) ∧
        w.good[bandIx hi] = if readerHi r == hi then s.srv.good[bandIx hi] + 1 else 0) ∧
      w.pesN = s.srv.pesN + 1 ∧ w.pesSum = s.srv.pesSum + ((y : Rat) - yTarget s).floor ∧ w.speedN = s.srv.speedN + 1 ∧
      w.speedSum = s.srv.speedSum + v := by
  obtain ⟨m, g, w, p, x, z, hs, hc⟩ := bands_counted s (fun hi => !(bandOf [(r, y, b, v)] hi).isEmpty)
    (fun hi => (bandOf [(r, y, b, v)] hi).head?.map fun (_, _, b, _) => b)
  have hf : frameBands [(r, y, b, v)] s = { s with srv := { s.srv with miss := m, good := g, bits := w, prev := p, lindex := x, pos := z } } := hs
  have hv (hi : Bool) : (!(bandOf [(r, y, b, v)] hi).isEmpty) = (readerHi r == hi) := by
    rw [bandOf_one]
    cases readerHi r == hi <;> rfl
  have hx : servoFrame l s = _ := (servoFrame_steps l s).trans (if_neg (by rw [h]; exact Bool.false_ne_true))
  have hy : yTarget (speedTaken [(r, y, b, v)] { s with srv := { s.srv with miss := m, good := g, bits := w, prev := p, lindex := x, pos := z } }) =
      yTarget s := yTarget_congr rfl rfl rfl rfl
  rw [h, hf, framePes_one, hy] at hx
  obtain ⟨e, u, q, d, hp, -⟩ := pesGuard_eq (pesTaken ((y : Rat) - yTarget s).floor (speedTaken [(r, y, b, v)] { s with
    srv := { s.srv with miss := m, good := g, bits := w, prev := p, lindex := x, pos := z } })) (some ((y : Rat) - yTarget s).floor)
  refine ⟨_, e, u, q, d, hx.trans hp, fun hi => ?_, rfl, rfl, rfl, congrArg (s.srv.speedSum + ·) (by simp [sumL])⟩
  rw [← hv]
  exact hc hi

/-! ### Lost bands -/

/-- A band is lost (R358). -/
def bandGone (hi : Bool) (s : State) : State := { s with srv := { s.srv with
  bandLo := if hi then s.srv.bandLo else false, bandHi := if hi then false else s.srv.bandHi
  gone := s.srv.gone.set (bandIx hi) true, prev := s.srv.prev.set (bandIx hi) none, bits := s.srv.bits.set (bandIx hi) [] } }

theorem bandLost_eq (hi : Bool) (s : State) : bandLost hi s = if bothGone (bandGone hi s)
    then wedgeEnter (logE (bandGone hi s) .warn srcChip 0x0504 [("band", 1, bandOfWrap (wrapNow (bandGone hi s)))]) else bandGone hi s := rfl

theorem bothGone_bandGone (hi : Bool) (s : State) : bothGone (bandGone hi s) = s.srv.gone[1 - bandIx hi] := by
  cases hi <;> simp [bothGone, bandGone, bandIx]

/-- Entering wedge mode, or stopping, with both bands lost (R348, R358). -/
theorem wedgeEnter_reads {s : State} (hb : bothGone s = true) (hr : s.rd.reading = true) (hw : s.srv.wedgeMode = false) :
    (pnat s .wedgeMode = 1 → ∃ m v p d, wedgeEnter s = { s with
      srv := { s.srv with wedgeMode := true }, rd := { s.rd with wedge := true, noWedge := 0, wedgePos := [] }, med := m, evt := v, pcie := p, sad := d } ∧
      m.inh.pes = true) ∧
    (pnat s .wedgeMode ≠ 1 → wedgeEnter s = { s with rd := { s.rd with reading := false } }) := by
  have hc : (bothGone s && s.rd.reading && !s.srv.wedgeMode) = true := by simp [hb, hr, hw]
  refine ⟨fun h => ?_, fun h => (if_pos hc).trans (if_neg h)⟩
  generalize hu : ({ s with
      srv := { s.srv with wedgeMode := true }, rd := { s.rd with wedge := true, noWedge := 0, wedgePos := [] }
      med := { s.med with inh := { s.med.inh with pes := true } } } : State) = u
  have hx : wedgeEnter s = guardScan u := hu ▸ (if_pos hc).trans (if_pos h)
  obtain ⟨m, v, p, d, hg⟩ := guardScan_guard u
  obtain ⟨i, j, k, l, hi⟩ := guardScan_inh u
  rw [hg] at hi
  have hp : m.inh.pes = u.med.inh.pes := (congrArg Inhibit.pes hi :)
  refine ⟨m, v, p, d, ?_, hp.trans (by rw [← hu])⟩
  rw [hx, hg, ← hu]

theorem wedgeEnter_else {s : State} (h : s.rd.reading = false ∨ s.srv.wedgeMode = true) : wedgeEnter s = s :=
  if_neg (by rcases h with h | h <;> simp [h])

/-- A reader's valid sample is what a frame of it measures (R352). -/
theorem measured_one {r : Fin 4} {t : StripeTimes} {y : Int} {b : Bool} {v : Nat} (h : readFrame t = some (y, b, v)) :
    measured [(r, t)] = [(r, y, b, v)] := by
  simp [measured, h]

theorem measured_nil {l : List (Fin 4 × StripeTimes)} (h : ∀ x ∈ l, readFrame x.2 = none) : measured l = [] := by
  unfold measured
  rw [List.filterMap_eq_nil_iff]
  rintro ⟨r, t⟩ hx
  exact congrArg (Option.map fun x => (r, x)) (h (r, t) hx)

/-- The two bands of a frame with one sample: its own and the other. -/
theorem bands_apart {m g m' g' : Vector Nat 2} {hi : Bool}
    (h : ∀ k, m'[bandIx k] = (if hi == k then 0 else m[bandIx k] + 1) ∧ g'[bandIx k] = if hi == k then g[bandIx k] + 1 else 0) :
    m'[bandIx hi] = 0 ∧ g'[bandIx hi] = g[bandIx hi] + 1 ∧ m'[1 - bandIx hi] = m[1 - bandIx hi] + 1 ∧ g'[1 - bandIx hi] = 0 := by
  obtain ⟨hlo, hlo'⟩ := h false
  obtain ⟨hhi, hhi'⟩ := h true
  cases hi with
  | false => exact ⟨hlo, hlo', hhi, hhi'⟩
  | true => exact ⟨hhi, hhi', hlo, hlo'⟩

/-- What the servo holds of a band that was lost, wedge mode aside (R358). -/
def LostAs (hi : Bool) (s : State) (w : Servo) : Prop :=
  w.gone[bandIx hi] = true ∧ w.gone[1 - bandIx hi] = s.srv.gone[1 - bandIx hi] ∧ w.prev[bandIx hi] = none ∧
    (hi = true → w.bandHi = false ∧ w.bandLo = s.srv.bandLo) ∧ (hi = false → w.bandLo = false ∧ w.bandHi = s.srv.bandHi)

theorem bandGone_lost (hi : Bool) (s : State) : LostAs hi s (bandGone hi s).srv := by
  cases hi <;> simp [LostAs, bandGone, bandIx]

/-- While the other band is there nothing else comes of a loss (R358). -/
theorem bandLost_one {hi : Bool} {s : State} (h : s.srv.gone[1 - bandIx hi] = false) : bandLost hi s = bandGone hi s := by
  rw [bandLost_eq, if_neg (by rw [bothGone_bandGone, h]; exact Bool.false_ne_true)]

/-- The loss of both bands is logged (R358). -/
theorem bandLost_both {hi : Bool} {s : State} (h : s.srv.gone[1 - bandIx hi] = true) :
    ∃ v p, bandLost hi s = wedgeEnter { bandGone hi s with evt := v, pcie := p } := by
  obtain ⟨v, p, hl⟩ := logE_chip (bandGone hi s) .warn 0x0504 [("band", 1, bandOfWrap (wrapNow (bandGone hi s)))] none
  exact ⟨v, p, by rw [bandLost_eq, if_pos ((bothGone_bandGone hi s).trans h), hl]⟩

/-- Settles O53: a frame time by its samples, and a band's loss by the other band and what reads. -/
theorem servoDecoding : Obligations.ServoDecoding := by
  refine ⟨fun l s hl h => ?_, fun r t y b v s hl h => ?_, fun hi s hl => ?_, fun hi s hl => ?_, fun s hl hw hn => ?_⟩
  · obtain ⟨w, m, v, p, d, hx, hc, h1, h2, h3, h4⟩ := servoFrame_none (measured_nil h) (quiet s)
    have hs := act_live hl (servoFrame l)
    rw [hx] at hs
    refine ⟨_, hs, fun k => ?_, h1, h2, h3, h4, rfl, rfl, rfl⟩
    match k with
    | 0 => exact hc false
    | 1 => exact hc true
  · obtain ⟨w, m, e, p, d, hx, hc, h1, h2, h3, h4⟩ := servoFrame_one (measured_one h) (quiet s)
    have hy : yTarget (quiet s) = yTarget s := yTarget_congr rfl rfl rfl rfl
    have hs := act_live hl (servoFrame [(r, t)])
    rw [hx] at hs
    rw [hy] at h2
    obtain ⟨hm, hg, hm', hg'⟩ := bands_apart hc
    exact ⟨_, hs, hm, hg, hm', hg', h1, h2, h3, h4, rfl, rfl, rfl⟩
  · intro k hg hm
    have hon : (!s.srv.gone[k] && decide (pnat s .lostFrames ≤ s.srv.miss[k])) = true := by
      rw [hg, decide_eq_true hm]
      rfl
    have hs := actIf_live hl hon (bandLost hi)
    obtain ⟨h1, h2, h3, h4, h5⟩ := bandGone_lost hi (quiet s)
    cases ho : s.srv.gone[1 - bandIx hi] with
    | false =>
      rw [bandLost_one (s := quiet s) ho] at hs
      exact ⟨_, hs, h1, h2, h3, h4, h5, fun _ => ⟨rfl, rfl, rfl, rfl⟩, fun h => absurd (ho.symm.trans h) Bool.false_ne_true, rfl⟩
    | true =>
      obtain ⟨v, p, hx⟩ := bandLost_both (s := quiet s) ho
      have hb : bothGone { bandGone hi (quiet s) with evt := v, pcie := p } = true := (bothGone_bandGone hi (quiet s)).trans ho
      have hn (h : s.srv.gone[1 - bandIx hi] = false) : False := Bool.false_ne_true (h.symm.trans ho)
      rw [hx] at hs
      by_cases hr : s.rd.reading = true ∧ s.srv.wedgeMode = false
      · obtain ⟨hin, hst⟩ := wedgeEnter_reads hb hr.1 hr.2
        by_cases hw : pnat s .wedgeMode = 1
        · obtain ⟨m, v', p', d, hy, hpes⟩ := hin hw
          rw [hy] at hs
          exact ⟨_, hs, h1, h2, h3, h4, h5, fun h => (hn h).elim, fun _ _ _ => ⟨fun _ => ⟨rfl, rfl, hpes, hr.1⟩, fun h => absurd hw h⟩, rfl⟩
        · rw [hst hw] at hs
          exact ⟨_, hs, h1, h2, h3, h4, h5, fun h => (hn h).elim, fun _ _ _ => ⟨fun h => absurd h hw, fun _ => ⟨hr.2, rfl, rfl⟩⟩, rfl⟩
      · have he : s.rd.reading = false ∨ s.srv.wedgeMode = true := by
          simp only [not_and_or, Bool.not_eq_true, Bool.not_eq_false] at hr
          exact hr
        rw [wedgeEnter_else (s := { bandGone hi (quiet s) with evt := v, pcie := p }) he] at hs
        exact ⟨_, hs, h1, h2, h3, h4, h5, fun h => (hn h).elim, fun _ h h' => absurd ⟨h, h'⟩ hr, rfl⟩
  · intro k hb hm
    exact actIf_live_kept hl (c := (if hi then !s.srv.bandHi else !s.srv.bandLo) && pnat s .regainFrames ≤ s.srv.good[k])
      (by cases hi <;> simp_all [k]) (bandRegained hi) rfl rfl
  · exact actIf_live_kept hl (c := s.srv.wedgeMode && 4 * bitsNm3 (frameLen 0) ≤ s.rd.noWedge) (by simp [hw, hn]) (fun s =>
      { s with srv := { s.srv with lost := true }, rd := { s.rd with reading := false, stopped := true } }) rfl rfl

end Sys2Proof.Machine
end

section
/-! SUPPORT. SYNC and the closing of data sets (R90, R148, R149, R211). -/

namespace Sys2Proof.Machine

open Sys2Proof

/-- After a saddle's block under fill is ended it has none; its queue, its open data set and what is off tape stay. -/
theorem closeBlk_saddle (s : State) (n : SadNo) : (closeBlk s n).sad[n].blk.bytes = [] ∧ (closeBlk s n).sad[n].q = s.sad[n].q ∧
    (closeBlk s n).sad[n].openDs = s.sad[n].openDs ∧ (closeBlk s n).sad[n].unsync = s.sad[n].unsync ∧
    (s.sad[n].blk.bytes ≠ [] → (closeBlk s n).sad[n].next = s.sad[n].next + 1) := by
  by_cases h : s.sad[n].blk.bytes = []
  · rw [closeBlk_empty h]
    exact ⟨h, rfl, rfl, rfl, fun hn => absurd h hn⟩
  · obtain ⟨k, g, -, hs⟩ := closeBlk_closes h
    obtain ⟨r, l, d, hx⟩ := hs n
    rw [modSad_get, if_pos rfl] at hx
    rw [hx]
    exact ⟨rfl, rfl, rfl, rfl, fun _ => rfl⟩

/-- A SYNC that executes is found in its saddle's queue. -/
theorem syncOf_isSome {s : State} {n : SadNo} {t : Nat} {e : Entry} (h : entryOf s (.sad n) t = some e) (hv : e.verb = .sync)
    (hp : e.phase = .executing) (hb : e.begun = true) (hn : e.ended = none) : (syncOf s n).isSome = true :=
  List.find?_isSome.2 ⟨e, List.mem_of_find?_eq_some h, by simp [hv, hp, hb, hn]⟩

/-- While a SYNC executes the open data set is to close at the next chance (R148). -/
theorem syncForce_forces {s : State} {n : SadNo} (h : (syncOf s n).isSome = true) :
    syncForce s n = modSad s n fun x => { x with openDs := x.openDs.map fun d => { d with force := true } } := if_pos h

/-- What a SYNC notes of itself as it starts: the girths that it waits for, and whether PWR_FAIL_N withholds it (R148, R149). -/
def syncNote (y : State) (n : SadNo) (e : Entry) : Entry :=
  { e with girth0 := y.sad[n].next, frozen := pfInForce y && !y.sad[n].unsync.isEmpty }

theorem syncVerb_eq (s : State) (n : SadNo) (t : Nat) :
    syncVerb n t s = syncForce (modEntry (closeBlk s n) (.sad n) t (syncNote (closeBlk s n) n)) n := rfl

/-- A change of one entry changes nothing of its saddle but the queue. -/
theorem modEntry_saddle (s : State) (n : SadNo) (t : Nat) (f : Entry → Entry) : ∃ q, (modEntry s (.sad n) t f).sad[n] = { s.sad[n] with q := q } :=
  ⟨_, (modSad_get s n n _).trans (if_pos rfl)⟩

/-- A change of a saddle that leaves its queue leaves its entries. -/
theorem entryOf_modSad {s : State} {n : SadNo} {f : Saddle → Saddle} (h : (f s.sad[n]).q = s.sad[n].q) (k : Nat) :
    entryOf (modSad s n f) (.sad n) k = entryOf s (.sad n) k := by
  refine entryOf_congr ?_ k
  rw [queueOf, modSad_get, if_pos rfl, h]
  rfl

theorem BufOnly.modSad {s t : State} (h : BufOnly s t) (n : SadNo) (f : Saddle → Saddle) : BufOnly s (modSad t n f) := by
  obtain ⟨d, p, k, rfl⟩ := h
  exact ⟨_, p, k, rfl⟩

/-- SYNC's effect (R148, R149, R211). -/
theorem syncVerb_effect {s : State} {n : SadNo} {t : Nat} {e : Entry} (h : entryOf s (.sad n) t = some e) (hv : e.verb = .sync)
    (hp : e.phase = .executing) (hb : e.begun = true) (hn : e.ended = none) :
    BufOnly s (syncVerb n t s) ∧
    (∃ e', entryOf (syncVerb n t s) (.sad n) t = some e' ∧ e'.ended = none ∧ e'.girth0 = (syncVerb n t s).sad[n].next) ∧
    (syncVerb n t s).sad[n].blk.bytes = [] ∧ ∀ x, (syncVerb n t s).sad[n].openDs = some x → x.force = true := by
  obtain ⟨h0, hq, -, -, -⟩ := closeBlk_saddle s n
  have hc : BufOnly s (closeBlk s n) := closeBlk_eq s n
  have he : entryOf (closeBlk s n) (.sad n) t = some e := (entryOf_congr (s := s) (t := closeBlk s n) (ch := .sad n) hq t).trans h
  rw [syncVerb_eq]
  generalize closeBlk s n = y at h0 he hc
  have he' : entryOf (modEntry y (.sad n) t (syncNote y n)) (.sad n) t = some (syncNote y n e) := by
    rw [entryOf_modEntry y (.sad n) t (syncNote y n) fun _ => rfl, he]
    rfl
  obtain ⟨q, hz⟩ := modEntry_saddle y n t (syncNote y n)
  have hx := (modSad_get (modEntry y (.sad n) t (syncNote y n)) n n fun x =>
    { x with openDs := x.openDs.map fun d => { d with force := true } }).trans (if_pos rfl)
  rw [syncForce_forces (syncOf_isSome he' hv hp hb hn)]
  have hm : BufOnly s (modEntry y (.sad n) t (syncNote y n)) := by
    unfold modEntry modQ
    exact hc.modSad n _
  refine ⟨hm.modSad n _, ⟨syncNote y n e, (entryOf_modSad rfl t).trans he', hn, ?_⟩, ?_, fun x ho => ?_⟩
  · rw [hx, hz]
    rfl
  · rw [hx, hz]
    exact h0
  · rw [hx] at ho
    obtain ⟨x', -, rfl⟩ := Option.map_eq_some_iff.1 ho
    rfl

/-- SYNC_COMPLETE by the SYNC that waits (R148, R149). -/
theorem syncComplete_of {s : State} {n : SadNo} {e : Entry} (h : syncOf s n = some e) : syncComplete n s =
    if syncDone s n e && !e.frozen then okWith s (.sad n) e.tag (fnum "girth" e.girth0 :: ewField s n) else s := by
  rw [syncComplete, h]

/-- A block that has not grown for the saddle's `close_ticks` ends; with no data set open that is all (R90, R211). -/
theorem closeRule_noDs {s : State} {n : SadNo} (h : s.sad[n].openDs = none) : closeRule s n =
    if !s.sad[n].blk.bytes.isEmpty && decide (s.sad[n].blk.grown.toNat + pnat s .sadCloseTicks n.val ≤ now s) then closeBlk s n else s := by
  have ho : (if !s.sad[n].blk.bytes.isEmpty && decide (s.sad[n].blk.grown.toNat + pnat s .sadCloseTicks n.val ≤ now s) then closeBlk s n
      else s).sad[n].openDs = none := by
    split
    · exact (closeBlk_saddle s n).2.2.1.trans h
    · exact h
  unfold closeRule
  dsimp only
  split
  · next d hd => exact absurd (hd.symm.trans ho) (Option.some_ne_none d)
  · rfl

/-- Settles O45: SYNC's start over the block under fill and its own entry, its end by what is off tape, and the close rule. -/
theorem syncAndClosing : Obligations.SyncAndClosing := by
  refine ⟨fun s n t h => ?_, fun s n e hl hs he hu => ⟨fun hf => ?_, fun hf => ?_⟩, fun s n hl hb ho => ⟨fun hg => ?_, fun hg => ?_⟩⟩
  · have hx := verbRow_runs h (syncVerb n)
    obtain ⟨-, -, -, e, he, hp, hv, -, hn⟩ := h
    rw [begins_eq] at hx
    obtain ⟨⟨d, p, f, hs⟩, ⟨e', he', hn', hg⟩, hb, hf⟩ := syncVerb_effect (entryOf_begun he (quiet s)) hv hp rfl hn
    generalize syncVerb n t (withQueue (quiet s) (.sad n) (begunQueue s (.sad n) t)) = z at hx hs he' hg hb hf
    refine ⟨_, e', hx, he', hn', hg, hb, hf, ?_, ?_⟩
    · rw [hs]
      rfl
    · rw [hs]
      rfl
  · refine act_effect hl ((syncComplete_of (s := quiet s) hs).trans (if_neg ?_)) rfl rfl
    simp [hf]
  · have hd : (syncDone (quiet s) n e && !e.frozen) = true := by
      rw [hf, Bool.not_false, Bool.and_true]
      exact List.all_eq_true.2 fun u hm => decide_eq_true (hu u hm)
    have hx := (syncComplete_of (s := quiet s) hs).trans (if_pos hd)
    have hn : e.ended = none := by
      have := List.find?_some hs
      simp at this
      exact this.2
    obtain ⟨q, hq⟩ := complete_withQueue (quiet s) (.sad n) e.tag { status := .ok, fields := fnum "girth" e.girth0 :: ewField (quiet s) n }
    have hend := complete_ended (s := quiet s) (ch := .sad n) he hn { status := .ok, fields := fnum "girth" e.girth0 :: ewField (quiet s) n }
    rw [hq] at hend
    exact ⟨q, _, act_effect hl (hx.trans hq) rfl rfl, hend, rfl, rfl⟩
  · have hc : (!s.sad[n].blk.bytes.isEmpty && decide (s.sad[n].blk.grown.toNat + pnat s .sadCloseTicks n.val ≤ now s)) = true := by
      rw [List.isEmpty_eq_false_iff.2 hb, decide_eq_true hg]
      rfl
    have hx := (closeRule_noDs (s := quiet s) ho).trans (if_pos hc)
    obtain ⟨h0, -, -, hu, hn⟩ := closeBlk_saddle (quiet s) n
    obtain ⟨d, p, f, he⟩ := closeBlk_eq (quiet s) n
    have hs := act_live hl fun s => closeRule s n
    rw [hx] at hs
    generalize closeBlk (quiet s) n = z at hs h0 hu hn he
    refine ⟨_, hs, h0, hn hb, hu, ?_, ?_⟩
    · rw [he]
      rfl
    · rw [he]
      rfl
  · have hc : ¬ (!s.sad[n].blk.bytes.isEmpty && decide (s.sad[n].blk.grown.toNat + pnat s .sadCloseTicks n.val ≤ now s)) = true := by
      rw [decide_eq_false (Nat.not_le.2 hg), Bool.and_false]
      exact Bool.false_ne_true
    exact act_effect (f := fun s => closeRule s n) hl ((closeRule_noDs (s := quiet s) ho).trans (if_neg hc)) rfl rfl

end Sys2Proof.Machine
end

section
/-! SUPPORT. Written data sets, rewrite areas, the end of a frame and of a wrap (R286, R287, R303-R307, R310). -/

namespace Sys2Proof.Machine

open Sys2Proof

/-! ### Written data sets -/

/-- A change of a written data set, seen at any DSN. -/
theorem writtenAt_modWritten (s : State) (d k : Nat) {f : WDs → WDs} (hf : ∀ w, (f w).dsn = w.dsn) :
    writtenAt (modWritten s d f) k = (writtenAt s k).map fun w => if w.dsn = d then f w else w := by
  unfold writtenAt modWritten
  rw [List.find?_map]
  refine congrArg (fun p => Option.map (fun w => if w.dsn = d then f w else w) (s.med.written.find? p)) (funext fun w => ?_)
  simp only [Function.comp]
  split
  · rw [hf]
  · rfl

theorem writtenAt_dsn {s : State} {d : Nat} {w : WDs} (h : writtenAt s d = some w) : w.dsn = d := by
  simpa using List.find?_some h

/-- A written data set reads back as it was changed. -/
theorem writtenAt_modWritten_same {s : State} {d : Nat} {w : WDs} {f : WDs → WDs} (hf : ∀ w, (f w).dsn = w.dsn) (h : writtenAt s d = some w) :
    writtenAt (modWritten s d f) d = some (f w) := by
  rw [writtenAt_modWritten s d d hf, h, Option.map_some, if_pos (writtenAt_dsn h)]

/-- The data sets of the other DSNs read as before. -/
theorem writtenAt_modWritten_other {s : State} {d k : Nat} {f : WDs → WDs} (hf : ∀ w, (f w).dsn = w.dsn) (h : k ≠ d) :
    writtenAt (modWritten s d f) k = writtenAt s k := by
  rw [writtenAt_modWritten s d k hf]
  cases hw : writtenAt s k with
  | none => rfl
  | some w => rw [Option.map_some, if_neg (by rw [writtenAt_dsn hw]; exact h)]

/-! ### Rewrite areas (R303-R305) -/

/-- A copy lies on a channel that is not left out and did not write the row (R305). -/
def CopyFits (out : List ChNo) (x : Copy) : Prop := x.ch.val ≠ chanOfRow x.sds x.row ∧ x.ch ∉ out

/-- A fold that keeps what it has or takes the element at hand ends with one of the list. -/
theorem foldl_picks {α : Type} {f : Option α → α → Option α} (hf : ∀ b a, f b a = b ∨ f b a = some a) : ∀ (l : List α) (b : Option α) {c : α},
    l.foldl f b = some c → b = some c ∨ c ∈ l
  | [], _, _, h => .inl h
  | a :: l, b, c, h => by
    rcases foldl_picks hf l (f b a) h with h' | h'
    · rcases hf b a with hb | hb
      · exact .inl (hb.symm.trans h')
      · exact .inr (by rw [Option.some.inj (hb.symm.trans h')]; exact List.mem_cons_self)
    · exact .inr (List.mem_cons_of_mem a h')

/-- The channel of a copy is one that R305 allows. -/
theorem copyChan_allowed {out : List ChNo} {area : List Copy} {cap wrote : Nat} {c : ChNo} (h : copyChan out area cap wrote = some c) :
    c.val ≠ wrote ∧ c ∉ out := by
  have hm : c ∈ allChs.filter fun c => !out.contains c && c.val ≠ wrote && copiesOn area c < cap := by
    refine (foldl_picks (fun b a => ?_) _ none h).resolve_left (fun h => nomatch h)
    cases b with
    | none => exact .inr rfl
    | some d =>
      dsimp only
      split
      · exact .inr rfl
      · exact .inl rfl
  simp only [List.mem_filter, Bool.and_eq_true, Bool.not_eq_true', decide_eq_true_eq, List.contains_eq_mem, decide_eq_false_iff_not] at hm
  exact ⟨hm.2.1.2, hm.2.1.1⟩

/-- Placing copies adds only copies that fit (R305). -/
theorem placeCopies_fit (out : List ChNo) (dsn : Nat) : ∀ (room : Nat) (l : List (Nat × Nat)) (area : List Copy),
    (∀ x ∈ area, CopyFits out x) → ∀ x ∈ (placeCopies out dsn room l area).1, CopyFits out x := by
  intro room l
  induction l generalizing room with
  | nil =>
    intro area h
    cases room <;> exact h
  | cons p t ih =>
    obtain ⟨sd, r⟩ := p
    intro area h
    cases room with
    | zero => exact h
    | succ room =>
      rw [placeCopies]
      split
      · next c hc =>
        refine ih room _ fun x hx => ?_
        rcases List.mem_append.1 hx with hx | hx
        · exact h x hx
        · rw [List.mem_singleton.1 hx]
          exact copyChan_allowed hc
      · exact ih room area h

/-- A data set whose area closed (R303). -/
def withArea (area : List Copy) (q : Nat) (need want : List (Nat × Nat)) (w : WDs) : WDs := { w with area := area, q := some q, need := need, want := want }

/-- The data set before it: its last rewrite area has closed (R303). -/
def nothingLeft (w : WDs) : WDs := { w with nextArea := true, need := [], want := [] }

/-- What the closing of an area leaves: the data set's area with its Q, and nothing that `d - 1` still wants (R303). -/
def areaClosed (d : Nat) (area : List Copy) (q : Nat) (need want : List (Nat × Nat)) (s : State) : State :=
  let s := modWritten s d (withArea area q need want)
  let s := if d = 0 then s else modWritten s (d - 1) nothingLeft
  { s with med := { s.med with qLast := q, rwr := s.med.rwr + area.length } }

theorem closeArea_open {s : State} {d : Nat} {w : WDs} (h : writtenAt s d = some w) (hq : w.q = none) :
    ∃ area q need want, closeArea s d = areaClosed d area q need want s ∧ (∀ c, copiesOn area c ≤ q) ∧ ∀ x ∈ area, CopyFits w.outCh x := by
  unfold closeArea
  rw [h]
  dsimp only
  rw [hq, if_neg (by simp)]
  refine ⟨_, _, _, _, rfl, fun c => ?_, ?_⟩
  · exact (le_maxL (List.mem_map.2 ⟨c, List.mem_finRange c, rfl⟩)).trans (le_max_right _ _)
  · refine placeCopies_fit _ _ _ _ _ (placeCopies_fit _ _ _ _ _ (placeCopies_fit _ _ _ _ _ (placeCopies_fit _ _ _ _ _ ?_)))
    exact fun x hx => absurd hx List.not_mem_nil

/-- An area that has closed, or of a data set not known, stays as it is. -/
theorem closeArea_else {s : State} {d : Nat} (h : ∀ w, writtenAt s d = some w → w.q.isSome = true) : closeArea s d = s := by
  unfold closeArea
  split
  · rfl
  · next w hw => exact if_pos (h w hw)

theorem areaClosed_eq (d : Nat) (area : List Copy) (q : Nat) (need want : List (Nat × Nat)) (s : State) : ∃ l,
    areaClosed d area q need want s = { s with med := { s.med with written := l, qLast := q, rwr := s.med.rwr + area.length } } := by
  unfold areaClosed
  dsimp only
  split
  · exact ⟨_, rfl⟩
  · exact ⟨_, rfl⟩

/-- The written data sets after an area closed. -/
theorem writtenAt_areaClosed (d : Nat) (area : List Copy) (q : Nat) (need want : List (Nat × Nat)) (s : State) (k : Nat) :
    writtenAt (areaClosed d area q need want s) k =
      writtenAt (if d = 0 then modWritten s d (withArea area q need want) else modWritten (modWritten s d (withArea area q need want)) (d - 1) nothingLeft) k :=
  rfl

/-- The data set whose area closed (R303). -/
theorem areaClosed_same {s : State} {d : Nat} {w : WDs} (h : writtenAt s d = some w) (area : List Copy) (q : Nat) (need want : List (Nat × Nat)) :
    writtenAt (areaClosed d area q need want s) d = some (withArea area q need want w) := by
  have h1 := writtenAt_modWritten_same (f := withArea area q need want) (fun _ => rfl) h
  rw [writtenAt_areaClosed]
  split
  · exact h1
  · rw [writtenAt_modWritten_other (f := nothingLeft) (fun _ => rfl) (by omega : d ≠ d - 1), h1]

/-- The data set before it wants nothing any more (R303). -/
theorem areaClosed_before {s : State} {d : Nat} {v : WDs} (hd : d ≠ 0) (h : writtenAt s (d - 1) = some v) (area : List Copy) (q : Nat)
    (need want : List (Nat × Nat)) : writtenAt (areaClosed d area q need want s) (d - 1) = some (nothingLeft v) := by
  rw [writtenAt_areaClosed, if_neg hd]
  refine writtenAt_modWritten_same (fun _ => rfl) ?_
  rw [writtenAt_modWritten_other (f := withArea area q need want) (fun _ => rfl) (by omega : d - 1 ≠ d), h]

/-- Closing an area writes the media side alone, and of it the written data sets, Q and the copies' count. -/
theorem closeArea_eq (s : State) (d : Nat) : ∃ l q r, closeArea s d = { s with med := { s.med with written := l, qLast := q, rwr := r } } := by
  by_cases h : ∀ w, writtenAt s d = some w → w.q.isSome = true
  · exact ⟨_, _, _, closeArea_else h⟩
  · push Not at h
    obtain ⟨w, hw, hq⟩ := h
    obtain ⟨area, q, need, want, hx, -⟩ := closeArea_open hw (by simpa using hq)
    obtain ⟨l, hl⟩ := areaClosed_eq d area q need want s
    exact ⟨l, _, _, hx.trans hl⟩

/-- Closing a data set's area leaves what it holds. -/
theorem closeArea_ds {s : State} {d : Nat} {w : WDs} (h : writtenAt s d = some w) : ∃ v, writtenAt (closeArea s d) d = some v ∧ v.ds = w.ds := by
  cases hq : w.q with
  | some q =>
    rw [closeArea_else fun v hv => by rw [← Option.some.inj (h.symm.trans hv), hq]; rfl]
    exact ⟨w, h, rfl⟩
  | none =>
    obtain ⟨area, q, need, want, hx, -⟩ := closeArea_open h hq
    rw [hx, areaClosed_same h]
    exact ⟨_, rfl, rfl⟩

/-! ### The end of a frame and of a wrap (R275, R286, R307) -/

/-- With nothing on the lanes no frame ends. -/
theorem finishFrame_idle {s : State} (h : s.med.lane = .idle) : finishFrame s = s := by
  unfold finishFrame
  rw [h]

/-- The frame of a DSN has its trailer: it is behind the append point, and the gates are low (R275, R296). -/
def frameEnded (d : Nat) (s : State) : State :=
  let q := ((writtenAt s d).bind (·.q)).getD 0
  let s := modWritten s d fun w => { w with trailer := true }
  { s with med := { s.med with
      lane := .idle, append := d + 1, x := s.med.x + frameLen q, qLast := q, qHist := (q :: s.med.qHist).take 64, gates := Vector.replicate 4 false } }

theorem finishFrame_steps {s : State} {d : Nat} (h : s.med.lane = .frame d) : finishFrame s = frameEnded d (pesDataSet (closeArea s d)) := by
  unfold finishFrame
  rw [h]
  rfl

/-- What the end of a frame writes (R275, R296). -/
theorem finishFrame_frame {s : State} {d : Nat} (h : s.med.lane = .frame d) : ∃ l q r x p e f g,
    finishFrame s = { s with
      med := { s.med with written := l, qLast := q, rwr := r, lane := .idle, append := d + 1, x := x, qHist := p, gates := Vector.replicate 4 false }
      srv := { s.srv with pesRms := e, pesSq := f, pesSqN := g } } := by
  obtain ⟨l, q, r, hx⟩ := closeArea_eq s d
  rw [finishFrame_steps h, hx]
  exact ⟨_, _, _, _, _, _, _, _, rfl⟩

/-- The data set whose frame ended has its trailer and holds what it held (R275). -/
theorem finishFrame_ds {s : State} {d : Nat} {w : WDs} (h : s.med.lane = .frame d) (hw : writtenAt s d = some w) :
    ∃ v, writtenAt (finishFrame s) d = some v ∧ v.trailer = true ∧ v.ds = w.ds := by
  obtain ⟨v, hv, hd⟩ := closeArea_ds hw
  refine ⟨{ v with trailer := true }, ?_, rfl, hd⟩
  rw [finishFrame_steps h]
  exact writtenAt_modWritten_same (s := pesDataSet (closeArea s d)) (f := fun w => { w with trailer := true }) (fun _ => rfl) hv

/-- The lateral offset that the loop starts a wrap with (R307). -/
def startOfs (s : State) : Rat := (loadWpl s s.med.wrap).med.ofs

/-- Without a value of the session's the loop starts with the seed (R307). -/
theorem startOfs_seed {s : State} {w : Nat} (hw : s.med.wrap = w)
    (h : pbool s .wplEnable = false ∨ ∀ o, (bandOfWrap w, wrapRev w, o) ∉ s.med.savedOfs) :
    startOfs s = pint s .seedOfs (bandOfWrap w) (if wrapRev w then 1 else 0) := by
  subst hw
  unfold startOfs loadWpl
  dsimp only
  split
  · next x y o hf =>
    have hm := List.mem_of_find?_eq_some hf
    have hp := List.find?_some hf
    simp only [Bool.and_eq_true, decide_eq_true_eq] at hp
    rcases h with h | h
    · rw [if_neg (by rw [h]; exact Bool.false_ne_true)]
    · exact absurd (hp.1 ▸ hp.2 ▸ hm) (h o)
  · rfl

/-- A value that the session kept for the wrap's band and direction is what the loop starts with (R307). -/
theorem startOfs_kept {s : State} {o : Rat} {l : List (Nat × Bool × Rat)} (h : pbool s .wplEnable = true)
    (hs : s.med.savedOfs = l.filter (fun (x, y, _) => !(x = bandOfWrap s.med.wrap && y = wrapRev s.med.wrap)) ++
      [(bandOfWrap s.med.wrap, wrapRev s.med.wrap, o)]) : startOfs s = o := by
  have hf : s.med.savedOfs.find? (fun (x, y, _) => x = bandOfWrap s.med.wrap && y = wrapRev s.med.wrap) =
      some (bandOfWrap s.med.wrap, wrapRev s.med.wrap, o) := by
    rw [hs, List.find?_append, List.find?_eq_none.2 fun x hx => ?_]
    · simp
    · have hx' := (List.mem_filter.1 hx).2
      simp only [Bool.not_eq_true'] at hx'
      simp [hx']
  unfold startOfs loadWpl
  dsimp only
  rw [hf]
  exact if_pos h

/-- A loop that has just loaded its set has no samples yet (R307). -/
theorem loadWpl_ch (s : State) (w : Nat) (c : ChNo) : (loadWpl s w).med.ch[c].wpl.n = 0 := by
  unfold loadWpl
  simp

/-- Loading the loop's set for a wrap writes the loop's values (R307, R310). -/
theorem loadWpl_eq (s : State) (w : Nat) : ∃ o c, loadWpl s w = { s with med := { s.med with
    ofs := o, delta := [], settle := pnat s .wplSettle, ch := c } } := ⟨_, _, rfl⟩

/-- Keeping the loop's values of a wrap writes what the session keeps, and the offset is among it (R307). -/
theorem saveWpl_eq (s : State) (w : Nat) : ∃ sv so, saveWpl s w = { s with med := { s.med with saved := sv, savedOfs := so } } ∧
    (bandOfWrap w, wrapRev w, s.med.ofs) ∈ so :=
  ⟨_, _, rfl, List.mem_append_right _ (List.mem_singleton.2 rfl)⟩

/-- What the writer's start on a wrap writes (R307, R310). -/
theorem wplStart_eq {s : State} {w : Nat} (hw : s.med.wrap = w) : ∃ k sv so, wplStart s = { s with med := { s.med with
    ofs := startOfs s, delta := [], settle := pnat s .wplSettle, ch := k, saved := sv, savedOfs := so } } ∧
    (bandOfWrap w, wrapRev w, startOfs s) ∈ so ∧ ∀ c : ChNo, k[c].wpl.n = 0 := by
  subst hw
  obtain ⟨o, c, hl⟩ := loadWpl_eq s s.med.wrap
  obtain ⟨sv, so, hs, hm⟩ := saveWpl_eq (loadWpl s s.med.wrap) s.med.wrap
  have hc (k : ChNo) : (loadWpl s s.med.wrap).med.ch[k].wpl.n = 0 := loadWpl_ch s s.med.wrap k
  have ho : startOfs s = o := congrArg (·.med.ofs) hl
  rw [hl] at hs hm hc
  refine ⟨c, sv, so, ?_, ho ▸ hm, hc⟩
  rw [wplStart, hl, hs, ho]

/-- Keeping the loop's values writes what the session keeps, and brings in no band and direction that was not there (R307). -/
theorem keepWpl_eq (s : State) : ∃ sv so, keepWpl s = { s with med := { s.med with saved := sv, savedOfs := so } } ∧
    ∀ b r, (∀ o, (b, r, o) ∉ s.med.savedOfs) → ∀ o, (b, r, o) ∉ so := by
  unfold keepWpl
  split
  · next h =>
    refine ⟨_, _, rfl, fun b r hn o hm => ?_⟩
    rcases List.mem_append.1 hm with hm | hm
    · exact hn o (List.mem_filter.1 hm).1
    · obtain ⟨⟨b', r', o'⟩, hx, hp⟩ := List.any_eq_true.1 h
      simp only [Bool.and_eq_true, decide_eq_true_eq] at hp
      simp only [List.mem_singleton, Prod.mk.injEq] at hm
      exact hn o' (by rw [hm.1, hm.2.1, ← hp.1, ← hp.2]; exact hx)
  · exact ⟨_, _, rfl, fun _ _ hn => hn⟩

/-- Where the writer has used the set of the present wrap its values are kept (R307). -/
theorem keepWpl_keeps {s : State} (h : ∃ o, (bandOfWrap s.med.wrap, wrapRev s.med.wrap, o) ∈ s.med.savedOfs) :
    keepWpl s = saveWpl s s.med.wrap := by
  obtain ⟨o, ho⟩ := h
  exact if_pos (List.any_eq_true.2 ⟨_, ho, by simp⟩)

/-- The wrap after the present one, at the append point (R286, R287). -/
def nextWrap (s : State) : State := { s with med := { s.med with
  wrap := s.med.wrap + 1, x := 0, wrapFirst := s.med.wrapFirst.take (s.med.wrap + 1) ++ [s.med.append], satTold := []
  inh := { s.med.inh with identRun := 0 } } }

theorem wrapEnd_steps (s : State) : wrapEnd s = wplStart (nextWrap (keepWpl (finishFrame s))) := rfl

/-- The end of a frame, whatever is on the lanes: they are idle, and the wrap stays (R275). -/
theorem finishFrame_eq (s : State) : ∃ m v, finishFrame s = { s with med := m, srv := v } ∧ m.lane = .idle ∧ m.wrap = s.med.wrap ∧
    m.wrapFirst = s.med.wrapFirst ∧ m.savedOfs = s.med.savedOfs := by
  cases h : s.med.lane with
  | idle => exact ⟨_, _, finishFrame_idle h, h, rfl, rfl, rfl⟩
  | frame d =>
    obtain ⟨l, q, r, x, p, e, f, g, hx⟩ := finishFrame_frame h
    exact ⟨_, _, hx, rfl, rfl, rfl, rfl⟩

/-- What the end of a wrap leaves (R286, R287, R307, R310). -/
theorem wrapEnd_eq (s : State) : ∃ m v, wrapEnd s = { s with med := m, srv := v } ∧ m.wrap = s.med.wrap + 1 ∧ m.x = 0 ∧ m.lane = .idle ∧
    m.append = (finishFrame s).med.append ∧ m.written = (finishFrame s).med.written ∧
    m.wrapFirst = s.med.wrapFirst.take (s.med.wrap + 1) ++ [m.append] ∧ m.settle = pnat s .wplSettle ∧ m.delta = [] ∧
    (∀ c : ChNo, m.ch[c].wpl.n = 0) ∧ (bandOfWrap (s.med.wrap + 1), wrapRev (s.med.wrap + 1), m.ofs) ∈ m.savedOfs ∧
    (pbool s .wplEnable = false ∨ (∀ o, (bandOfWrap (s.med.wrap + 1), wrapRev (s.med.wrap + 1), o) ∉ s.med.savedOfs) →
      m.ofs = pint s .seedOfs (bandOfWrap (s.med.wrap + 1)) (if wrapRev (s.med.wrap + 1) then 1 else 0)) := by
  obtain ⟨f, v, hf, h1, h2, h3, h4⟩ := finishFrame_eq s
  obtain ⟨sv, so, hk, hn⟩ := keepWpl_eq (finishFrame s)
  have hwrap : (nextWrap (keepWpl (finishFrame s))).med.wrap = s.med.wrap + 1 := by
    rw [hk, hf]
    exact congrArg (· + 1) h2
  obtain ⟨k, sv', so', hw, hm, hc⟩ := wplStart_eq hwrap
  have hs := startOfs_seed hwrap
  have hx := (wrapEnd_steps s).trans hw
  generalize startOfs (nextWrap (keepWpl (finishFrame s))) = o at hx hm hs
  rw [hk] at hx hs
  generalize finishFrame s = y at hf hx hs hn
  subst hf
  exact ⟨_, _, hx, congrArg (· + 1) h2, rfl, h1, rfl, rfl, by rw [← h2, ← h3]; rfl, rfl, rfl, hc, hm, fun h => hs (h.imp_right fun h => hn _ _ (h4.symm ▸ h))⟩

/-- Where the next data set would start once the frame on the lanes has ended (R286). -/
def laneEnd (s : State) : Nat := match s.med.lane with
  | .frame d => s.med.x + frameLen (((writtenAt s d).bind (·.q)).getD 0)
  | .idle => s.med.x

theorem exec_wrapEnd (s : State) : exec .wrapEnd s =
    actIf s (s.pw.mode == .stream && s.cart.loaded && s.med.positioned && s.med.wrap < 191 && !frameFits (laneEnd s)) wrapEnd := rfl

/-- The append point after the frame on the lanes has ended (R275). -/
theorem finishFrame_append (s : State) : (finishFrame s).med.append = (match s.med.lane with
    | .frame d => d + 1
    | .idle => s.med.append) := by
  cases h : s.med.lane with
  | idle => rw [finishFrame_idle h]
  | frame d =>
    obtain ⟨l, q, r, x, p, e, f, g, hx⟩ := finishFrame_frame h
    rw [hx]

theorem exec_appendPositioning (c : Bool) (s : State) : exec (.appendPositioning c) s = actIf s (appendWanted s) fun s =>
    if c then wplStart (keepWpl { s with med := { s.med with positioned := true, appendFail := false }, rd := { s.rd with reading := false } })
    else { s with med := { s.med with appendFail := true } } := rfl

/-- The tape has run into the append point (R286). -/
def atAppend (s : State) : State := { s with med := { s.med with positioned := true, appendFail := false }, rd := { s.rd with reading := false } }

/-- The loop's start at the append point: from what the session has of the band and direction, the value that it had (R307). -/
theorem startOfs_again {s : State} (h : pbool s .wplEnable = true)
    (hs : ∃ o, (bandOfWrap s.med.wrap, wrapRev s.med.wrap, o) ∈ s.med.savedOfs) : startOfs (keepWpl s) = s.med.ofs := by
  rw [keepWpl_keeps hs]
  exact startOfs_kept (s := saveWpl s s.med.wrap) h rfl

/-- Settles O49: the wrap's end and the append point over the loop's start, and the rewrite area over its copies. -/
theorem wrapsAndAreas : Obligations.WrapsAndAreas := by
  refine ⟨fun s hl h1 h2 h3 h4 h5 => ?_, fun s hl h => ?_, fun s hl h => ?_, fun s hl h => ?_, fun s c hl h => ?_, fun s d w hl h hw hq => ?_,
    fun s hl h => ?_⟩
  · have hc : (s.pw.mode == .stream && s.cart.loaded && s.med.positioned && decide (s.med.wrap < 191) && !frameFits (laneEnd s)) = true := by
      have h5' : frameFits (laneEnd s) = false := h5
      simp [h1, h2, h3, h4, h5']
    have hs := actIf_live hl hc wrapEnd
    obtain ⟨m, v, hx, e1, e2, e3, e4, e5, e6, e7, e8, e9, e10, e11⟩ := wrapEnd_eq (quiet s)
    rw [hx] at hs
    refine ⟨_, (exec_wrapEnd s).trans hs, e1, e2, e3, e4.trans (finishFrame_append (quiet s)), fun d u hd hu => ?_, e6, e7, e8, e9, e10, e11, rfl, rfl, rfl⟩
    obtain ⟨u', hu', ht, hds⟩ := finishFrame_ds (s := quiet s) hd hu
    exact ⟨u', (congrArg (List.find? fun w : WDs => w.dsn = d) e5).trans hu', ht, hds⟩
  · rw [exec_wrapEnd]
    exact actIf_live_disabled hl (by rcases h with h | h | h | h <;> simp [h]) _
  · have hs := actIf_live hl h fun s => if true then wplStart (keepWpl (atAppend s)) else { s with med := { s.med with appendFail := true } }
    rw [if_pos rfl] at hs
    obtain ⟨sv, so, hk, hn⟩ := keepWpl_eq (atAppend (quiet s))
    have hwrap : (keepWpl (atAppend (quiet s))).med.wrap = s.med.wrap := by
      rw [hk]
      rfl
    obtain ⟨k, sv', so', hw, hm, -⟩ := wplStart_eq hwrap
    have hseed := startOfs_seed hwrap
    have hagain := startOfs_again (s := atAppend (quiet s))
    generalize startOfs (keepWpl (atAppend (quiet s))) = o at hw hm hseed hagain
    rw [hw, hk] at hs
    rw [hk] at hseed
    exact ⟨_, hs, rfl, rfl, rfl, rfl, rfl, rfl, hagain, fun h => hseed (h.imp_right fun h => hn _ _ h), hm, rfl, rfl, rfl, rfl⟩
  · exact actIf_live_kept hl h (fun s => { s with med := { s.med with appendFail := true } }) rfl rfl
  · rw [exec_appendPositioning]
    exact actIf_live_disabled hl h _
  · obtain ⟨area, q, need, want, hx, hle, hfit⟩ := closeArea_open (s := quiet s) hw hq
    obtain ⟨l, he⟩ := areaClosed_eq d area q need want (quiet s)
    have hr : rewriteAreaClose (quiet s) = areaClosed d area q need want (quiet s) := by
      rw [← hx]
      unfold rewriteAreaClose
      rw [show (quiet s).med.lane = .frame d from h]
    have hsame := areaClosed_same (s := quiet s) hw area q need want
    have hbefore (v : WDs) (hd : d ≠ 0) (hv : writtenAt s (d - 1) = some v) := areaClosed_before (s := quiet s) hd hv area q need want
    have hs := act_live hl rewriteAreaClose
    rw [hr, he] at hs
    rw [he] at hsame hbefore
    exact ⟨_, _, q, hs, hsame, rfl, hle, hfit, fun v hd hv => ⟨_, hbefore v hd hv, rfl, rfl, rfl⟩, rfl, rfl, rfl, rfl, rfl, rfl, rfl, rfl⟩
  · refine act_effect hl ?_ rfl rfl
    unfold rewriteAreaClose
    rcases h with h | ⟨d, w, h, hw, hq⟩
    · rw [show (quiet s).med.lane = .idle from h]
    · rw [show (quiet s).med.lane = .frame d from h]
      exact closeArea_else (s := quiet s) fun v hv => by rw [← Option.some.inj (hw.symm.trans hv), hq]

end Sys2Proof.Machine
end

section
/-! SUPPORT. The read chain (R323-R345): what a data set that is final leaves, and data sets whose reconstruction goes on. -/

namespace Sys2Proof.Machine

open Sys2Proof

/-! ### A data set that is final (R340, R344) -/

theorem useOp_pool (s : State) : ∃ q, useOp s = { s with pool := q } := by
  unfold useOp
  split <;> exact ⟨_, rfl⟩

theorem allocate_pool {s t : State} {o : Fin 12} {i : Nat} (h : allocate s o = some (i, t)) : ∃ q, t = { s with pool := q } := by
  unfold allocate at h
  dsimp only at h
  split at h
  · split at h
    · exact ⟨_, (Prod.mk.inj (Option.some.inj h)).2.symm⟩
    · exact absurd h (Option.some_ne_none _).symm
  · exact absurd h (Option.some_ne_none _).symm

/-- One state differs from another in what the girths of a final data set write at most. -/
def GirthsOnly (s t : State) : Prop := ∃ e ends holes store v p q, t = { s with
  med := { s.med with epochs := e }, rd := { s.rd with ends := ends, holesN := holes, store := store }, evt := v, pcie := p, pool := q }

theorem GirthsOnly.refl (s : State) : GirthsOnly s s := ⟨_, _, _, _, _, _, _, rfl⟩

theorem GirthsOnly.trans {s t u : State} (h : GirthsOnly s t) (g : GirthsOnly t u) : GirthsOnly s u := by
  obtain ⟨e, ends, holes, store, v, p, q, rfl⟩ := h
  obtain ⟨e', ends', holes', store', v', p', q', rfl⟩ := g
  exact ⟨e', ends', holes', store', v', p', q', rfl⟩

theorem keepGirths_girthsOnly (s : State) (gs : List RGirth) : GirthsOnly s (keepGirths s gs) := by
  unfold keepGirths
  split
  · exact .refl s
  · split
    · next i t h =>
      split at h
      · exact absurd h (Option.some_ne_none _).symm
      · obtain ⟨q, rfl⟩ := allocate_pool h
        obtain ⟨q', hu⟩ := useOp_pool { s with pool := q }
        dsimp only
        rw [hu]
        exact ⟨_, _, _, _, _, _, _, rfl⟩
    · exact .refl s

theorem takeMarker_girthsOnly (s : State) (d : RDs) (l : RLead) : GirthsOnly s (takeMarker s d l) := by
  unfold takeMarker
  dsimp only
  split
  · exact .refl s
  · split
    · exact .refl s
    · exact ⟨_, _, _, _, _, _, _, rfl⟩

theorem takeAnchor_girthsOnly (s : State) (d : RDs) (l : RLead) : GirthsOnly s (takeAnchor s d l) := ⟨_, _, _, _, _, _, _, rfl⟩

theorem markEnd_girthsOnly (s : State) (d : RDs) (l : RLead) (gs : List RGirth) : GirthsOnly s (markEnd s d l gs) := ⟨_, _, _, _, _, _, _, rfl⟩

/-- A final data set counts as read, and one that needed C3 counts as such (R338, R340). -/
def finalNoted (d : RDs) (s : State) : State := { s with rd := { s.rd with
  lastDs := max s.rd.lastDs d.dsn, c3n := if d.needC3 then sat 16 (s.rd.c3n + 1) else s.rd.c3n } }

theorem finalDs_girthsOnly (s : State) (d : RDs) : GirthsOnly (finalNoted d s) (finalDs s d) := by
  unfold finalDs
  extract_lets l s1 _ s2 s3 gs s4 _ s5 _ s6
  have h2 : GirthsOnly (finalNoted d s) s2 := by
    have h1 : ∃ v p, s1 = { s with evt := v, pcie := p } := by
      dsimp only [s1]
      split
      · exact logE_chip s _ _ _ _
      · exact ⟨_, _, rfl⟩
    obtain ⟨v, p, h1⟩ := h1
    change GirthsOnly (finalNoted d s) (finalNoted d s1)
    rw [h1]
    exact ⟨_, _, _, _, _, _, _, rfl⟩
  have h3 : GirthsOnly s2 s3 := by
    dsimp only [s3]
    split
    · exact takeAnchor_girthsOnly s2 d l
    · exact .refl s2
  refine h2.trans (h3.trans ?_)
  split
  · exact takeMarker_girthsOnly s3 d l
  · split
    · exact .refl s3
    · have h5 : GirthsOnly s4 s5 := by
        dsimp only [s5]
        split
        · exact ⟨_, _, _, _, _, _, _, rfl⟩
        · exact .refl s4
      refine (markEnd_girthsOnly s3 d l gs).trans (h5.trans (GirthsOnly.trans (t := s6) ⟨_, _, _, _, _, _, _, rfl⟩ ?_))
      split
      · exact foldl_keeps (GirthsOnly s6) _ (fun t k h => h.trans (keepGirths_girthsOnly t _)) _ s6 (.refl s6)
      · exact .refl s6

/-! ### Data sets whose reconstruction goes on (R337-R341) -/

/-- One state differs from another in what the end of a reconstruction, C2 and C3 write at most. -/
def ReconOnly (s t : State) : Prop := ∃ e ld c3 c2 cf ends holes store recon v p q, t = { s with
  med := { s.med with epochs := e }
  rd := { s.rd with lastDs := ld, c3n := c3, c2 := c2, c2fail := cf, ends := ends, holesN := holes, store := store, recon := recon }
  evt := v, pcie := p, pool := q }

theorem ReconOnly.refl (s : State) : ReconOnly s s := ⟨_, _, _, _, _, _, _, _, _, _, _, _, rfl⟩

theorem ReconOnly.trans {s t u : State} (h : ReconOnly s t) (g : ReconOnly t u) : ReconOnly s u := by
  obtain ⟨e, ld, c3, c2, cf, ends, holes, store, recon, v, p, q, rfl⟩ := h
  obtain ⟨e', ld', c3', c2', cf', ends', holes', store', recon', v', p', q', rfl⟩ := g
  exact ⟨e', ld', c3', c2', cf', ends', holes', store', recon', v', p', q', rfl⟩

theorem GirthsOnly.reconOnly {s t : State} (h : GirthsOnly s t) : ReconOnly s t := by
  obtain ⟨e, ends, holes, store, v, p, q, rfl⟩ := h
  exact ⟨_, _, _, _, _, _, _, _, _, _, _, _, rfl⟩

theorem finalDs_reconOnly (s : State) (d : RDs) : ReconOnly s (finalDs s d) :=
  ReconOnly.trans (t := finalNoted d s) ⟨_, _, _, _, _, _, _, _, _, _, _, _, rfl⟩ (finalDs_girthsOnly s d).reconOnly

theorem keepDs_reconOnly (s : State) (d : RDs) : ReconOnly s (keepDs s d) := ⟨_, _, _, _, _, _, _, _, _, _, _, _, rfl⟩

/-- What follows C3 or a rescue pass: the data set is final or stays, at most with the mark that it waits (R338-R340). -/
theorem settleRead_cases (s : State) (d : RDs) :
    settleRead s d = finalDs s d ∨ settleRead s d = keepDs s d ∨ settleRead s d = keepDs s { d with waits := true } := by
  unfold settleRead
  split
  · exact .inl rfl
  · split
    · exact .inr (.inl rfl)
    · split
      · exact .inr (.inr rfl)
      · exact .inl rfl

theorem settleRead_reconOnly (s : State) (d : RDs) : ReconOnly s (settleRead s d) := by
  rcases settleRead_cases s d with h | h | h <;> rw [h]
  · exact finalDs_reconOnly s d
  · exact keepDs_reconOnly s d
  · exact keepDs_reconOnly s _

/-- A data set with every column decoded is final (R338). -/
theorem settleRead_decoded {s : State} {d : RDs} (h : anyUndec d = false) : settleRead s d = finalDs s d := by
  unfold settleRead
  rw [if_pos (by rw [h]; rfl)]

theorem c2Sds_eq (e : Nat) (d : RDs) (k : Nat) : ∃ x m, c2Sds e d k = ({ d with dec := x }, m) := ⟨_, _, rfl⟩

/-- C2 of some SDS counts, and decodes columns of the data set (R337). -/
theorem c2On_eq (s : State) (d : RDs) (ks : List Nat) : ∃ a b x y,
    c2On s d ks = ({ s with rd := { s.rd with c2 := a, c2fail := b } }, { d with dec := x, needC3 := y }) := by
  have hf : ∀ (ks : List Nat) (dn : RDs × Nat), ∃ x m, ks.foldl (fun (dn : RDs × Nat) k =>
      let (d, m) := c2Sds (pnat s .c2EMax) dn.1 k
      (d, dn.2 + m)) dn = ({ dn.1 with dec := x }, m) := by
    intro ks
    induction ks with
    | nil => exact fun dn => ⟨_, _, rfl⟩
    | cons k ks ih =>
      intro dn
      obtain ⟨y, i, hk⟩ := c2Sds_eq (pnat s .c2EMax) dn.1 k
      obtain ⟨x, m, h⟩ := ih ({ dn.1 with dec := y }, dn.2 + i)
      rw [List.foldl_cons, hk]
      exact ⟨x, m, h⟩
  obtain ⟨x, m, h⟩ := hf ks (d, 0)
  unfold c2On
  rw [h]
  exact ⟨_, _, _, _, rfl⟩

/-- C3 decodes columns of the data set (R338). -/
theorem c3Run_eq (s : State) (d : RDs) : ∃ x, c3Run s d = { d with dec := x, c3done := true } := by
  have hcol (m : Nat) (d : RDs) (k : Nat) : ∃ x, c3Col m d k = { d with dec := x } := by
    unfold c3Col
    dsimp only
    split
    · exact ⟨_, rfl⟩
    · split <;> exact ⟨_, rfl⟩
  have hf : ∀ (l : List Nat) (d : RDs), ∃ x, l.foldl (c3Col (pnat s .c3EMax)) d = { d with dec := x } := by
    intro l
    induction l with
    | nil => exact fun d => ⟨_, rfl⟩
    | cons k l ih =>
      intro d
      obtain ⟨x, h⟩ := hcol (pnat s .c3EMax) d k
      obtain ⟨y, g⟩ := ih (c3Col (pnat s .c3EMax) d k)
      rw [h] at g
      rw [List.foldl_cons, h]
      exact ⟨y, g⟩
  obtain ⟨x, h⟩ := hf (List.range 516) d
  unfold c3Run
  rw [h]
  exact ⟨_, rfl⟩

theorem overRecon_reconOnly {f : State → RDs → State} (h : ∀ s d, ReconOnly s (f s d)) (s : State) : ReconOnly s (overRecon f s) :=
  foldl_keeps (ReconOnly s) f (fun t d ht => ht.trans (h t d)) s.rd.recon { s with rd := { s.rd with recon := [] } }
    ⟨_, _, _, _, _, _, _, _, _, _, _, _, rfl⟩

/-- With nothing under reconstruction there is nothing to go over. -/
theorem overRecon_nil {f : State → RDs → State} {s : State} (h : s.rd.recon = []) : overRecon f s = s := by
  unfold overRecon
  rw [h]
  exact congrArg (fun l => { s with rd := { s.rd with recon := l } }) h.symm

/-- With one data set under reconstruction that one is worked on. -/
theorem overRecon_one {f : State → RDs → State} {s : State} {d : RDs} (h : s.rd.recon = [d]) :
    overRecon f s = f { s with rd := { s.rd with recon := [] } } d := by
  unfold overRecon
  rw [h]
  rfl

/-- The area of the next data set ends reconstructions at most (R340). -/
theorem nextAreaRead_reconOnly (b : Bool) (s : State) : ReconOnly s (nextAreaRead b s) := by
  refine overRecon_reconOnly (fun t d => ?_) s
  dsimp only
  split
  · exact keepDs_reconOnly t d
  · split
    · exact keepDs_reconOnly t _
    · split
      · obtain ⟨a, k, x, y, h⟩ := c2On_eq t { d with merged := true, waits := false, passes := 0, gained := true } (List.range 64)
        rw [c2Run, h]
        exact ReconOnly.trans (t := { t with rd := { t.rd with c2 := a, c2fail := k } }) ⟨_, _, _, _, _, _, _, _, _, _, _, _, rfl⟩
          (settleRead_reconOnly _ _)
      · exact finalDs_reconOnly t d

end Sys2Proof.Machine
end

section
/-! SUPPORT. Wedges and rows of the read chain (R325-R335), and C3, rescue and read-ahead over the data sets (R338-R340, R371). -/

namespace Sys2Proof.Machine

open Sys2Proof

/-! ### Wedges (R327, R328) -/

theorem modRCh_modRCh (s : State) (c : ChNo) (f g : RCh → RCh) : modRCh (modRCh s c f) c g = modRCh s c fun x => g (f x) := by
  have h : (modRCh s c f).rd.ch[c] = f s.rd.ch[c] := (modRCh_get s c c f).trans (if_pos rfl)
  unfold modRCh at h ⊢
  rw [h]
  simp

theorem modRCh_self (s : State) (c : ChNo) : modRCh s c (fun x => x) = s := by
  rw [modRCh]
  simp

/-- Without the sync mark in the window only acquisition has run (R327, R328). -/
theorem readWedgeSync_none {q : AcqObs} (h : 4 < (bestMatch syncBits q.sync).2) (c : ChNo) (i : List Bool) (a b : Nat) (s : State) :
    readWedgeSync c q i a b s = modRCh s c (acquire s q) := by
  unfold readWedgeSync
  exact if_pos h

/-- A channel whose sync mark was found is locked (R328). -/
def syncTaken (x : RCh) : RCh := { x with locked := true, missRun := 0, frame := 0 }

/-- What the identity of a wedge says of its channel, where it reads (R328). -/
def identTaken (s : State) (c : ChNo) (i : List Bool) (x : RCh) : RCh :=
  { x with ident := ((readIdent i).map fun k => decide (k = trackIdent s.rd.wrap c.val)).getD x.ident }

/-- A wedge's identity, with the record of a wrong one (R328). -/
def identRead (c : ChNo) (i : List Bool) (s : State) : State :=
  match readIdent i with
  | some k =>
    let t := modRCh s c fun x => { x with ident := decide (k = trackIdent s.rd.wrap c.val) }
    if k = trackIdent s.rd.wrap c.val then t
    else logE t .warn srcChip 0x0501 [("ident", 2, k), ("ch", 1, c.val), ("ds", 4, t.rd.dsNow.getD 0xFFFFFFFF)]
  | none => s

/-- The position of a wedge in wedge mode (R348, R359). -/
def wedgeTaken (c : ChNo) (a b : Nat) (s : State) : State :=
  if s.srv.wedgeMode && 0 < a + b then
    { s with rd := { s.rd with wedgePos := s.rd.wedgePos ++ [(c, pint s .wedgeScale * (b : Int) / ((a + b : Nat) : Int))], noWedge := 0 } }
  else s

theorem readWedgeSync_steps (c : ChNo) (q : AcqObs) (i : List Bool) (a b : Nat) (s : State) : readWedgeSync c q i a b s =
    if 4 < (bestMatch syncBits q.sync).2 then modRCh s c (acquire s q)
    else wedgeTaken c a b (identRead c i (modRCh (modRCh s c (acquire s q)) c syncTaken)) := by
  unfold readWedgeSync
  generalize bestMatch syncBits q.sync = m
  rfl

theorem identRead_eq (c : ChNo) (i : List Bool) (s : State) : ∃ v p, identRead c i s = { modRCh s c (identTaken s c i) with evt := v, pcie := p } := by
  unfold identRead
  split
  · next k h =>
    have hf : identTaken s c i = fun x => { x with ident := decide (k = trackIdent s.rd.wrap c.val) } := by
      funext x
      rw [identTaken, h]
      rfl
    rw [hf]
    dsimp only
    split
    · exact ⟨_, _, rfl⟩
    · exact logE_chip _ _ _ _ _
  · next h =>
    have hf : identTaken s c i = fun x => x := by
      funext x
      rw [identTaken, h]
      rfl
    exact ⟨s.evt, s.pcie, by rw [hf, modRCh_self]⟩

theorem wedgeTaken_eq (c : ChNo) (a b : Nat) (s : State) : ∃ w n, wedgeTaken c a b s = { s with rd := { s.rd with wedgePos := w, noWedge := n } } := by
  unfold wedgeTaken
  split <;> exact ⟨_, _, rfl⟩

/-- A channel after a wedge whose sync mark was found (R328, R359). -/
def wedgeLocked (s : State) (c : ChNo) (q : AcqObs) (i : List Bool) (x : RCh) : RCh := identTaken s c i (syncTaken (acquire s q x))

/-- With the sync mark the channel locks; past that a wrong identity is logged and the wedge position kept (R328, R348, R359). -/
theorem readWedgeSync_locks {q : AcqObs} (h : (bestMatch syncBits q.sync).2 ≤ 4) (c : ChNo) (i : List Bool) (a b : Nat) (s : State) :
    ∃ w n v p, readWedgeSync c q i a b s = { modRCh s c (wedgeLocked s c q i) with
      rd := { (modRCh s c (wedgeLocked s c q i)).rd with wedgePos := w, noWedge := n }, evt := v, pcie := p } := by
  rw [readWedgeSync_steps, if_neg (Nat.not_lt.2 h), modRCh_modRCh]
  obtain ⟨v, p, hi⟩ := identRead_eq c i (modRCh s c fun x => syncTaken (acquire s q x))
  rw [modRCh_modRCh] at hi
  obtain ⟨w, n, hw⟩ := wedgeTaken_eq c a b (identRead c i (modRCh s c fun x => syncTaken (acquire s q x)))
  rw [hi] at hw
  exact ⟨w, n, v, p, by rw [hi, hw]; rfl⟩

/-! ### The loops over a row slot (R325-R332) -/

/-- One channel differs from another in its loops at most: its lock, its identity and its counts stay. -/
def LoopsOnly (x y : RCh) : Prop := y.locked = x.locked ∧ y.ident = x.ident ∧ y.rows = x.rows ∧ y.erased = x.erased ∧
  y.iterSum = x.iterSum ∧ y.snrQ = x.snrQ

theorem LoopsOnly.refl (x : RCh) : LoopsOnly x x := ⟨rfl, rfl, rfl, rfl, rfl, rfl⟩

theorem LoopsOnly.trans {x y z : RCh} (h : LoopsOnly x y) (g : LoopsOnly y z) : LoopsOnly x z :=
  ⟨g.1.trans h.1, g.2.1.trans h.2.1, g.2.2.1.trans h.2.2.1, g.2.2.2.1.trans h.2.2.2.1, g.2.2.2.2.1.trans h.2.2.2.2.1,
    g.2.2.2.2.2.trans h.2.2.2.2.2⟩

theorem LoopsOnly.foldl {α : Type} {f : RCh → α → RCh} (h : ∀ x a, LoopsOnly x (f x a)) : ∀ (l : List α) (x : RCh), LoopsOnly x (l.foldl f x)
  | [], x => .refl x
  | a :: l, x => (h x a).trans (LoopsOnly.foldl h l (f x a))

theorem followStep_loopsOnly (gain : Rat × Rat) (x : RCh) (e : Int) : LoopsOnly x (followStep gain x e) := by
  unfold followStep
  split
  · split <;> exact ⟨rfl, rfl, rfl, rfl, rfl, rfl⟩
  · exact ⟨rfl, rfl, rfl, rfl, rfl, rfl⟩

theorem agcBit_loopsOnly (n k : Nat) (x : RCh) (a : Int) : LoopsOnly x (agcBit n (agcStep k) x a) := by
  unfold agcBit
  dsimp only
  split <;> exact ⟨rfl, rfl, rfl, rfl, rfl, rfl⟩

/-- The loops over the bits of a row slot (R325-R331). -/
theorem trackBits_loopsOnly (s : State) (l : List Bool) (o : RowObs) (x : RCh) : LoopsOnly x (trackBits s l o x) := by
  refine LoopsOnly.foldl (fun x p => ?_) _ x
  obtain ⟨b, flag⟩ := p
  dsimp only
  split
  · exact ⟨rfl, rfl, rfl, rfl, rfl, rfl⟩
  · exact ((followStep_loopsOnly _ x b.err).trans (agcBit_loopsOnly _ _ _ b.adc)).trans ⟨rfl, rfl, rfl, rfl, rfl, rfl⟩

/-- What a row slot does to its channel: counted as decoded unless the channel is ignored, and as erased unless accepted. -/
theorem rowLoops_eq {s : State} {c : ChNo} (h : ignored s c = false) (l : List Bool) (n : Nat) (o : RowObs) (ok : Bool) : ∃ f : RCh → RCh,
    rowLoops s c l n o ok = modRCh s c f ∧ ∀ x, (f x).locked = x.locked ∧ (f x).rows = inc x.rows ∧ (f x).iterSum = x.iterSum + n ∧
      (f x).snrQ = o.snrQ ∧ (f x).erased = if ok then x.erased else sat 16 (x.erased + 1) := by
  unfold rowLoops
  refine ⟨_, rfl, fun x => ?_⟩
  have hl : LoopsOnly x (if ok then ((o.det.zip l).filter (!·.2)).foldl
      (fun x b => detStep (pnat s .detAdaptShift) (pnat s .eqTarget) x b.1) (trackBits s l o x) else trackBits s l o x) := by
    split
    · exact (trackBits_loopsOnly s l o x).trans
        (.foldl (f := fun x (b : BitObs × Bool) => detStep (pnat s .detAdaptShift) (pnat s .eqTarget) x b.1) (fun x b => ⟨rfl, rfl, rfl, rfl, rfl, rfl⟩) _ _)
    · exact trackBits_loopsOnly s l o x
  simp only [h, Bool.false_eq_true, if_false]
  generalize (if ok then ((o.det.zip l).filter (!·.2)).foldl
      (fun x b => detStep (pnat s .detAdaptShift) (pnat s .eqTarget) x b.1) (trackBits s l o x) else trackBits s l o x) = y at hl ⊢
  obtain ⟨h1, -, h3, h4, h5, -⟩ := hl
  exact ⟨h1, congrArg inc h3, congrArg (· + n) h5, trivial, by rw [h4]⟩

/-! ### Rows (R329, R333-R336) -/

/-- A row slot has gone through the detector (R19). -/
def rowCounted (s : State) : State := { s with used := { s.used with rows := s.used.rows + 1 } }

/-- The resync marks that a channel has missed in a row with a row slot (R329). -/
def slotMissed (s : State) (c : ChNo) (o : RowObs) : Nat := if 4 < (bestMatch resyncBits o.resync).2 then s.rd.ch[c].missRun + 1 else 0

/-- A row slot's flags, the resync marks missed and the frame (R326, R329). -/
def slotSeen (s : State) (c : ChNo) (o : RowObs) (x : RCh) : RCh := { (flagRun s x (o.bits.map (·.adc))).1 with
  missRun := slotMissed s c o
  frame := if 4 < (bestMatch resyncBits o.resync).2 then x.frame else x.frame + (((bestMatch resyncBits o.resync).1 : Int) - 2) }

/-- A channel loses its lock in a row slot (R329). -/
def slotLost (s : State) (c : ChNo) (o : RowObs) : Bool := s.rd.ch[c].locked && (2 ≤ slotMissed s c o || 25 < o.phaseErr)

/-- What a row slot leaves before its word counts (R326, R329). -/
def slotLock (s : State) (c : ChNo) (o : RowObs) : State :=
  if slotLost s c o then loseLock (modRCh s c (slotSeen s c o)) c else modRCh s c (slotSeen s c o)

/-- A row slot may be believed: its channel keeps its lock, has the identity and is not ignored (R329, R335). -/
def slotGood (s : State) (c : ChNo) (o : RowObs) : Bool :=
  s.rd.ch[c].locked && !slotLost s c o && s.rd.ch[c].ident && !ignored (slotLock s c o) c

/-- A row of the data set under read is put in (R335). -/
def rowJoined (d : RDs) (r : RRow) : RDs := { d with seen := d.seen + 1, rows := d.rows ++ [r], sadRow := some r.sad }

/-- A row that passes R335's checks joins the data set. -/
theorem readRow_accepts {s : State} {d : RDs} {c : ChNo} {p : Nat} {w : List Bool} {o : RowObs} {r : RRow} (hg : slotGood s c o = true)
    (hr : acceptRow d c p w = some r) (l : List Bool) (n : Nat) : readRow s d c p l w n o =
      rowLoops { slotLock s c o with rd := { (slotLock s c o).rd with cur := some (rowJoined d r) } } c l n o true := by
  have hr' : acceptRow { d with seen := d.seen + 1 } c p w = some r := hr
  unfold slotGood slotLock slotLost slotSeen slotMissed at hg
  unfold readRow slotLock slotLost slotSeen slotMissed
  generalize bestMatch resyncBits o.resync = m at hg ⊢
  obtain ⟨k, q⟩ := m
  dsimp only at hg ⊢
  rw [hg, hr']
  rfl

theorem acceptRow_bad {w : List Bool} (h : c1Ok w = false) (d : RDs) (c : ChNo) (p : Nat) : acceptRow d c p w = none := by
  unfold acceptRow
  rw [h]
  rfl

/-- An erased row slot changes nothing of the rows that were accepted (R335, R336). -/
theorem eraseRow_eq (s : State) (d : RDs) (c : ChNo) (p : Nat) (w : List Bool) (k : Bool) : ∃ d', eraseRow s d c p w k =
    { s with rd := { s.rd with cur := some d' } } ∧ d'.rows = d.rows ∧ d'.seen = d.seen ∧ d'.trailer = d.trailer := by
  unfold eraseRow
  extract_lets b e _ place
  have he : e.rows = d.rows ∧ e.seen = d.seen ∧ e.trailer = d.trailer := by
    dsimp only [e]
    split <;> exact ⟨rfl, rfl, rfl⟩
  clear_value e place
  rcases place with _ | ⟨i, r⟩
  · exact ⟨_, rfl, he⟩
  · dsimp only
    split
    · exact ⟨_, rfl, he⟩
    · exact ⟨_, rfl, he⟩

theorem mergeHeld_bad {w : List Bool} (h : c1Ok w = false) (s : State) (c : ChNo) (p : Nat) : mergeHeld s c p w = none := by
  unfold mergeHeld
  refine if_neg ?_
  rw [Bool.not_eq_true, List.any_eq_false]
  intro d _
  dsimp only
  rw [acceptRow_bad h, ite_self]
  exact Bool.false_ne_true

/-- A row whose decoder does not converge is erased (R335). -/
theorem readRow_erases {w : List Bool} (h : c1Ok w = false) (s : State) (d : RDs) (c : ChNo) (p : Nat) (l : List Bool) (n : Nat) (o : RowObs) :
    ∃ d', readRow s d c p l w n o = rowLoops { slotLock s c o with rd := { (slotLock s c o).rd with cur := some d' } } c l n o false ∧
      d'.rows = d.rows ∧ d'.seen = d.seen + 1 ∧ d'.trailer = d.trailer := by
  obtain ⟨d', he, h1, h2, h3⟩ := eraseRow_eq (slotLock s c o) { d with seen := d.seen + 1 } c p w (!ignored (slotLock s c o) c)
  refine ⟨d', ?_, h1, h2, h3⟩
  rw [← he]
  unfold readRow slotLock slotLost slotSeen slotMissed
  generalize bestMatch resyncBits o.resync = m
  obtain ⟨k, q⟩ := m
  dsimp only
  have hp : isPad p w = false := by simp [isPad, h]
  split
  · next hr => exact absurd ((acceptRow_bad h _ c p).symm.trans hr) (Option.some_ne_none _).symm
  · rw [hp, Bool.and_false, if_neg Bool.false_ne_true, mergeHeld_bad h, ite_self]

/-- The count of lost locks (register RCH_LOCK). -/
def withLosses (k : Nat) (s : State) : State := { s with rd := { s.rd with lockLoss := k } }

/-- A channel's lost lock is counted and leaves its other counts (R329). -/
theorem loseLock_eq (s : State) (c : ChNo) : ∃ f k, loseLock s c = withLosses k (modRCh s c f) ∧
    ∀ x, (f x).rows = x.rows ∧ (f x).erased = x.erased ∧ (f x).iterSum = x.iterSum := by
  unfold loseLock
  split
  · exact ⟨fun x => { x with locked := false, missRun := 0 }, inc s.rd.lockLoss, rfl, fun x => ⟨rfl, rfl, rfl⟩⟩
  · exact ⟨fun x => x, s.rd.lockLoss, by rw [modRCh_self]; rfl, fun x => ⟨rfl, rfl, rfl⟩⟩

/-- What a row slot's lock leaves: one channel, whose counts stay, and the losses' count (R326, R329). -/
theorem slotLock_eq (s : State) (c : ChNo) (o : RowObs) : ∃ f k, slotLock s c o = withLosses k (modRCh s c f) ∧
    (∀ x, (f x).rows = x.rows ∧ (f x).erased = x.erased ∧ (f x).iterSum = x.iterSum) ∧
    (slotLost s c o = false → ∀ x, (f x).locked = x.locked) := by
  unfold slotLock
  split
  · next h =>
    obtain ⟨f, k, hx, hf⟩ := loseLock_eq (modRCh s c (slotSeen s c o)) c
    rw [modRCh_modRCh] at hx
    exact ⟨_, k, hx, fun x => hf (slotSeen s c o x), fun hn => absurd (h.symm.trans hn) Bool.false_ne_true.symm⟩
  · exact ⟨slotSeen s c o, s.rd.lockLoss, rfl, fun x => ⟨rfl, rfl, rfl⟩, fun _ x => rfl⟩

/-- A resync mark that is found and a small phase error keep the lock (R329). -/
theorem slotLost_false {o : RowObs} (h : (bestMatch resyncBits o.resync).2 ≤ 4) (hp : o.phaseErr ≤ 25) (s : State) (c : ChNo) :
    slotLost s c o = false := by
  simp [slotLost, slotMissed, Nat.not_lt.2 h, Nat.not_lt.2 hp]

theorem ignored_slotLock (s : State) (c : ChNo) (o : RowObs) : ignored (slotLock s c o) c = ignored s c := by
  obtain ⟨f, k, hx, -⟩ := slotLock_eq s c o
  rw [hx]
  rfl

/-- A row slot's lock and loops together: its channel's counts, and the data set under read. -/
theorem rowLoops_slot {s : State} {c : ChNo} (hi : ignored s c = false) (o : RowObs) (l : List Bool) (n : Nat) (ok : Bool) (d : RDs) : ∃ f k,
    rowLoops { slotLock s c o with rd := { (slotLock s c o).rd with cur := some d } } c l n o ok =
      { modRCh s c f with rd := { (modRCh s c f).rd with cur := some d, lockLoss := k } } ∧
    ∀ x, (f x).rows = inc x.rows ∧ (f x).erased = (if ok then x.erased else sat 16 (x.erased + 1)) ∧ (f x).iterSum = x.iterSum + n ∧
      (f x).snrQ = o.snrQ ∧ (slotLost s c o = false → (f x).locked = x.locked) := by
  have hi' : ignored { slotLock s c o with rd := { (slotLock s c o).rd with cur := some d } } c = false := (ignored_slotLock s c o).trans hi
  obtain ⟨g, k, hx, h1, h2⟩ := slotLock_eq s c o
  obtain ⟨f, hf, h3⟩ := rowLoops_eq hi' l n o ok
  refine ⟨fun x => f (g x), k, ?_, fun x => ?_⟩
  · rw [hf, hx]
    exact congrArg (fun t => { t with rd := { t.rd with cur := some d, lockLoss := k } }) (modRCh_modRCh s c g f)
  · obtain ⟨e1, e2, e3⟩ := h1 x
    obtain ⟨f1, f2, f3, f4, f5⟩ := h3 (g x)
    exact ⟨f2.trans (congrArg inc e1), by rw [f5, e2], f3.trans (congrArg (· + n) e3), f4, fun hl => f1.trans (h2 hl x)⟩

/-- A row slot with nothing under read, whose word does not decode, is counted and does nothing (R335, R342). -/
theorem readRowDecode_closed {s : State} {c : ChNo} {p : Nat} {o : RowObs} (hp : p < 254) (hc : s.rd.cur = none)
    (hw : c1Ok (rowWord s c p (rowFlags s c o) o).1 = false) : readRowDecode c p o s = rowCounted s := by
  have ho : openByRow (rowCounted s) c p (rowWord s c p (rowFlags s c o) o).1 = rowCounted s := by
    unfold openByRow
    rw [hw]
    exact if_pos (by simp)
  unfold readRowDecode
  rw [if_neg (by omega), if_neg (by omega)]
  have ho' : openByRow { s with used := { s.used with rows := s.used.rows + 1 } } c p
      (rowWord { s with used := { s.used with rows := s.used.rows + 1 } } c p (rowFlags { s with used := { s.used with rows := s.used.rows + 1 } } c o) o).1 =
      rowCounted s := ho
  simp only [hc, Option.isNone_none, if_true, ho']
  unfold rowCounted
  rw [hc]

/-- A row slot of the data set under read, as long as its rewrite area is not at its end (R335, R337). -/
theorem readRowDecode_open {s : State} {c : ChNo} {p : Nat} {o : RowObs} {d e : RDs} {t : State} (hp : p < 254) (hc : s.rd.cur = some d)
    (ht : readRow (rowCounted s) d c p (rowFlags s c o) (rowWord s c p (rowFlags s c o) o).1 (rowWord s c p (rowFlags s c o) o).2 o = t)
    (he : t.rd.cur = some e) (hf : e.trailer = false) : readRowDecode c p o s = t := by
  have ht' : readRow { s with used := { s.used with rows := s.used.rows + 1 } } d c p (rowFlags { s with used := { s.used with rows := s.used.rows + 1 } } c o)
      (rowWord { s with used := { s.used with rows := s.used.rows + 1 } } c p (rowFlags { s with used := { s.used with rows := s.used.rows + 1 } } c o) o).1
      (rowWord { s with used := { s.used with rows := s.used.rows + 1 } } c p (rowFlags { s with used := { s.used with rows := s.used.rows + 1 } } c o) o).2 o = t := ht
  unfold readRowDecode
  rw [if_neg (by omega), if_neg (by omega)]
  simp only [hc, Option.isNone_some, Bool.false_eq_true, if_false, ht', he, hf, Bool.false_and]

/-! ### Leaders (R278, R280, R340) -/

/-- A data set's frame is under read (R278). -/
def underRead (d : RDs) (s : State) : State := { s with
  srv := { s.srv with dither := !s.srv.dither }
  rd := { s.rd with
    cur := some d, dsNow := some d.dsn, reading := true
    ch := Vector.ofFn fun c =>
      let x := s.rd.ch[c]
      { x with iterMean := if x.iterN = 0 then x.iterMean else x.iterSum / x.iterN, iterSum := 0, iterN := 0 } } }

/-- A frame that begins ends reconstructions at most; none where it follows the one before, or where there is none (R340). -/
theorem newFrame_eq (s : State) (d : RDs) : ∃ t, newFrame s d = underRead d t ∧ ReconOnly s t ∧
    (s.rd.recon = [] ∨ s.rd.dsNow.map (· + 1) = some d.dsn → t = s) := by
  refine ⟨if s.rd.dsNow.map (· + 1) == some d.dsn then s else nextAreaRead false s, rfl, ?_, fun h => ?_⟩
  · split
    · exact .refl s
    · exact nextAreaRead_reconOnly false s
  · rcases h with h | h
    · rw [nextAreaRead, overRecon_nil h, ite_self]
    · rw [h]
      exact if_pos (beq_self_eq_true _)

/-- A leader copy starts its data set where none is under read (R278). -/
theorem takeLeader_starts {s : State} {f : LeadFacts} (hc : s.rd.cur = none) (hk : f.kind < 4) : ∃ i e d l,
    takeLeader s f = newFrame { s with med := { s.med with index := i }, rd := { s.rd with eodSeen := e } } d ∧ d.dsn = f.dsn ∧ d.rows = [] ∧
      d.lead = some l ∧ l.dsn = f.dsn ∧ l.firstSeq = f.firstSeq ∧ l.nextSeq = f.nextSeq := by
  unfold takeLeader
  simp only [hc, if_neg (Nat.not_le.2 hk)]
  exact ⟨_, _, _, _, rfl, rfl, rfl, rfl, rfl, rfl, rfl⟩

/-- A leader copy that reads is taken (R278). -/
theorem readRowDecode_leader {o : RowObs} {f : LeadFacts} (h : parseLeader (copyBytes o) = some f) (c : ChNo) (s : State) :
    readRowDecode c 254 o s = takeLeader (rowCounted s) f := by
  unfold readRowDecode
  rw [if_pos rfl, h]
  rfl

/-! ### C1's iterations (R334) -/

theorem c1Run_le : ∀ (k u : Nat) (x : List (List Int) × List (List (List Int))), (c1Run k u x).2 ≤ u + k
  | 0, u, x => le_refl u
  | k + 1, u, x => by
    unfold c1Run
    dsimp only
    split
    · exact Nat.le_add_right u (k + 1)
    · have := c1Run_le k (u + 1) (c1Iterate x)
      omega

/-- The global rounds together use no more iterations than there are (R334). -/
theorem c1Rounds_le (per : Nat) : ∀ (l : List (List Int)) (left used : Nat), (c1Rounds per left used l).2 ≤ used + left
  | [], left, used => Nat.le_add_right used left
  | x :: t, left, used => by
    have h : (c1Decode (min per left) x).2 ≤ 0 + min per left := c1Run_le _ _ _
    unfold c1Rounds
    generalize c1Decode (min per left) x = r at h
    obtain ⟨w, n⟩ := r
    dsimp only at h ⊢
    split
    · dsimp only
      omega
    · have := c1Rounds_le per t (left - n) (used + n)
      omega

/-! ### C3 and the rescue pass (R338-R340) -/

/-- C3 of one data set with nothing left to decode makes it final (R338). -/
theorem c3Decode_decoded {s : State} {d : RDs} (hr : s.rd.recon = [d]) (h1 : d.c3done = false) (h2 : d.c2due = false) (h3 : 0 < c3Room s)
    (h4 : d.needC3 = false) (h5 : anyUndec d = false) : c3Decode s =
    finalDs { s with rd := { s.rd with recon := [] }, used := { s.used with c3 := s.used.c3 + 1 } } { d with c3done := true } := by
  have hu : anyUndec { d with c3done := true } = false := h5
  have hroom : c3Room { s with rd := { s.rd with recon := [] } } ≠ 0 := Nat.pos_iff_ne_zero.1 h3
  unfold c3Decode
  rw [overRecon_one hr]
  dsimp only
  rw [if_neg (by simp [h1, h2, hroom]), if_neg (by simp [h4, h5]), settleRead_decoded hu]

/-- A pass that keeps every data set changes nothing. -/
theorem overRecon_keeps {f : State → RDs → State} {s : State}
    (h : ∀ r d, f { s with rd := { s.rd with recon := r } } d = keepDs { s with rd := { s.rd with recon := r } } d) : overRecon f s = s := by
  have hl : ∀ (l r : List RDs), l.foldl f { s with rd := { s.rd with recon := r } } = { s with rd := { s.rd with recon := r ++ l } } := by
    intro l
    induction l with
    | nil => exact fun r => by rw [List.append_nil]; rfl
    | cons d l ih =>
      intro r
      rw [List.foldl_cons, h]
      exact (ih (r ++ [d])).trans (by rw [List.append_assoc]; rfl)
  exact hl s.rd.recon []

/-- Past the tick's budget C3 keeps every data set as it is (R20). -/
theorem c3Decode_full {s : State} (h : c3Room s = 0) : c3Decode s = s := by
  refine overRecon_keeps fun r d => ?_
  have hr : c3Room { s with rd := { s.rd with recon := r } } = 0 := h
  exact if_pos (by simp [hr])

/-- Counting rescued rows touches the channels of those rows alone (R339). -/
theorem foldl_rescued (l : List (RStored × RRow)) : ∀ s : State, ∃ k, l.foldl (fun s (x : RStored × RRow) =>
      modRCh s x.1.ch fun y => { y with rescued := sat 16 (y.rescued + 1) }) s = { s with rd := { s.rd with ch := k } } ∧
    ∀ c : ChNo, (∀ x ∈ l, x.1.ch ≠ c) → k[c] = s.rd.ch[c] := by
  induction l with
  | nil => exact fun s => ⟨s.rd.ch, rfl, fun _ _ => rfl⟩
  | cons x l ih =>
    intro s
    obtain ⟨k, hx, hk⟩ := ih (modRCh s x.1.ch fun y => { y with rescued := sat 16 (y.rescued + 1) })
    refine ⟨k, hx, fun c hc => ?_⟩
    rw [hk c fun y hy => hc y (List.mem_cons_of_mem x hy)]
    exact (modRCh_get s x.1.ch c _).trans (if_neg (hc x List.mem_cons_self))

/-- C3 leaves the rows that were accepted (R338). -/
theorem c3Run_kept (s : State) (d : RDs) : (c3Run s d).passes = d.passes ∧ (c3Run s d).rows = d.rows := by
  obtain ⟨x, h⟩ := c3Run_eq s d
  rw [h]
  exact ⟨rfl, rfl⟩

/-- A rescue pass over a data set (R339): what it counts, and the rows that it adds. -/
theorem rescueOn_eq (s : State) (d : RDs) (obs : List RescueObs) : ∃ k a b e,
    rescueOn s d obs = ({ s with rd := { s.rd with rescue := inc s.rd.rescue, ch := k, c2 := a, c2fail := b } }, e) ∧
    e.passes = d.passes + 1 ∧ e.rows = d.rows ++ (rescueRows s d obs).map (·.2) ∧
    ∀ c : ChNo, (∀ x ∈ rescueRows s d obs, x.1.ch ≠ c) → k[c] = s.rd.ch[c] := by
  unfold rescueOn
  generalize rescueRows s d obs = got
  obtain ⟨k, hk, hc⟩ := foldl_rescued got { s with rd := { s.rd with rescue := inc s.rd.rescue } }
  dsimp only at hk ⊢
  rw [hk]
  obtain ⟨a, b, x, y, h2⟩ := c2On_eq { s with rd := { s.rd with rescue := inc s.rd.rescue, ch := k } }
    { d with rows := d.rows ++ got.map (·.2), passes := d.passes + 1, gained := !got.isEmpty, stored := d.stored.filter fun x => !got.any fun g => g.1 == x }
    (got.map (·.2.sds)).dedup
  rw [h2]
  dsimp only
  split
  · exact ⟨k, a, b, _, rfl, rfl, rfl, hc⟩
  · exact ⟨k, a, b, _, rfl, (c3Run_kept _ _).1, (c3Run_kept _ _).2, hc⟩

/-- Past the tick's budget no rescue pass runs (R20). -/
theorem rescuePass_full {s : State} (h : c3Room s = 0) (obs : List RescueObs) : rescuePass obs s = s := by
  unfold rescuePass
  rw [if_pos h]

/-- The rescue pass of the one data set that C3 has left (R339, R340). -/
theorem rescuePass_one {s : State} {d : RDs} (hr : s.rd.recon = [d]) (h1 : d.c3done = true) (h2 : d.waits = false) (h3 : 0 < c3Room s)
    (h4 : anyUndec d = true) (obs : List RescueObs) : rescuePass obs s =
    settleRead (rescueOn { s with rd := { s.rd with recon := [] }, used := { s.used with c3 := s.used.c3 + 1 } } d obs).1
      (rescueOn { s with rd := { s.rd with recon := [] }, used := { s.used with c3 := s.used.c3 + 1 } } d obs).2 := by
  have hf : s.rd.recon.find? (fun d => d.c3done && !d.waits && anyUndec d) = some d := by
    rw [hr]
    simp [h1, h2, h4]
  unfold rescuePass
  rw [if_neg (Nat.pos_iff_ne_zero.1 h3), hf]
  dsimp only
  rw [overRecon_one hr, if_pos rfl]

/-- What follows a rescue pass leaves the data set as it is, or final (R339, R340). -/
theorem settleRead_recon {s : State} {d : RDs} (h : s.rd.recon = []) :
    ∀ e ∈ (settleRead s d).rd.recon, e.passes = d.passes ∧ e.rows = d.rows := by
  intro e he
  rcases settleRead_cases s d with hc | hc | hc <;> rw [hc] at he
  · obtain ⟨a, b, c, f, g, i, j, hx⟩ := finalDs_girthsOnly s d
    rw [hx] at he
    exact absurd (h ▸ he : e ∈ []) List.not_mem_nil
  · rw [keepDs, h] at he
    rw [List.mem_singleton.1 he]
    exact ⟨rfl, rfl⟩
  · rw [keepDs, h] at he
    rw [List.mem_singleton.1 he]
    exact ⟨rfl, rfl⟩

theorem exec_readWedgeSync (c : ChNo) (q : AcqObs) (i : List Bool) (a b : Nat) (s : State) : exec (.readWedgeSync c q i a b) s =
    actIf s (readsAlong s) (readWedgeSync c q i a b) := rfl

theorem exec_readRowDecode (c : ChNo) (p : Nat) (o : RowObs) (s : State) : exec (.readRowDecode c p o) s =
    actIf s (readsAlong s && s.used.rows < budget s 256) (readRowDecode c p o) := rfl

/-- Settles O52: wedges, row slots, C3 and rescue each by the lemma of their function; the rest by the events' conditions. -/
theorem readPath : Obligations.ReadPath := by
  refine ⟨fun c q i a b s hl h => ?_, fun c q i a b s hl h hm => ?_, fun c q i a b s hl h hm => ?_, fun c p o s hl h => ?_,
    fun c o f s hl ha hb hc hk hf => ?_, fun c p o s hl ha hb hp hc hw => ?_, fun c p o s d r hl ha hb hp hc ht hlk hid hig hm he hr => ?_,
    fun c p o s d hl ha hb hp hc ht hig hw => ?_, fun s c p l o => ?_, fun s d hl hr h1 h2 h3 h4 h5 => ?_, fun s hl h => ?_,
    fun obs s d hl hr h1 h2 h3 h4 => ?_, fun obs s hl h => ?_, fun s hl h1 h2 => ?_, fun s n hl h1 h2 h3 h4 h5 hn h6 => ?_⟩
  · rw [exec_readWedgeSync]
    exact actIf_live_disabled hl h _
  · rw [exec_readWedgeSync, actIf_live hl h, readWedgeSync_none hm]
    rfl
  · obtain ⟨w, n, v, p, hx⟩ := readWedgeSync_locks hm c i a b (quiet s)
    have hs := actIf_live hl h (readWedgeSync c q i a b)
    rw [hx] at hs
    have hch (k : ChNo) : (modRCh (quiet s) c (wedgeLocked (quiet s) c q i)).rd.ch[k] = if c = k then wedgeLocked (quiet s) c q i s.rd.ch[c] else s.rd.ch[k] :=
      modRCh_get _ c k _
    exact ⟨_, hs, (hch c).trans (if_pos rfl), fun k hk => (hch k).trans (if_neg hk.symm), rfl, rfl, rfl, rfl⟩
  · rw [exec_readRowDecode]
    refine actIf_live_disabled hl ?_ _
    rcases h with h | h
    · rw [h, Bool.false_and]
    · rw [decide_eq_false (Nat.not_lt.2 h), Bool.and_false]
  · have hs := actIf_live hl (c := readsAlong s && s.used.rows < budget s 256) (by simp [ha, hb]) (readRowDecode c 254 o)
    obtain ⟨i, e, d, l, hx, hd⟩ := takeLeader_starts (s := rowCounted (quiet s)) hc hk
    obtain ⟨t, ht, hto, hte⟩ := newFrame_eq { rowCounted (quiet s) with
      med := { s.med with index := i }, rd := { s.rd with eodSeen := e } } d
    have hx' : takeLeader (rowCounted (quiet s)) f = underRead d t := hx.trans ht
    rw [readRowDecode_leader hf, hx'] at hs
    obtain ⟨h1, h2, h3, h4, h5, h6⟩ := hd
    refine ⟨_, d, l, hs, rfl, h1, h2, h3, h4, h5, h6, congrArg some h1, rfl, fun h => ?_⟩
    rw [hte (h1.symm ▸ h)]
    exact ⟨rfl, rfl, rfl, rfl, rfl⟩
  · refine (actIf_live hl (c := readsAlong s && s.used.rows < budget s 256) (by simp [ha, hb]) (readRowDecode c p o)).trans ?_
    rw [readRowDecode_closed (s := quiet s) hp hc hw]
    rfl
  · have hlost : slotLost (rowCounted (quiet s)) c o = false := slotLost_false hm he _ c
    have hg : slotGood (rowCounted (quiet s)) c o = true := by
      have hlk' : (rowCounted (quiet s)).rd.ch[c].locked = true := hlk
      have hid' : (rowCounted (quiet s)).rd.ch[c].ident = true := hid
      have hig' : ignored (rowCounted (quiet s)) c = false := hig
      rw [slotGood, hlk', hlost, hid', ignored_slotLock, hig']
      rfl
    obtain ⟨f, k, hx, hf⟩ := rowLoops_slot (s := rowCounted (quiet s)) hig o (rowFlags s c o) (rowWord s c p (rowFlags s c o) o).2 true (rowJoined d r)
    have hs := actIf_live hl (c := readsAlong s && s.used.rows < budget s 256) (by simp [ha, hb]) (readRowDecode c p o)
    rw [readRowDecode_open (s := quiet s) (e := rowJoined d r) hp hc ((readRow_accepts hg hr _ _).trans hx) rfl ht] at hs
    have hch (j : ChNo) : (modRCh (rowCounted (quiet s)) c f).rd.ch[j] = if c = j then f s.rd.ch[c] else s.rd.ch[j] := modRCh_get _ c j f
    have hc' := (hch c).trans (if_pos rfl)
    obtain ⟨f1, f2, f3, f4, f5⟩ := hf s.rd.ch[c]
    exact ⟨_, hs, rfl, (congrArg RCh.rows hc').trans f1, (congrArg RCh.erased hc').trans f2, (congrArg RCh.locked hc').trans ((f5 hlost).trans hlk),
      (congrArg RCh.iterSum hc').trans f3, (congrArg RCh.snrQ hc').trans f4, fun j hj => (hch j).trans (if_neg hj.symm), rfl, rfl, rfl, rfl, rfl⟩
  · obtain ⟨d', hx', h1, h2, h3⟩ := readRow_erases hw (rowCounted (quiet s)) d c p (rowFlags s c o) (rowWord s c p (rowFlags s c o) o).2 o
    obtain ⟨f, k, hx, hf⟩ := rowLoops_slot (s := rowCounted (quiet s)) hig o (rowFlags s c o) (rowWord s c p (rowFlags s c o) o).2 false d'
    have hs := actIf_live hl (c := readsAlong s && s.used.rows < budget s 256) (by simp [ha, hb]) (readRowDecode c p o)
    rw [readRowDecode_open (s := quiet s) (e := d') hp hc (hx'.trans hx) rfl (h3.trans ht)] at hs
    have hch (j : ChNo) : (modRCh (rowCounted (quiet s)) c f).rd.ch[j] = if c = j then f s.rd.ch[c] else s.rd.ch[j] := modRCh_get _ c j f
    have hc' := (hch c).trans (if_pos rfl)
    obtain ⟨f1, f2, -⟩ := hf s.rd.ch[c]
    exact ⟨_, d', hs, rfl, h1, h2, (congrArg RCh.rows hc').trans f1, (congrArg RCh.erased hc').trans f2,
      fun j hj => (hch j).trans (if_neg hj.symm), rfl, rfl, rfl, rfl⟩
  · have h := c1Rounds_le ((pnat s .ldpcIter + pnat s .ldpcRounds - 1) / pnat s .ldpcRounds)
      ((o.rounds.take (pnat s .ldpcRounds)).map fun l' => c1Llrs (rowSeed p c.val) (eraseFlagged (l.drop 32) l')) (pnat s .ldpcIter) 0
    rwa [Nat.zero_add] at h
  · obtain ⟨a, b, e, f, g, i, j, hx⟩ := finalDs_girthsOnly { quiet s with
      rd := { s.rd with recon := [] }, used := { s.used with c3 := s.used.c3 + 1 } } { d with c3done := true }
    have hs := act_live hl c3Decode
    rw [(c3Decode_decoded (s := quiet s) hr h1 h2 h3 h4 h5).trans hx] at hs
    exact ⟨_, hs, rfl, rfl, rfl, if_neg (by rw [h4]; exact Bool.false_ne_true), rfl, rfl, rfl⟩
  · exact act_effect hl (c3Decode_full (s := quiet s) h) rfl rfl
  · obtain ⟨k, a, b, e, hx, he1, he2, hk⟩ := rescueOn_eq { quiet s with
      rd := { s.rd with recon := [] }, used := { s.used with c3 := s.used.c3 + 1 } } d obs
    have hs := act_live hl (rescuePass obs)
    generalize hy : ({ quiet s with rd := { s.rd with recon := [] }, used := { s.used with c3 := s.used.c3 + 1 } } : State) = y at hx
    have hone : rescuePass obs (quiet s) = settleRead (rescueOn y d obs).1 (rescueOn y d obs).2 := hy ▸ rescuePass_one (s := quiet s) hr h1 h2 h3 h4 obs
    rw [hx] at hone
    rw [hone] at hs
    have hrec := settleRead_recon (s := { y with rd := { y.rd with rescue := inc y.rd.rescue, ch := k, c2 := a, c2fail := b } }) (d := e) (by rw [← hy])
    obtain ⟨e1, e2, e3, e4, e5, e6, e7, e8, e9, e10, e11, e12, hst⟩ :=
      settleRead_reconOnly { y with rd := { y.rd with rescue := inc y.rd.rescue, ch := k, c2 := a, c2fail := b } } e
    rw [hst] at hs hrec
    subst hy
    refine ⟨_, hs, rfl, rfl, rfl, fun c hc => hk c hc, fun d' hd => ?_, rfl, rfl⟩
    obtain ⟨hp, hw⟩ := hrec d' hd
    exact ⟨hp.trans he1, hw.trans he2⟩
  · exact act_effect hl (rescuePass_full (s := quiet s) h obs) rfl rfl
  · refine actIf_live_kept hl (c := s.rd.reading && (readers s).all fun n => pnat s .aheadDs ≤ aheadOf s n) ?_ (fun s =>
      { s with rd := { s.rd with reading := false, stopped := true } }) rfl rfl
    rw [h1, Bool.true_and, List.all_eq_true]
    exact fun n hn => decide_eq_true (h2 n hn)
  · refine actIf_live_kept hl (c := !s.rd.reading && s.rd.stopped && !s.srv.lost && s.pw.mode == .stream && s.cart.loaded &&
      (readers s).any fun n => aheadOf s n ≤ (pnat s .aheadDs + 1) / 2) ?_ (fun s =>
      { s with rd := { s.rd with reading := true, stopped := false } }) rfl rfl
    rw [h1, h2, h3, h4, h5, List.any_eq_true.2 ⟨n, hn, decide_eq_true h6⟩]
    rfl

end Sys2Proof.Machine
end

section
/-! SUPPORT. LOAD and UNLOAD (R174, R204, R383, R384). -/

namespace Sys2Proof.Machine

open Sys2Proof

/-- Coming to rest before a data set writes the read chain, its epochs, where the writer is, and where the tape is. -/
theorem restAt_eq (s : State) (d : Nat) : ∃ m r v e p q, restAt s d = { s with med := m, rd := r, srv := v, evt := e, pcie := p, pool := q } ∧
    (∃ k, m = { s.med with epochs := k, positioned := false }) ∧ r.wrap = wrapOfDsn s d ∧ r.stopped = true ∧ r.reading = false ∧
    r.locMethod = s.rd.locMethod ∧ r.locProbes = s.rd.locProbes ∧ v.lost = false := by
  obtain ⟨a, b, c, f, g, h, i, j, k, l, m, n, hx⟩ := nextAreaRead_reconOnly false s
  unfold restAt startRead loadSeeds
  rw [hx]
  exact ⟨_, _, _, _, _, _, rfl, ⟨_, rfl⟩, rfl, rfl, rfl, rfl, rfl, rfl⟩

/-- What LOAD leaves of the cartridge and of the append point once the tape is threaded (R383, R385). -/
theorem loadDone_eq (obs : LoadObs) (s : State) : ∃ c m r v d e p q, loadDone obs s = { s with
    cart := c, med := m, rd := r, srv := v, sad := d, evt := e, pcie := p, pool := q } ∧
    c.loaded = true ∧ c.threaded = true ∧ c.motion = s.cart.motion ∧ c.marked = false ∧ c.readonly = decide (c.source = 2) ∧
    c.present = (obs.cm.isSome && !obs.multi) ∧ m.append = c.eodDsn := by
  unfold loadDone
  extract_lets mem present s1 f d wraps dir epochsN loads _ _ _ _ _ s2 w _ s3 s4 s5 s6
  obtain ⟨e, p, h1⟩ : ∃ e p, s1 = { s with evt := e, pcie := p } := by
    dsimp only [s1]
    split
    · exact logE_chip s _ _ _ _
    · exact ⟨_, _, rfl⟩
  obtain ⟨c, m, r, v, k, h5, hc⟩ : ∃ c m r v k, s5 = { s1 with cart := c, med := m, rd := r, srv := v, sad := k } ∧ c.loaded = true ∧
      c.threaded = true ∧ c.motion = s1.cart.motion ∧ c.marked = false ∧ c.readonly = decide (c.source = 2) ∧
      c.present = (obs.cm.isSome && !obs.multi) ∧ m.append = c.eodDsn :=
    ⟨_, _, _, _, _, rfl, rfl, rfl, rfl, rfl, rfl, rfl, rfl⟩
  obtain ⟨c1, c2, c3, c4, c5, c6, c7⟩ := hc
  obtain ⟨m', r', v', e', p', q, h6, ⟨x, hm⟩, -⟩ := restAt_eq s5 0
  obtain ⟨e'', p'', hl⟩ : ∃ e p, (if pnat s6 .loadsWarn ≤ loads then logE s6 .warn srcChip 0x0703 [("loads", 4, loads)] else s6) =
      { s6 with evt := e, pcie := p } := by
    split
    · exact logE_chip s6 _ _ _ _
    · exact ⟨_, _, rfl⟩
  have h6' : s6 = _ := h6
  refine ⟨c, m', r', v', k, e'', p'', q, hl.trans (by rw [h6', h5, h1]), c1, c2, ?_, c4, c5, c6, ?_⟩
  · rw [c3, h1]
  · rw [hm, h5]
    exact c7

/-- A data set that ends a recording writes the media side (R384). -/
theorem endFrame_eq (s : State) : ∃ m v, endFrame s = { s with med := m, srv := v } := by
  unfold endFrame
  split
  · exact ⟨_, _, rfl⟩
  · obtain ⟨m, v, hx, -⟩ := wrapEnd_eq { s with med := { s.med with lane := .idle } }
    rw [hx]
    exact ⟨_, _, rfl⟩

/-- The end of a recording writes the media side and where the data ends (R384). -/
theorem endRecording_eq (s : State) : ∃ m v d, endRecording s = { s with med := m, srv := v, cart := { s.cart with eodDsn := d } } := by
  unfold endRecording
  split
  · obtain ⟨m, v, h1⟩ := endFrame_eq s
    obtain ⟨m', v', h2⟩ := endFrame_eq { s with med := m, srv := v, cart := { s.cart with eodDsn := m.append } }
    obtain ⟨m'', v'', h3⟩ := endFrame_eq { s with med := m', srv := v', cart := { s.cart with eodDsn := m.append } }
    dsimp only
    rw [h1, h2, h3]
    exact ⟨_, _, _, rfl⟩
  · exact ⟨_, _, _, rfl⟩

/-- The directory's writing, or the record of its failure, leaves the cartridge's number of loads (R384). -/
theorem closeDir_eq (s : State) (b : Bool) : ∃ c e p, (if b then writeDir (heldLog s 2 0xFF s.cart.eodDsn) false else logE s .warn srcChip 0x0701) =
    { s with cart := c, evt := e, pcie := p } ∧ c.loads = s.cart.loads := by
  split
  · exact ⟨_, _, _, rfl, rfl⟩
  · obtain ⟨e, p, h⟩ := logE_chip s .warn 0x0701 [] none
    exact ⟨_, e, p, h, rfl⟩

/-- What the end of an UNLOAD leaves of the cartridge (R384). -/
def unthreaded (c : Cart) : Cart :=
  { c with threaded := false, loaded := false, readonly := false, opened := false, marked := false, present := false, cmWait := none, motion := none }

/-- UNLOAD's end in STAGE: the change to PARK was refused (R37, R204). -/
theorem unloadComplete_stage {s : State} {e : Entry} (h : s.pw.mode = .stage) (he : admOpen s (· == .unload) = some e) (b : Bool) :
    unloadComplete b s = complete (endMotion s) .adm e.tag (busyMode (holders s 1 .adm)) := by
  unfold unloadComplete
  rw [h, he]
  rfl

/-- UNLOAD's end (R384): nothing is threaded, and what was read and indexed of the cartridge is gone. -/
theorem unloadComplete_done {s : State} {e : Entry} (h : s.pw.mode ≠ .stage) (he : admOpen s (· == .unload) = some e) (b : Bool) :
    ∃ c m v r w y p, unloadComplete b s = complete { s with cart := unthreaded c, med := m, srv := v, rd := r, pw := w, evt := y, pcie := p } .adm e.tag
        { status := .ok, fields := [fld "cm" (if b && s.cart.present then "OK" else "TAIL"), fnum "loads" s.cart.loads] } ∧
      r.store = [] ∧ m.index = [] := by
  obtain ⟨m, v, d, hr⟩ := endRecording_eq s
  obtain ⟨c, y, p, hd, hc⟩ := closeDir_eq { s with med := m, srv := v, cart := { s.cart with eodDsn := d } } (b && s.cart.present)
  unfold unloadComplete
  rw [he, if_neg (by simpa using h)]
  dsimp only
  rw [hr]
  dsimp only at hd ⊢
  rw [hd]
  dsimp only
  rw [hc]
  exact ⟨_, _, _, _, _, _, _, rfl, rfl, rfl⟩

/-- A tape that moves for no command is free (R174). -/
theorem tapeFree_free {s : State} (h : s.cart.motion = none) (ch : Chan) (t : Nat) (f : State → State) : tapeFree ch t f s = f s := by
  unfold tapeFree
  rw [h]
  rfl

/-- A command waits while the tape moves for another (R174). -/
theorem tapeFree_waits {s : State} (h : s.cart.motion.isSome = true) (ch : Chan) (t : Nat) (f : State → State) :
    tapeFree ch t f s = modEntry s ch t fun e => { e with begun := false, why := .tape } := if_pos h

/-- LOAD with nothing loaded and no saddle in the way starts its motion (R174, R383). -/
theorem loadAsk_starts {s : State} (h1 : s.cart.loaded = false) (h2 : streamHeld s .adm = []) (h3 : s.cart.motion = none) (t : Nat) :
    loadAsk t s = startMotion s .load := by
  unfold loadAsk
  rw [h1, h2, if_neg Bool.false_ne_true, if_neg (by simp), tapeFree_free h3]

theorem loadAsk_held {s : State} (h1 : s.cart.loaded = false) (h2 : streamHeld s .adm ≠ []) (t : Nat) :
    loadAsk t s = complete s .adm t (busyMode (streamHeld s .adm)) := by
  unfold loadAsk
  rw [h1, if_neg Bool.false_ne_true, if_pos (by simpa using h2)]

/-- From STAGE an UNLOAD asks for PARK first (R37, R204). -/
def parkFirst (s : State) : State :=
  if s.pw.mode == .stage then { s with pw := { s.pw with reqs := s.pw.reqs ++ [{ ch := .adm, tag := none, target := .park }] } } else s

theorem parkFirst_eq (s : State) : parkFirst s = { s with pw := { s.pw with
    reqs := if s.pw.mode = .stage then s.pw.reqs ++ [{ ch := .adm, tag := none, target := .park }] else s.pw.reqs } } := by
  unfold parkFirst
  by_cases h : s.pw.mode = .stage
  · rw [if_pos (by rw [h]; rfl), if_pos h]
  · rw [if_neg (by simpa using h), if_neg h]

/-- The admission channel's open command has no outcome. -/
theorem admOpen_none {s : State} {f : Verb → Bool} {e : Entry} (h : admOpen s f = some e) : e.ended = none := by
  have h := List.find?_some h
  simp only [Entry.open_, Bool.and_eq_true, Option.isNone_iff_eq_none] at h
  exact h.1.1

/-- The saddles with girths that are not on tape. -/
def unwritten (s : State) : List SadNo := allSads.filter fun n => !s.sad[n].unsync.isEmpty

theorem unwritten_nil {s : State} (h : ∀ n : SadNo, s.sad[n].unsync = []) : unwritten s = [] :=
  List.filter_eq_nil_iff.2 fun n _ => by simpa using h n

theorem unwritten_ne {s : State} {n : SadNo} (h : s.sad[n].unsync ≠ []) : unwritten s ≠ [] := fun hu =>
  List.filter_eq_nil_iff.1 hu n (mem_allSads n) (by simpa using h)

/-- UNLOAD with nothing left to write starts its motion (R174, R204). -/
theorem unloadAsk_starts {s : State} (h1 : s.cart.loaded = true) (h2 : unwritten s = []) (h3 : s.pw.mode ≠ .stage → streamHeld s .adm = [])
    (h4 : s.pw.mode = .stage → holders s 1 .adm = []) (h5 : s.cart.motion = none) (t : Nat) :
    unloadAsk t s = startMotion (parkFirst s) .unload := by
  have hl : (if s.pw.mode == .stage then holders s 1 .adm else streamHeld s .adm) = [] := by
    split
    · next h => exact h4 (by simpa using h)
    · next h => exact h3 (by simpa using h)
  have hu : (allSads.filter fun n => !s.sad[n].unsync.isEmpty) = [] := h2
  unfold unloadAsk
  rw [hl, hu, h1, if_neg (by simp), if_neg (by simp), if_neg (by simp), tapeFree_free h5]
  rfl

theorem unloadAsk_unwritten {s : State} (h1 : s.cart.loaded = true) (h2 : unwritten s ≠ []) (t : Nat) :
    unloadAsk t s = complete s .adm t (busyMode (unwritten s)) := by
  unfold unloadAsk
  rw [h1, if_neg (by simp), if_pos (by simpa [unwritten] using h2)]
  rfl

theorem unloadAsk_empty {s : State} (h : s.cart.loaded = false) (t : Nat) : unloadAsk t s = complete s .adm t { status := .notape } :=
  if_pos (by rw [h]; rfl)

/-- LOAD's steps found an empty bay (R383). -/
theorem loadComplete_empty {s : State} {e : Entry} {obs : LoadObs} (he : admOpen s (· == .load) = some e) (h : obs.empty = true) :
    loadComplete obs s = complete (endMotion s) .adm e.tag (failWhy .notape "empty") := by
  have he' : admOpen (endMotion s) (· == .load) = some e := he
  unfold loadComplete
  rw [if_pos h]
  dsimp only
  rw [he']

/-- LOAD has threaded its cartridge (R383). -/
theorem loadComplete_threaded {s : State} {e : Entry} {obs : LoadObs} (he : admOpen s (· == .load) = some e) (h1 : obs.empty = false)
    (h2 : obs.threadFails = false) :
    loadComplete obs s = okWith (setDom (loadDone obs (endMotion s))) .adm e.tag (loadFields (setDom (loadDone obs (endMotion s)))) := by
  obtain ⟨c, m, r, v, d, y, p, q, hx, -⟩ := loadDone_eq obs (endMotion s)
  have he' : admOpen (setDom (loadDone obs (endMotion s))) (· == .load) = some e := by
    rw [hx]
    exact he
  unfold loadComplete
  rw [h1, h2, if_neg Bool.false_ne_true, if_neg Bool.false_ne_true]
  dsimp only
  rw [he']

/-- Settles O39: the starts by what they ask for, and the ends by what LOAD and UNLOAD leave of the cartridge. -/
theorem loadAndUnload : Obligations.LoadAndUnload := by
  refine ⟨fun s t h h1 h2 h3 => ?_, fun s t h h1 => ?_, fun s obs e hl hm ha he => ⟨fun h1 => ?_, fun h1 h2 => ?_⟩, fun s t h h1 h2 => ?_,
    fun s t h h1 h2 h3 h4 h5 => ?_, fun s t n h h1 h2 => ?_, fun s t h h1 => ?_, fun s ok e hl hm ht hr hst ha he => ?_, fun s ok hl h => ?_,
    fun s ok e hl hm ht hr hst ha he => ?_⟩
  · exact ⟨startMotion (quiet s) .load, goesOn_of_verbRow_begun (body := loadAsk) rfl h
      (loadAsk_starts (s := withQueue (quiet s) .adm (begunQueue s .adm t)) h1 h2 h3 t) rfl rfl, rfl, rfl, rfl, rfl, rfl, rfl⟩
  · exact endsOnly_of_verbRow (body := loadAsk) rfl h (if_pos h1)
  · have hn := admOpen_none ha
    obtain ⟨q, hq⟩ := complete_withQueue (endMotion (quiet s)) .adm e.tag (failWhy .notape "empty")
    have hend := complete_ended (s := endMotion (quiet s)) (ch := .adm) he hn (failWhy .notape "empty")
    have hs := actIf_live hl (c := s.cart.motion == some .load) (by simp [hm]) (loadComplete obs)
    rw [loadComplete_empty (s := quiet s) ha h1, hq] at hs
    rw [hq] at hend
    exact ⟨_, hs, hend, rfl, rfl, rfl⟩
  · have hn := admOpen_none ha
    obtain ⟨c, m, r, v, d, y, p, q, hx, c1, c2, c3, c4, c5, c6, c7⟩ := loadDone_eq obs (endMotion (quiet s))
    have hc := loadComplete_threaded (s := quiet s) ha h1 h2
    rw [hx] at hc
    generalize hu : setDom { endMotion (quiet s) with cart := c, med := m, rd := r, srv := v, sad := d, evt := y, pcie := p, pool := q } = u at hc
    obtain ⟨k, hq⟩ := complete_withQueue u .adm e.tag { status := .ok, fields := loadFields u }
    have hend := complete_ended (s := u) (ch := .adm) (by rw [← hu]; exact he) hn { status := .ok, fields := loadFields u }
    have hs := actIf_live hl (c := s.cart.motion == some .load) (by simp [hm]) (loadComplete obs)
    rw [hc, okWith, hq] at hs
    rw [hq] at hend
    subst hu
    exact ⟨_, _, hs, hend, rfl, c1, c2, c3, c4, c5, c6, c7, rfl, rfl⟩
  · exact endsOnly_of_verbRow (body := loadAsk) rfl h (loadAsk_held (s := withQueue (quiet s) .adm (begunQueue s .adm t)) h1 h2 t)
  · refine ⟨startMotion (parkFirst (quiet s)) .unload, goesOn_of_verbRow_begun (body := unloadAsk) rfl h
      ((unloadAsk_starts (s := withQueue (quiet s) .adm (begunQueue s .adm t)) h1 (unwritten_nil h2) h3 h4 h5 t).trans ?_) ?_ ?_, ?_⟩
    · rw [parkFirst_eq, parkFirst_eq]
      rfl
    all_goals rw [parkFirst_eq]
    exacts [rfl, rfl, ⟨rfl, rfl, rfl, rfl, rfl⟩]
  · have hu : unwritten (withQueue (quiet s) .adm (begunQueue s .adm t)) ≠ [] := unwritten_ne (n := n) h2
    exact endsOnly_of_verbRow (body := unloadAsk) rfl h (unloadAsk_unwritten (s := withQueue (quiet s) .adm (begunQueue s .adm t)) h1 hu t)
  · exact endsOnly_of_verbRow (body := unloadAsk) rfl h (unloadAsk_empty (s := withQueue (quiet s) .adm (begunQueue s .adm t)) h1 t)
  · have hn := admOpen_none ha
    obtain ⟨q, hq⟩ := complete_withQueue (endMotion (quiet s)) .adm e.tag (busyMode (holders s 1 .adm))
    have hend := complete_ended (s := endMotion (quiet s)) (ch := .adm) he hn (busyMode (holders s 1 .adm))
    have hx : unloadComplete ok (quiet s) = complete (endMotion (quiet s)) .adm e.tag (busyMode (holders s 1 .adm)) :=
      unloadComplete_stage (s := quiet s) hst ha ok
    have hs := actIf_live hl (c := s.cart.motion == some .unload && s.pw.trans.isNone && s.pw.reqs.isEmpty) (by simp [hm, ht, hr]) (unloadComplete ok)
    rw [hx, hq] at hs
    rw [hq] at hend
    exact ⟨_, hs, rfl, rfl, rfl, hend⟩
  · refine actIf_live_disabled hl (c := s.cart.motion == some .unload && s.pw.trans.isNone && s.pw.reqs.isEmpty) ?_ (unloadComplete ok)
    rcases h with h | h | h
    · simp [Option.isSome_iff_ne_none.1 h]
    · simp [h]
    · simp [h]
  · have hn := admOpen_none ha
    obtain ⟨c, m, v, r, w, y, p, hx, h1, h2⟩ := unloadComplete_done (s := quiet s) hst ha ok
    generalize hu : ({ quiet s with cart := unthreaded c, med := m, srv := v, rd := r, pw := w, evt := y, pcie := p } : State) = u at hx
    have hs := actIf_live hl (c := s.cart.motion == some .unload && s.pw.trans.isNone && s.pw.reqs.isEmpty) (by simp [hm, ht, hr]) (unloadComplete ok)
    obtain ⟨q, hq⟩ := complete_withQueue u .adm e.tag
      { status := .ok, fields := [fld "cm" (if ok && s.cart.present then "OK" else "TAIL"), fnum "loads" s.cart.loads] }
    rw [hx.trans hq] at hs
    have hend := complete_ended (s := u) (ch := .adm) (by rw [← hu]; exact he) hn
      { status := .ok, fields := [fld "cm" (if ok && s.cart.present then "OK" else "TAIL"), fnum "loads" s.cart.loads] }
    rw [hq] at hend
    subst hu
    exact ⟨_, hs, rfl, rfl, rfl, rfl, h1, h2, rfl, hend⟩

end Sys2Proof.Machine
end

section
/-! SUPPORT. LOCATE and SPACE (R158, R174, R189, R199, R291-R293, R377). -/

namespace Sys2Proof.Machine

open Sys2Proof

/-! ### The start of a motion (R174) -/

theorem heldMode_congr {s t : State} {n : SadNo} (h1 : t.sad[n].q.entries.filter (·.ended.isNone) = s.sad[n].q.entries.filter (·.ended.isNone))
    (h2 : t.sad[n].unsync = s.sad[n].unsync) (h3 : t.sad[n].admitted = s.sad[n].admitted) (hc : t.cfg = s.cfg) : heldMode t n = heldMode s n := by
  have hb : bindOf t n = bindOf s n := by
    unfold bindOf pnat pint cfgVal
    rw [hc]
  have hk : classOf t n = classOf s n := by
    unfold classOf pnat pint cfgVal
    rw [hc]
  unfold heldMode
  rw [hb, hk]
  dsimp only
  rw [h1, h2, h3]

/-- Which saddles hold STREAM against a command does not rest on how far that command has come. -/
theorem streamHeld_begun (s : State) (ch : Chan) (t : Nat) : streamHeld (withQueue (quiet s) ch (begunQueue s ch t)) ch = streamHeld s ch := by
  unfold streamHeld holders
  refine List.filter_congr fun n _ => ?_
  by_cases h : ch = .sad n
  · subst h
    simp
  · have hs : (withQueue (quiet s) ch (begunQueue s ch t)).sad[n] = s.sad[n] := by
      cases ch with
      | adm => rfl
      | sad m => exact (modSad_get _ m n _).trans (if_neg fun hm => h (congrArg Chan.sad hm))
    have hc : (withQueue (quiet s) ch (begunQueue s ch t)).cfg = s.cfg := by cases ch <;> rfl
    rw [heldMode_congr (by rw [hs]) (by rw [hs]) (by rw [hs]) hc]

theorem withQueue_cart (s : State) (ch : Chan) (q : Queue) : (withQueue s ch q).cart = s.cart := by cases ch <;> rfl

theorem seekAsk_empty {s : State} (h : s.cart.loaded = false) (ch : Chan) (t : Nat) : seekAsk ch t s = complete s ch t { status := .notape } :=
  if_pos (by rw [h]; rfl)

theorem seekAsk_held {s : State} {ch : Chan} (h1 : s.cart.loaded = true) (h2 : streamHeld s ch ≠ []) (t : Nat) :
    seekAsk ch t s = complete s ch t (busyMode (streamHeld s ch)) := by
  unfold seekAsk
  rw [h1, if_neg (by simp), if_pos (by simpa using h2)]

theorem seekAsk_tape {s : State} {ch : Chan} (h1 : s.cart.loaded = true) (h2 : streamHeld s ch = []) (t : Nat) :
    seekAsk ch t s = tapeFree ch t (fun s => startMotion (modEntry s ch t fun e => { e with why := .tape }) (.seek ch (some t))) s := by
  unfold seekAsk
  rw [h1, h2, if_neg (by simp), if_neg (by simp)]

theorem startMotion_modEntry (s : State) (ch : Chan) (t : Nat) (f : Entry → Entry) (m : MotionOp) :
    startMotion (modEntry s ch t f) m = modEntry (startMotion s m) ch t f := by cases ch <;> rfl

theorem startMotion_withQueue (s : State) (ch : Chan) (q : Queue) (m : MotionOp) :
    startMotion (withQueue s ch q) m = withQueue (startMotion s m) ch q := by cases ch <;> rfl

/-- What a command does that needs the tape and has nothing in its way but the tape itself (R174, R377). -/
def Seeks (c : Instr) (s : State) (ch : Chan) (t : Nat) : Prop :=
  (s.cart.loaded = false → EndsOnly c s ch t { status := .notape }) ∧
  (s.cart.loaded = true → streamHeld s ch ≠ [] → EndsOnly c s ch t { status := .busyMode, fields := [fld "held" (heldStr (streamHeld s ch))] }) ∧
  (s.cart.loaded = true → streamHeld s ch = [] → s.cart.motion = none →
    ∃ u, GoesOn c s ch t u ∧ u = { quiet s with
      cart := { s.cart with motion := some (.seek ch (some t)) }, med := { s.med with positioned := false }
      rd := { s.rd with reading := false }, pw := { s.pw with dom := u.pw.dom } }) ∧
  (s.cart.loaded = true → streamHeld s ch = [] → s.cart.motion.isSome = true →
    ∃ q e, exec c s = .next (withQueue (quiet s) ch q) ∧ entryOf (withQueue (quiet s) ch q) ch t = some e ∧ e.ended = none ∧
      e.begun = false ∧ e.why = .tape ∧ OthersKept s (withQueue (quiet s) ch q) ch t)

/-- A verb whose effect is a motion's start seeks. -/
theorem seeks_of_verbRow {c : Instr} {s : State} {ch : Chan} {t : Nat} {v : Verb} {body : Nat → State → State}
    (hx : exec c s = verbRow ch (some t) v body s) (h : Runs s ch t v)
    (hb : body t (withQueue (quiet s) ch (begunQueue s ch t)) = seekAsk ch t (withQueue (quiet s) ch (begunQueue s ch t))) : Seeks c s ch t := by
  have hcart := withQueue_cart (quiet s) ch (begunQueue s ch t)
  have hheld := streamHeld_begun s ch t
  have hl : ∀ b, s.cart.loaded = b → (withQueue (quiet s) ch (begunQueue s ch t)).cart.loaded = b := fun b hb => (congrArg Cart.loaded hcart).trans hb
  have hm : (withQueue (quiet s) ch (begunQueue s ch t)).cart.motion = s.cart.motion := congrArg Cart.motion hcart
  refine ⟨fun h1 => ?_, fun h1 h2 => ?_, fun h1 h2 h3 => ?_, fun h1 h2 h3 => ?_⟩
  · exact endsOnly_of_verbRow (body := body) hx h (hb.trans (seekAsk_empty (hl _ h1) ch t))
  · have hk := seekAsk_held (s := withQueue (quiet s) ch (begunQueue s ch t)) (ch := ch) (hl _ h1) (by rw [hheld]; exact h2) t
    rw [hheld] at hk
    exact endsOnly_of_verbRow (body := body) hx h (hb.trans hk)
  · refine ⟨startMotion (quiet s) (.seek ch (some t)), goesOn_of_verbRow (body := body) (fun e => { e with why := .tape }) hx h (hb.trans ?_)
      (fun _ => ⟨rfl, rfl, rfl, rfl⟩) rfl rfl, rfl⟩
    rw [seekAsk_tape (hl _ h1) (hheld.trans h2), tapeFree_free (hm.trans h3), startMotion_modEntry, startMotion_withQueue]
  · obtain ⟨e, he, hn⟩ := Runs.entry h
    obtain ⟨q, hq, heq, ho⟩ := marks_of_verbRow (c := c) (body := body) (u := quiet s) (fun e => { e with begun := false, why := .tape }) hx h he
      (hb.trans (by rw [seekAsk_tape (hl _ h1) (hheld.trans h2), tapeFree_waits ((congrArg Option.isSome hm).trans h3)])) (fun _ => rfl) rfl rfl
    exact ⟨q, _, hq, heq, hn, rfl, rfl, ho⟩

/-! ### LOCATE of a girth in the buffer (R158, R189) -/

theorem locateAsk_girth {ch : Chan} {sad : Option SadNo} {n : SadNo} (h : targetOf ch sad = some n) (g t : Nat) (s : State) :
    locateAsk ch sad (.girth g) t s = locateGirth ch n g t s := by
  cases ch with
  | adm =>
    rw [show sad = some n from h]
    rfl
  | sad m =>
    rw [show m = n from Option.some.inj h]
    rfl

theorem locateAsk_other {x : LocTarget} (h : ∀ g, x ≠ .girth g) (ch : Chan) (sad : Option SadNo) (t : Nat) (s : State) :
    locateAsk ch sad x t s = seekAsk ch t s := by
  cases x with
  | girth g => exact absurd rfl (h g)
  | ds d => rfl
  | bot => rfl
  | eod => rfl

/-- What the buffer holds of a saddle's girths does not rest on queues. -/
theorem inBuffer_withQueue (s : State) (ch : Chan) (q : Queue) (n : SadNo) (g : Nat) : inBuffer (withQueue s ch q) n g = inBuffer s n g := by
  have hf : findOwn (withQueue s ch q) n g = findOwn s n g := by
    obtain ⟨r, hr⟩ := withQueue_saddle s ch q n
    have hm : (withQueue s ch q).med = s.med := by cases ch <;> rfl
    unfold findOwn
    rw [hr, hm]
  have hr : (withQueue s ch q).rd = s.rd := by cases ch <;> rfl
  unfold inBuffer findStore
  rw [hf, hr]

theorem withQueue_next (s : State) (ch : Chan) (q : Queue) (n : SadNo) : (withQueue s ch q).sad[n].next = s.sad[n].next := by
  obtain ⟨r, hr⟩ := withQueue_saddle s ch q n
  rw [hr]

/-- The data set that a LOCATE of a girth in the buffer names (log 134). -/
def bufDs (s : State) (d : Option Nat) : Nat := d.getD (Config.bufferedDs s.free)

/-- A LOCATE has found its girth in the buffer (R158, R162). -/
def bufLocated (n : SadNo) (g : Nat) (d : Option Nat) (s : State) : State :=
  { modSad s n fun x => { x with readPos := g, posLost := false } with
    rd := { s.rd with locMethod := 0, locProbes := 0 }, free := if d = none then s.free + 1 else s.free }

theorem bufLocated_withQueue (n : SadNo) (g : Nat) (d : Option Nat) (s : State) (ch : Chan) (q : Queue) :
    bufLocated n g d (withQueue s ch q) = withQueue (bufLocated n g d s) ch q := by
  unfold bufLocated
  rw [modSad_withQueue (fun _ _ => rfl)]
  cases ch <;> rfl

/-- LOCATE's answer for a girth in the buffer (R189). -/
def bufFound (s : State) (g : Nat) (d : Option Nat) : Outc :=
  { status := .ok, fields := [fnum "girth" g] ++ posFields s (bufDs s d) ++ [fld "how" "BUFFER"] }

theorem locateGirth_past {s : State} {n : SadNo} {g : Nat} (h : s.sad[n].next ≤ g) (ch : Chan) (t : Nat) :
    locateGirth ch n g t s = complete s ch t (failWhy .badarg "range" [fld "key" "girth", fnum "eod" s.sad[n].next]) := if_pos h

theorem locateGirth_buffered {s : State} {n : SadNo} {g : Nat} {d : Option Nat} (h : g < s.sad[n].next) (hb : inBuffer s n g = some d) (ch : Chan)
    (t : Nat) : locateGirth ch n g t s = complete (bufLocated n g d s) ch t (bufFound s g d) := by
  unfold locateGirth
  rw [if_neg (Nat.not_le.2 h), hb]
  cases d with
  | none => rfl
  | some k => rfl

theorem locateGirth_seeks {s : State} {n : SadNo} {g : Nat} (h : g < s.sad[n].next) (hb : inBuffer s n g = none) (ch : Chan) (t : Nat) :
    locateGirth ch n g t s = seekAsk ch t s := by
  unfold locateGirth
  rw [if_neg (Nat.not_le.2 h), hb]

/-! ### The tape at rest (R145, R377) -/

/-- The tape rests before a data set, and the method of the LOCATE is noted (R189). -/
def seekRested (d how probes : Nat) (s : State) : State := setLoc (restAt s d) how probes

/-- A saddle's read position is at a girth, and lost no more (R162). -/
def readAt (n : SadNo) (g : Nat) (s : State) : State := modSad s n fun x => { x with readPos := g, posLost := false }

theorem locateAt_saddle (ch : Chan) (n : SadNo) (g d how probes t : Nat) (s : State) : locateAt ch (some n) g d how probes t s =
    okWith (readAt n g (seekRested d how probes s)) ch t
      ([fnum "girth" g] ++ posFields (readAt n g (seekRested d how probes s)) d ++ [fld "how" (howName how)]) := rfl

theorem locateAt_none (ch : Chan) (g d how probes t : Nat) (s : State) : locateAt ch none g d how probes t s =
    okWith (seekRested d how probes s) ch t (posFields (seekRested d how probes s) d) := rfl

theorem locateDone_girth {ch : Chan} {sad : Option SadNo} {n : SadNo} (h : targetOf ch sad = some n) (x t dsn probes : Nat) (s : State) :
    locateDone ch sad (.girth x) t dsn probes s =
      locateAt ch (some n) x (girthDs s n x dsn probes).1 (girthDs s n x dsn probes).2.1 (girthDs s n x dsn probes).2.2 t s := by
  cases ch with
  | adm =>
    rw [show sad = some n from h]
    rfl
  | sad m =>
    rw [show m = n from Option.some.inj h]
    rfl

theorem locateDone_bot (ch : Chan) (sad : Option SadNo) (t dsn probes : Nat) (s : State) :
    locateDone ch sad .bot t dsn probes s = locateAt ch (targetOf ch sad) 0 0 2 probes t s := by cases ch <;> rfl

theorem locateDone_eod (ch : Chan) (sad : Option SadNo) (t dsn probes : Nat) (s : State) : locateDone ch sad .eod t dsn probes s =
    locateAt ch (targetOf ch sad) (((targetOf ch sad).map fun n => s.sad[n].next).getD 0) s.med.append 2 probes t s := by cases ch <;> rfl

theorem locateDone_ds (ch : Chan) (sad : Option SadNo) (d t dsn probes : Nat) (s : State) :
    locateDone ch sad (.ds d) t dsn probes s = locateAt ch none 0 d 2 probes t s := by cases ch <;> rfl

/-- Where a SPACE stops, and what it did not space (R199). -/
def spaceEnd (s : State) (n : SadNo) (moved : Nat) (g : Option Nat) : SpaceBy → Nat × Nat
  | .girths k => spaceGirths s n k
  | .marks k => spaceMarks s n k moved g

/-- A SPACE has moved its saddle's read position (R199). -/
def spacedTo (n : SadNo) (g d : Nat) (s : State) : State := modSad (restAt s d) n fun x => { x with readPos := g }

theorem spaceDone_saddle {ch : Chan} {sad : Option SadNo} {n : SadNo} (h : targetOf ch sad = some n) (b : SpaceBy) (t dsn moved : Nat)
    (g : Option Nat) (s : State) : spaceDone ch sad b t dsn moved g s =
      okWith (spacedTo n (spaceEnd s n moved g b).1 (spaceDs s n (spaceEnd s n moved g b).1 dsn) s) ch t
        ([fnum "girth" (spaceEnd s n moved g b).1] ++
          posFields (spacedTo n (spaceEnd s n moved g b).1 (spaceDs s n (spaceEnd s n moved g b).1 dsn) s) (spaceDs s n (spaceEnd s n moved g b).1 dsn) ++
          (if (spaceEnd s n moved g b).2 = 0 then [] else [fnum "short" (spaceEnd s n moved g b).2])) := by
  cases ch with
  | adm =>
    rw [show sad = some n from h]
    cases b <;> rfl
  | sad m =>
    rw [show m = n from Option.some.inj h]
    cases b <;> rfl

/-- The tape rests for the command that it moved for (R377). -/
theorem tapePositioned_locate {s : State} {ch : Chan} {t : Nat} {e : Entry} {sad : Option SadNo} {x : LocTarget}
    (hm : s.cart.motion = some (.seek ch (some t))) (he : entryOf s ch t = some e) (hn : e.ended = none) (hv : e.verb = .locate sad x)
    (dsn probes moved : Nat) (g : Option Nat) : tapePositioned ch dsn probes moved g s = locateDone ch sad x t dsn probes (endMotion s) := by
  have he' : entryOf (endMotion s) ch t = some e := by cases ch <;> exact he
  unfold tapePositioned
  rw [hm]
  dsimp only
  rw [if_pos (beq_self_eq_true ch), he']
  dsimp only
  rw [if_neg (by simp [Entry.open_, hn]), hv]

theorem tapePositioned_space {s : State} {ch : Chan} {t : Nat} {e : Entry} {sad : Option SadNo} {b : SpaceBy}
    (hm : s.cart.motion = some (.seek ch (some t))) (he : entryOf s ch t = some e) (hn : e.ended = none) (hv : e.verb = .space sad b)
    (dsn probes moved : Nat) (g : Option Nat) : tapePositioned ch dsn probes moved g s = spaceDone ch sad b t dsn moved g (endMotion s) := by
  have he' : entryOf (endMotion s) ch t = some e := by cases ch <;> exact he
  unfold tapePositioned
  rw [hm]
  dsimp only
  rw [if_pos (beq_self_eq_true ch), he']
  dsimp only
  rw [if_neg (by simp [Entry.open_, hn]), hv]

/-- The tape rests before a data set for a command of a channel, whose entry is as it was. -/
def Rested (s u : State) (d : Nat) : Prop :=
  u.cart.motion = none ∧ u.rd.wrap = wrapOfDsn s d ∧ u.rd.stopped = true ∧ u.rd.reading = false ∧ u.srv.lost = false ∧
    u.med.positioned = false ∧ u.cfg = s.cfg ∧ u.med.wrapFirst = s.med.wrapFirst ∧ ∀ ch t, entryOf u ch t = entryOf s ch t

theorem restAt_rested (s : State) (d : Nat) : Rested s (restAt (endMotion (quiet s)) d) d ∧ (restAt (endMotion (quiet s)) d).sad = s.sad := by
  obtain ⟨m, r, v, e, p, q, hx, ⟨k, hm⟩, h1, h2, h3, h4, h5, h6⟩ := restAt_eq (endMotion (quiet s)) d
  rw [hx]
  refine ⟨⟨rfl, h1, h2, h3, h6, by rw [hm], rfl, by rw [hm]; rfl, fun ch t => ?_⟩, rfl⟩
  cases ch <;> rfl

theorem Rested.setLoc {s u : State} {d : Nat} (h : Rested s u d) (a b : Nat) : Rested s (setLoc u a b) d := by
  obtain ⟨h1, h2, h3, h4, h5, h6, h7, h8, h9⟩ := h
  refine ⟨h1, h2, h3, h4, h5, h6, h7, h8, fun ch t => ?_⟩
  rw [← h9]
  cases ch <;> rfl

theorem Rested.modSad {s u : State} {d : Nat} (h : Rested s u d) (n : SadNo) {f : Saddle → Saddle} (hf : ∀ x, (f x).q = x.q) :
    Rested s (modSad u n f) d := by
  obtain ⟨h1, h2, h3, h4, h5, h6, h7, h8, h9⟩ := h
  refine ⟨h1, h2, h3, h4, h5, h6, h7, h8, fun ch t => ?_⟩
  rw [← h9]
  cases ch with
  | adm => rfl
  | sad m =>
    refine entryOf_congr (ch := .sad m) ?_ t
    show (Machine.modSad u n f).sad[m].q = u.sad[m].q
    rw [modSad_get]
    split
    · next hm => rw [hf, hm]
    · rfl

/-- The fields of a place are those of the tape before the motion. -/
theorem Rested.posFields {s u : State} {d : Nat} (h : Rested s u d) (k : Nat) : posFields u k = posFields s k := by
  obtain ⟨-, -, -, -, -, -, -, h8, -⟩ := h
  unfold Machine.posFields estOfDsn wrapOfDsn
  rw [h8]

/-- A command that the tape moved for has ended with the tape at rest before a data set. -/
def RestsWith (c : Instr) (s : State) (ch : Chan) (t d : Nat) (o : Outc) (s' : State) : Prop :=
  exec c s = .next s' ∧ EndedWith s' ch t o ∧ s'.cart.motion = none ∧ s'.rd.wrap = wrapOfDsn s d ∧ s'.rd.stopped = true ∧
    s'.rd.reading = false ∧ s'.srv.lost = false ∧ s'.med.positioned = false ∧ s'.cfg = s.cfg

/-- What TAPE_POSITIONED leaves where it completes its command with the tape at rest. -/
theorem restsWith {s u : State} {ch : Chan} {t d dsn probes moved : Nat} {g : Option Nat} {e : Entry} {o : Outc} (hl : live s = true)
    (hb : bandUsable s = true) (he : entryOf s ch t = some e) (hn : e.ended = none) (hr : Rested s u d)
    (hx : tapePositioned ch dsn probes moved g (quiet s) = complete u ch t o) :
    ∃ s', RestsWith (.tapePositioned ch dsn probes moved g) s ch t d o s' ∧ s'.rd = u.rd ∧
      ∀ n : SadNo, s'.sad[n].readPos = u.sad[n].readPos ∧ s'.sad[n].posLost = u.sad[n].posLost := by
  obtain ⟨h1, h2, h3, h4, h5, h6, h7, -, h9⟩ := hr
  have hs := actIf_live hl hb (tapePositioned ch dsn probes moved g)
  have hend := complete_ended ((h9 ch t).trans he) hn o
  obtain ⟨q, hq⟩ := complete_withQueue u ch t o
  rw [hx, hq] at hs
  rw [hq] at hend
  have hsad (n : SadNo) : (withQueue u ch q).sad[n].readPos = u.sad[n].readPos ∧ (withQueue u ch q).sad[n].posLost = u.sad[n].posLost := by
    obtain ⟨r, hr⟩ := withQueue_saddle u ch q n
    rw [hr]
    exact ⟨rfl, rfl⟩
  have hend' : EndedWith { withQueue u ch q with clk := s.clk, pending := s.pending } ch t o := by cases ch <;> exact hend
  refine ⟨_, ⟨hs, hend', ?_⟩, ?_, hsad⟩
  · cases ch <;> exact ⟨h1, h2, h3, h4, h5, h6, h7⟩
  · cases ch <;> rfl

theorem seekRested_rested (s : State) (d how probes : Nat) : Rested s (seekRested d how probes (endMotion (quiet s))) d :=
  (restAt_rested s d).1.setLoc how probes

theorem readAt_rested (n : SadNo) (g : Nat) (s : State) (d how probes : Nat) :
    Rested s (readAt n g (seekRested d how probes (endMotion (quiet s)))) d :=
  (seekRested_rested s d how probes).modSad n fun _ => rfl

theorem spacedTo_rested (n : SadNo) (g d : Nat) (s : State) : Rested s (spacedTo n g d (endMotion (quiet s))) d :=
  (restAt_rested s d).1.modSad n fun _ => rfl

/-- A LOCATE of a saddle that comes to rest (R162, R189). -/
theorem locate_rests {s : State} {ch : Chan} {t dsn probes moved : Nat} {g : Option Nat} {e : Entry} {n : SadNo} {x d how k : Nat}
    (hl : live s = true) (hb : bandUsable s = true) (he : entryOf s ch t = some e) (hn : e.ended = none)
    (hx : tapePositioned ch dsn probes moved g (quiet s) = locateAt ch (some n) x d how k t (endMotion (quiet s))) :
    ∃ s', RestsWith (.tapePositioned ch dsn probes moved g) s ch t d
        { status := .ok, fields := [fnum "girth" x] ++ posFields s d ++ [fld "how" (howName how)] } s' ∧
      s'.sad[n].readPos = x ∧ s'.sad[n].posLost = false ∧ s'.rd.locMethod = how ∧ s'.rd.locProbes = min 255 k := by
  have hr := readAt_rested n x s d how k
  rw [locateAt_saddle, hr.posFields] at hx
  obtain ⟨s', h, hrd, hsad⟩ := restsWith hl hb he hn hr hx
  have hget : (readAt n x (seekRested d how k (endMotion (quiet s)))).sad[n] = _ := (modSad_get _ n n _).trans (if_pos rfl)
  obtain ⟨h1, h2⟩ := hsad n
  exact ⟨s', h, h1.trans (congrArg Saddle.readPos hget), h2.trans (congrArg Saddle.posLost hget), congrArg ReadCh.locMethod hrd, congrArg ReadCh.locProbes hrd⟩

/-- A LOCATE of no saddle that comes to rest (R189). -/
theorem locate_rests_none {s : State} {ch : Chan} {t dsn probes moved : Nat} {g : Option Nat} {e : Entry} {x d how k : Nat}
    (hl : live s = true) (hb : bandUsable s = true) (he : entryOf s ch t = some e) (hn : e.ended = none)
    (hx : tapePositioned ch dsn probes moved g (quiet s) = locateAt ch none x d how k t (endMotion (quiet s))) :
    ∃ s', RestsWith (.tapePositioned ch dsn probes moved g) s ch t d { status := .ok, fields := posFields s d } s' ∧
      s'.rd.locMethod = how ∧ s'.rd.locProbes = min 255 k := by
  have hr := seekRested_rested s d how k
  rw [locateAt_none, hr.posFields] at hx
  obtain ⟨s', h, hrd, -⟩ := restsWith hl hb he hn hr hx
  exact ⟨s', h, congrArg ReadCh.locMethod hrd, congrArg ReadCh.locProbes hrd⟩

/-- A SPACE that comes to rest (R199). -/
theorem space_rests {s : State} {ch : Chan} {t dsn probes moved : Nat} {g : Option Nat} {e : Entry} {sad : Option SadNo} {n : SadNo} {b : SpaceBy}
    {r : Nat × Nat} (hl : live s = true) (hb : bandUsable s = true) (hm : s.cart.motion = some (.seek ch (some t))) (he : entryOf s ch t = some e)
    (hn : e.ended = none) (hw : targetOf ch sad = some n) (hv : e.verb = .space sad b) (hr : spaceEnd s n moved g b = r) :
    ∃ s', RestsWith (.tapePositioned ch dsn probes moved g) s ch t (spaceDs s n r.1 dsn)
        { status := .ok, fields := [fnum "girth" r.1] ++ posFields s (spaceDs s n r.1 dsn) ++ (if r.2 = 0 then [] else [fnum "short" r.2]) } s' ∧
      s'.sad[n].readPos = r.1 := by
  have hx := (tapePositioned_space (s := quiet s) hm ((quiet_entryOf s ch t).trans he) hn hv dsn probes moved g).trans
    (spaceDone_saddle hw b t dsn moved g (endMotion (quiet s)))
  have hend : spaceEnd (endMotion (quiet s)) n moved g b = r := by
    rw [← hr]
    cases b <;> rfl
  have hds : spaceDs (endMotion (quiet s)) n r.1 dsn = spaceDs s n r.1 dsn := rfl
  rw [hend, hds] at hx
  have hrest := spacedTo_rested n r.1 (spaceDs s n r.1 dsn) s
  rw [hrest.posFields] at hx
  obtain ⟨s', h, -, hsad⟩ := restsWith hl hb he hn hrest hx
  have hget : (spacedTo n r.1 (spaceDs s n r.1 dsn) (endMotion (quiet s))).sad[n] = _ := (modSad_get _ n n _).trans (if_pos rfl)
  exact ⟨s', h, (hsad n).1.trans (congrArg Saddle.readPos hget)⟩

/-- Settles O40: the starts by what is in the buffer or in the way, the ends by the tape's rest before the data set found. -/
theorem locateAndSpace : Obligations.LocateAndSpace := by
  refine ⟨fun s ch t g sad n hw h => ⟨fun h1 => ?_, fun h1 d hd => ?_, fun h1 hd => ?_⟩, fun s ch t sad x hx h => ?_, fun s ch t sad b h => ?_,
    fun s ch t dsn probes moved g e hl hb hm he hn => ?_, fun s n k h1 h2 => ?_, fun s ch dsn probes moved g hl h => ?_⟩
  · have hnext := withQueue_next (quiet s) ch (begunQueue s ch t) n
    refine endsOnly_of_verbRow (body := locateAsk ch sad (.girth g)) rfl h ?_
    rw [locateAsk_girth hw, locateGirth_past (by rw [hnext]; exact h1), hnext]
    rfl
  · have hnext := withQueue_next (quiet s) ch (begunQueue s ch t) n
    have hbuf := (inBuffer_withQueue (quiet s) ch (begunQueue s ch t) n g).trans hd
    refine ⟨bufDs s d, bufLocated n g d (quiet s), endsAs_of_verbRow (body := locateAsk ch sad (.girth g)) rfl h ?_ rfl rfl,
      fun x hx => by rw [bufDs, hx]; rfl, rfl⟩
    rw [locateAsk_girth hw, locateGirth_buffered (by rw [hnext]; exact h1) hbuf, bufLocated_withQueue]
    cases ch <;> rfl
  · have hnext := withQueue_next (quiet s) ch (begunQueue s ch t) n
    have hbuf := (inBuffer_withQueue (quiet s) ch (begunQueue s ch t) n g).trans hd
    exact seeks_of_verbRow (body := locateAsk ch sad (.girth g)) rfl h
      ((locateAsk_girth hw g t _).trans (locateGirth_seeks (by rw [hnext]; exact h1) hbuf ch t))
  · exact seeks_of_verbRow (body := locateAsk ch sad x) rfl h (locateAsk_other hx ch sad t _)
  · exact seeks_of_verbRow (body := seekAsk ch) rfl h rfl
  · have hq := (quiet_entryOf s ch t).trans he
    have hloc {sad : Option SadNo} {x : LocTarget} (hv : e.verb = .locate sad x) :=
      tapePositioned_locate (s := quiet s) hm hq hn hv dsn probes moved g
    refine ⟨fun sad d hv => ?_, fun sad n x hw hv => ?_, fun sad n hw hv => ?_, fun sad n hw hv => ?_, fun sad hw hv => ?_, fun sad hw hv => ?_,
      fun sad n k hw hv => ?_, fun sad n k hw hv => ?_⟩
    · exact locate_rests_none hl hb he hn ((hloc hv).trans (locateDone_ds ch sad d t dsn probes _))
    · exact locate_rests hl hb he hn ((hloc hv).trans (locateDone_girth hw x t dsn probes _))
    · obtain ⟨s', h, h1, h2, -⟩ := locate_rests hl hb he hn ((hloc hv).trans ((locateDone_bot ch sad t dsn probes _).trans (by rw [hw])))
      exact ⟨s', h, h1, h2⟩
    · obtain ⟨s', h, h1, h2, -⟩ := locate_rests hl hb he hn ((hloc hv).trans ((locateDone_eod ch sad t dsn probes _).trans (by rw [hw])))
      exact ⟨s', h, h1, h2⟩
    · obtain ⟨s', h, -⟩ := locate_rests_none hl hb he hn ((hloc hv).trans ((locateDone_bot ch sad t dsn probes _).trans (by rw [hw])))
      exact ⟨s', h⟩
    · obtain ⟨s', h, -⟩ := locate_rests_none hl hb he hn ((hloc hv).trans ((locateDone_eod ch sad t dsn probes _).trans (by rw [hw])))
      exact ⟨s', h⟩
    · exact space_rests hl hb hm he hn hw hv rfl
    · exact space_rests hl hb hm he hn hw hv rfl
  · unfold spaceGirths
    rw [if_neg (by omega), if_neg (by omega)]
  · rcases h with h | h
    · exact actIf_live_disabled hl h (tapePositioned ch dsn probes moved g)
    · by_cases hb : bandUsable s = true
      · refine (actIf_live hl hb (tapePositioned ch dsn probes moved g)).trans ?_
        have hx : tapePositioned ch dsn probes moved g (quiet s) = quiet s := by
          unfold tapePositioned
          rw [show (quiet s).cart.motion = none from h]
        rw [hx]
        rfl
      · exact actIf_live_disabled hl (by simpa using hb) (tapePositioned ch dsn probes moved g)

end Sys2Proof.Machine
end

section
/-! SUPPORT. Rows read back and wedges verified while writing (R19, R300, R309, R311, R317, R320). -/

namespace Sys2Proof.Machine

open Sys2Proof

/-! ### Rows read back (R300, R320) -/

/-- A row's class puts its copies in order and leaves the rows of its data set (R302). -/
theorem queueCopy_rows (w : WDs) (x : Nat × Nat) (k : RCls) (b : Bool) : (queueCopy w x k b).dsn = w.dsn ∧ (queueCopy w x k b).rows = w.rows := by
  cases k <;> exact ⟨rfl, rfl⟩

/-- Counting a row changes one channel, and of its FAIL rows those of the class (R308, R320). -/
theorem countRow_eq (s : State) (c : ChNo) (k : RCls) (o : VerifyObs) : ∃ x, countRow s c k o = modWCh s c (fun _ => x) ∧
    x.failRows = if k == .fail then sat 16 (s.med.ch[c].failRows + 1) else s.med.ch[c].failRows := ⟨_, rfl, rfl⟩

/-- The class of a row in its slot (R300). -/
def slotClass (s : State) (w : WDs) (c : ChNo) (r : Nat) (o : VerifyObs) : RCls :=
  rowClass s { dsn := w.dsn, sds := sdsOnChan c.val r, rkind := 0, row := r, sad := w.ds.sad.val, wrap := w.wrap, chan := c.val, slotpos := r } o

/-- The record of a row that was read back (R300). -/
def rowRead (c : ChNo) (r : Nat) (k : RCls) : RowRec := { sds := sdsOnChan c.val r, row := r, ch := c, cls := k, secured := k != .fail }

/-- A data set with one more of its rows read back (R300, R302, R320). -/
def slotNoted (s : State) (c : ChNo) (r : Nat) (k : RCls) (w : WDs) : WDs :=
  queueCopy { w with
    rows := w.rows ++ [rowRead c r k], seen := w.seen + 1
    failsOn := if k == .fail && !s.med.inh.inhibited then put c ((look c w.failsOn).getD 0 + 1) w.failsOn else w.failsOn }
    (sdsOnChan c.val r, r) k false

theorem slotNoted_rows (s : State) (c : ChNo) (r : Nat) (k : RCls) (w : WDs) :
    (slotNoted s c r k w).dsn = w.dsn ∧ (slotNoted s c r k w).rows = w.rows ++ [rowRead c r k] := queueCopy_rows _ _ _ _

theorem verifySlot_eq (s : State) (w : WDs) (c : ChNo) (r : Nat) (o : VerifyObs) : verifySlot s w c r o =
    modWritten (countRow s c (slotClass s w c r o) o) w.dsn (slotNoted s c r (slotClass s w c r o)) := rfl

theorem rowVerify_slot {s : State} {c : ChNo} {r : Nat} {w : WDs} (hr : r < 120) (h : verifyTarget s c r = some w) (o : VerifyObs) :
    rowVerify c r o s = verifySlot s w c r o := by
  unfold rowVerify
  rw [h]
  exact if_pos hr

theorem rowVerify_none {s : State} {c : ChNo} {r : Nat} (h : verifyTarget s c r = none) (o : VerifyObs) : rowVerify c r o s = s := by
  unfold rowVerify
  rw [h]

/-! ### Wedges while writing (R309, R311, R317) -/

/-- In STREAM a cause that is present inhibits writing, whatever was before (R311, R313). -/
theorem guardScan_inhibits {s : State} {k : Nat} (hm : s.pw.mode = .stream) (hk : k < 5) (hc : causeNow s k = true) :
    (guardScan s).med.inh.inhibited = true := by
  have hne := causesHeld_ne_nil hk hc
  cases hi : s.med.inh.inhibited with
  | false =>
    obtain ⟨m, v, p, d, a, hx, -, hn⟩ := guardScan_trips (s := s) (by simp [guardTrips, hm, hi, hne])
    rw [hx]
    exact congrArg Inhibit.inhibited hn
  | true =>
    obtain ⟨v, p, hx⟩ := guardScan_stays (s := s) (by simp [guardTrips, hi])
    rw [hx]
    exact hi

/-- The runs of wrong identities with one more, unless the cause still holds (R311). -/
def identRuns (s : State) : Nat := if (look 3 s.med.inh.holds).isSome then s.med.inh.identRun else s.med.inh.identRun + 1

/-- A wrong identity is a cause of the guard's; at the limit it latches (R311, R317). -/
def identWrong (run : Nat) (s : State) : State := { s with med := { s.med with inh := { s.med.inh with
  ident := true, identRun := run, latch := s.med.inh.latch || decide (pnat s .identMax ≤ run) } } }

/-- The data set that a wedge belongs to: the one on the lanes, or the next. -/
def laneDs (s : State) : Nat := match s.med.lane with
  | .frame d => d
  | .idle => s.med.append

/-- A wrong identity is logged where the cause is new (R311). -/
def identLogged (s : State) (c : ChNo) (i : Nat) : State :=
  if (look 3 s.med.inh.holds).isSome then s else logE s .error srcChip 0x0402 [("ident", 2, i), ("ch", 1, c.val), ("ds", 4, laneDs s)]

theorem identLogged_eq (s : State) (c : ChNo) (i : Nat) : ∃ v p, identLogged s c i = { s with evt := v, pcie := p } := by
  unfold identLogged
  split
  · exact ⟨_, _, rfl⟩
  · exact logE_chip s _ _ _ _

theorem verifyWedge_wrong {s : State} {c : ChNo} {l : List Bool} {i : Nat} (h : readIdent l = some i) (hi : i ≠ trackIdent s.med.wrap c.val)
    (a b : Nat) : verifyWedge c l a b s = guardScan (identWrong (identRuns s) (identLogged s c i)) := by
  unfold verifyWedge
  rw [h]
  dsimp only
  rw [if_neg hi]
  rfl

/-- A wedge with the right identity, or with none that reads, gives its offset to the loop (R309). -/
theorem verifyWedge_right {s : State} {c : ChNo} {l : List Bool} (h : ∀ i, readIdent l = some i → i = trackIdent s.med.wrap c.val)
    (h1 : s.med.inh.inhibited = false) (h2 : (chansOut s).contains c.val = false) (a b : Nat) : verifyWedge c l a b s =
      { s with med := { s.med with delta := s.med.delta ++ [(c,
        wedgeDelta s (if slotOfWrap s.med.wrap % 2 = 1 then b else a) (if slotOfWrap s.med.wrap % 2 = 1 then a else b))] } } := by
  have hc : ¬ (s.med.inh.inhibited || (chansOut s).contains c.val) = true := by
    rw [h1, h2]
    exact Bool.false_ne_true
  unfold verifyWedge
  cases hr : readIdent l with
  | none =>
    dsimp only
    rw [if_neg hc]
    split <;> rfl
  | some i =>
    dsimp only
    rw [if_pos (h i hr)]
    dsimp only
    rw [if_neg hc]
    split <;> rfl

/-- A row has gone through the verify detector (R19). -/
def verifyUsed (s : State) : State := { s with used := { s.used with verify := s.used.verify + 1 } }

theorem exec_rowVerify (c : ChNo) (r : Nat) (o : VerifyObs) (s : State) : exec (.rowVerify c r o) s =
    actIf s (s.used.verify < budget s 256) fun s => rowVerify c r o (verifyUsed s) := rfl

/-- Settles O50: a row by the data set that waits for it, a wedge by its identity. -/
theorem verification : Obligations.Verification := by
  refine ⟨fun s c r o w hl hu hr hw => ?_, fun s c r o hl hu hw => ?_, fun s c r o hl hu => ?_, fun s c l a b i hl hm h hi => ?_,
    fun s c l a b hl hm h h1 h2 => ?_, fun s c l a b hl hm => ?_⟩
  · intro cls
    have hs := (exec_rowVerify c r o s).trans (actIf_live hl (decide_eq_true hu) _)
    obtain ⟨x, hx, hf⟩ := countRow_eq (verifyUsed (quiet s)) c cls o
    have hv : rowVerify c r o (verifyUsed (quiet s)) = modWritten (modWCh (verifyUsed (quiet s)) c fun _ => x) w.dsn
        (slotNoted (verifyUsed (quiet s)) c r cls) := by
      rw [rowVerify_slot (s := verifyUsed (quiet s)) hr hw, verifySlot_eq, ← hx]
      rfl
    rw [hv] at hs
    obtain ⟨h1, h2⟩ := slotNoted_rows (verifyUsed (quiet s)) c r cls w
    have hmem : slotNoted (verifyUsed (quiet s)) c r cls w ∈
        s.med.written.map fun v => if v.dsn = w.dsn then slotNoted (verifyUsed (quiet s)) c r cls v else v :=
      List.mem_map.2 ⟨w, List.mem_of_find?_eq_some hw, if_pos rfl⟩
    have hch : (modWCh (verifyUsed (quiet s)) c fun _ => x).med.ch[c] = x := (modWCh_get _ c c _).trans (if_pos rfl)
    exact ⟨_, _, hs, hmem, h1, h2, (congrArg WCh.failRows hch).trans hf, rfl, List.length_map _, rfl, rfl, rfl⟩
  · rw [exec_rowVerify, actIf_live hl (decide_eq_true hu), rowVerify_none (s := verifyUsed (quiet s)) hw]
    rfl
  · rw [exec_rowVerify]
    exact actIf_live_disabled hl (decide_eq_false (Nat.not_lt.2 hu)) _
  · intro run
    have hs := actIf_live hl (c := s.pw.mode == .stream) (by simp [hm]) (verifyWedge c l a b)
    obtain ⟨v, p, hg⟩ := identLogged_eq (quiet s) c i
    rw [verifyWedge_wrong (s := quiet s) h hi, hg] at hs
    generalize hu : identWrong (identRuns (quiet s)) { quiet s with evt := v, pcie := p } = u at hs
    obtain ⟨m, v', p', d, hx⟩ := guardScan_guard u
    obtain ⟨e, f, g, k, hi'⟩ := guardScan_inh u
    have hin := guardScan_inhibits (s := u) (k := 3) (by rw [← hu]; exact hm) (by decide) (by rw [← hu]; rfl)
    rw [hx] at hs hi' hin
    subst hu
    exact ⟨_, hs, hin, (congrArg Inhibit.ident hi' :), (congrArg Inhibit.identRun hi' :), (congrArg Inhibit.latch hi' :), rfl, rfl⟩
  · exact (actIf_live hl (c := s.pw.mode == .stream) (by simp [hm]) (verifyWedge c l a b)).trans (by
      rw [verifyWedge_right (s := quiet s) h h1 h2]
      rfl)
  · exact actIf_live_disabled hl (c := s.pw.mode == .stream) (by simpa using hm) (verifyWedge c l a b)

end Sys2Proof.Machine
end

section
/-! SUPPORT. Data-set boundaries and plait epochs (R87-R89, R94, R275, R284-R286, R296). -/

namespace Sys2Proof.Machine

open Sys2Proof

/-! ### The caddies of a data set (R214, R220, R224) -/

theorem takeRef_pool (s : State) (i : Nat) (h : Holder) : ∃ q, takeRef s i h = { s with pool := q } := by
  obtain ⟨q, hq⟩ := useOp_pool s
  unfold takeRef
  rw [hq]
  exact ⟨_, rfl⟩

theorem foldl_takeRef_pool (h : Holder) (l : List Nat) (s : State) : ∃ q, l.foldl (fun s i => takeRef s i h) s = { s with pool := q } := by
  refine foldl_keeps (fun t => ∃ q, t = { s with pool := q }) _ ?_ l s ⟨_, rfl⟩
  rintro _ i ⟨q, rfl⟩
  obtain ⟨q', h⟩ := takeRef_pool { s with pool := q } i h
  exact ⟨q', h⟩

/-- A returned caddy writes the pool; a return that is refused is logged (R225). -/
theorem releaseOne_eq (s : State) (r : Release) : ∃ q v p, releaseOne s r = { s with pool := q, evt := v, pcie := p } := by
  unfold releaseOne
  split
  · exact ⟨_, _, _, rfl⟩
  · obtain ⟨v, p, h⟩ := logE_chip { s with pool := { s.pool with badret := inc s.pool.badret } } .error 0x0301
      [("addr", 8, r.addr), ("engine", 1, r.holder.code), ("check", 1, returnCheck s r)] none
    exact ⟨_, v, p, h⟩

/-- A caddy that only read-ahead holds (R349). -/
def raCaddy (c : Caddy) : Bool := c.owner == some ownRa && c.holders.length = 1

/-- Nothing can be reclaimed exactly where no caddy is read-ahead's alone. -/
theorem reclaimable_none {s : State} : reclaimable s = none ↔ ∀ c ∈ s.pool.caddies, raCaddy c = false := by
  have hsome : ∀ (l : List Caddy) (d : Caddy), (l.foldl (fun (b : Option Caddy) c => match b with
      | none => some c
      | some d => if c.ptc < d.ptc then some c else some d) (some d)) ≠ none := by
    intro l
    induction l with
    | nil => exact fun d => Option.some_ne_none d
    | cons c l ih =>
      intro d
      rw [List.foldl_cons]
      dsimp only
      split
      · exact ih c
      · exact ih d
  have hf : reclaimable s = none ↔ s.pool.caddies.filter raCaddy = [] := by
    unfold reclaimable
    change List.foldl _ none (s.pool.caddies.filter raCaddy) = none ↔ _
    generalize s.pool.caddies.filter raCaddy = l
    cases l with
    | nil => exact ⟨fun _ => rfl, fun _ => rfl⟩
    | cons c l => exact ⟨fun h => absurd h (hsome l c), fun h => absurd h (List.cons_ne_nil c l)⟩
  rw [hf, List.filter_eq_nil_iff]
  exact forall₂_congr fun c _ => by rw [Bool.not_eq_true]

theorem mem_caddyInsert {c d : Caddy} {l : List Caddy} (h : d ∈ caddyInsert c l) : d = c ∨ d ∈ l := by
  induction l with
  | nil => exact .inl (List.mem_singleton.1 h)
  | cons e l ih =>
    unfold caddyInsert at h
    split at h
    · exact List.mem_cons.1 h
    · rcases List.mem_cons.1 h with h | h
      · exact .inr (h ▸ List.mem_cons_self)
      · exact (ih h).imp_right (List.mem_cons_of_mem e)

theorem allocate_noRa {s t : State} {i : Nat} (h : allocate s ownMedia = some (i, t)) (hn : reclaimable s = none) : reclaimable t = none := by
  unfold allocate at h
  dsimp only at h
  split at h
  · split at h
    · rw [reclaimable_none] at hn ⊢
      intro c hc
      rw [← (Prod.mk.inj (Option.some.inj h)).2] at hc
      rcases mem_caddyInsert hc with rfl | hc
      · rfl
      · exact hn c hc
    · exact absurd h (Option.some_ne_none _).symm
  · exact absurd h (Option.some_ne_none _).symm

theorem useOp_noRa {s : State} (h : reclaimable s = none) : reclaimable (useOp s) = none := by
  rw [reclaimable_none] at h ⊢
  unfold useOp
  split <;> exact h

/-- One state differs from another in the pool and the event log at most, and not in the log while nothing can be reclaimed. -/
def CadsOnly (s t : State) : Prop := ∃ q v p, t = { s with pool := q, evt := v, pcie := p } ∧
  (reclaimable s = none → v = s.evt ∧ reclaimable t = none)

theorem CadsOnly.refl (s : State) : CadsOnly s s := ⟨_, _, _, rfl, fun h => ⟨rfl, h⟩⟩

theorem CadsOnly.trans {s t u : State} (h : CadsOnly s t) (g : CadsOnly t u) : CadsOnly s u := by
  obtain ⟨q, v, p, rfl, hn⟩ := h
  obtain ⟨q', v', p', rfl, hn'⟩ := g
  refine ⟨q', v', p', rfl, fun h => ?_⟩
  obtain ⟨h1, h2⟩ := hn h
  obtain ⟨h3, h4⟩ := hn' h2
  exact ⟨h3.trans h1, h4⟩

theorem useOp_cadsOnly (s : State) : CadsOnly s (useOp s) := by
  obtain ⟨q, h⟩ := useOp_pool s
  exact ⟨q, _, _, h, fun hn => ⟨rfl, useOp_noRa hn⟩⟩

theorem allocateReclaim_cadsOnly {s t : State} {i u : Nat} (h : allocateReclaim s ownMedia = some (i, t, u)) : CadsOnly s t := by
  unfold allocateReclaim at h
  split at h
  · next j r ha =>
    obtain ⟨q, hq⟩ := allocate_pool ha
    obtain rfl : r = t := (Prod.mk.inj (Prod.mk.inj (Option.some.inj h)).2).1
    exact ⟨q, _, _, hq, fun hn => ⟨rfl, allocate_noRa ha hn⟩⟩
  · split at h
    · split at h
      · next c hc =>
        obtain ⟨⟨j, r⟩, ha, hr⟩ := Option.map_eq_some_iff.1 h
        obtain ⟨q, v, p, hx⟩ := releaseOne_eq s { addr := c.idx * 65536, holder := .owner ownRa }
        rw [hx] at ha
        obtain ⟨q', hq⟩ := allocate_pool ha
        obtain rfl : r = t := (Prod.mk.inj (Prod.mk.inj hr).2).1
        exact ⟨q', v, p, hq, fun hn => absurd (hn.symm.trans hc) (Option.some_ne_none c).symm⟩
      · exact absurd h (Option.some_ne_none _).symm
    · exact absurd h (Option.some_ne_none _).symm

theorem fillCads_cadsOnly : ∀ (k : Nat) (s : State) (l : List Nat), CadsOnly s (fillCads k s l).1
  | 0, s, l => .refl s
  | k + 1, s, l => by
    unfold fillCads
    split
    · next i t u h =>
      have ht := allocateReclaim_cadsOnly h
      refine CadsOnly.trans ?_ (fillCads_cadsOnly k _ _)
      split
      · exact ht.trans (useOp_cadsOnly t)
      · exact (ht.trans (useOp_cadsOnly t)).trans (useOp_cadsOnly _)
    · exact .refl s

/-- A data set that goes onto the lanes has its caddies, and each its reference (R214, R224). -/
theorem takeCads_eq (s : State) (d : DataSet) : ∃ q v p l, takeCads s d = ({ s with pool := q, evt := v, pcie := p }, { d with cads := l, used := true }) ∧
    (d.kind = .data → l = d.cads) ∧ (d.kind = .data ∨ reclaimable s = none → v = s.evt) := by
  have hcads : ∃ q v p l, (if d.kind == .data then (s, d.cads) else fillCads (64 - d.cads.length) s d.cads) =
      ({ s with pool := q, evt := v, pcie := p }, l) ∧ (d.kind = .data → l = d.cads) ∧ (d.kind = .data ∨ reclaimable s = none → v = s.evt) := by
    split
    · exact ⟨_, _, _, _, rfl, fun _ => rfl, fun _ => rfl⟩
    · next h =>
      have hk : d.kind ≠ .data := by simpa using h
      obtain ⟨q, v, p, hx, hn⟩ := fillCads_cadsOnly (64 - d.cads.length) s d.cads
      exact ⟨q, v, p, _, Prod.ext hx rfl, fun h => absurd h hk, fun h => (hn (h.resolve_left hk)).1⟩
  obtain ⟨q, v, p, l, hx, hl, hv⟩ := hcads
  unfold takeCads
  rw [hx]
  dsimp only
  split
  · exact ⟨q, v, p, l, rfl, hl, hv⟩
  · obtain ⟨q', h⟩ := foldl_takeRef_pool .media l { s with pool := q, evt := v, pcie := p }
    rw [h]
    exact ⟨q', v, p, l, rfl, hl, hv⟩

/-! ### Frames (R275, R286, R296) -/

/-- What the start of a frame writes: the data set with its place, at the append point (R275, R286, R296, R386). -/
theorem startFrame_eq (s : State) (d : DataSet) (j : Nat) : ∃ q v p l w m, startFrame s d j = { s with
      pool := q, evt := v, pcie := p, med := m, cart := { s.cart with tail := tailAfter s { d with cads := l, used := true } } } ∧
    m.lane = .frame s.med.append ∧ m.written = s.med.written ++ [w] ∧ w.dsn = s.med.append ∧ w.slot = j ∧ w.ds = { d with cads := l, used := true } ∧
    m.gates = gatesFor (outNow s) ∧ m.cursor = s.med.cursor ∧ m.plait = s.med.plait ∧ m.next = s.med.next ∧ m.append = s.med.append ∧
    (d.kind = .data → l = d.cads) ∧ (d.kind = .data ∨ reclaimable s = none → v = s.evt) := by
  obtain ⟨q, v, p, l, hx, hl, hv⟩ := takeCads_eq s d
  unfold startFrame
  rw [hx]
  exact ⟨q, v, p, l, _, _, rfl, rfl, rfl, rfl, rfl, rfl, rfl, rfl, rfl, rfl, rfl, hl, hv⟩

/-! ### The slots of a plait (R88, R94, R284, R285) -/

/-- The cursor moves on to the next slot (R88). -/
def cursorOn (s : State) : State :=
  { s with med := { s.med with cursor := (s.med.cursor + 1) % (max 1 s.med.plait.slots.length) } }

/-- An owned slot takes its saddle's oldest closed data set, or is missed (R88, R94). -/
def serveOwner (s : State) (n : SadNo) (j : Nat) : State :=
  if servable s n then
    match takeClosed s n with
    | some (d, s) => writeSlot s n d j true
    | none => missSlot s n j
  else missSlot s n j

theorem serveSlot_owner {s : State} {n : SadNo} (h : s.med.plait.slots[s.med.cursor]? = some (.owner n)) :
    serveSlot s false = serveOwner (cursorOn s) n s.med.cursor := by
  unfold serveSlot
  dsimp only
  rw [List.getD_eq_getElem?_getD, h]
  rfl

theorem serveSlot_fill {s : State} (h : s.med.plait.slots[s.med.cursor]? = some .fill) :
    serveSlot s false = startFrame (cursorOn s) (fillDs (cursorOn s) 0) s.med.cursor := by
  unfold serveSlot
  dsimp only
  rw [List.getD_eq_getElem?_getD, h]
  rfl

/-- A saddle gives its oldest closed data set, which counts (R94). -/
def gives (s : State) (n : SadNo) (l : List DataSet) : State :=
  modSad s n fun x => { x with closed := l, cnt := { x.cnt with slots := x.cnt.slots + 1 } }

theorem takeClosed_head {s : State} {n : SadNo} {d : DataSet} {l : List DataSet} (h : s.sad[n].closed = d :: l) :
    takeClosed s n = some (d, gives s n l) := by
  unfold takeClosed
  dsimp only
  rw [if_neg (by rw [h]; exact Bool.false_ne_true), h]
  rfl

theorem addAnchor_eq (s : State) (n : SadNo) (d : Nat) : ∃ e, addAnchor s n d = { s with med := { s.med with epochs := e } } := ⟨_, rfl⟩

/-- A slot is written as its frame, with an anchor of the epoch where the data set is short (R94, R292). -/
theorem writeSlot_eq (s : State) (n : SadNo) (d : DataSet) (j : Nat) (o : Bool) : ∃ e,
    writeSlot s n d j o = { startFrame s d j with med := { (startFrame s d j).med with epochs := e } } := by
  unfold writeSlot
  dsimp only
  split
  · exact addAnchor_eq _ _ _
  · exact ⟨_, rfl⟩

theorem serveOwner_closed {s : State} {n : SadNo} {d : DataSet} {l : List DataSet} {j : Nat} (hst : s.sad[n].st ≠ .hold)
    (h : s.sad[n].closed = d :: l) : serveOwner s n j = writeSlot (gives s n l) n d j true := by
  have hs : servable s n = true := by
    unfold servable hasClosed
    rw [bne_iff_ne.2 hst, h]
    rfl
  unfold serveOwner
  rw [if_pos hs, takeClosed_head h]

theorem serveOwner_missed {s : State} {n : SadNo} {j : Nat} (h : servable s n = false) : serveOwner s n j = missSlot s n j := by
  unfold serveOwner
  rw [if_neg (by rw [h]; exact Bool.false_ne_true)]

/-- A record of the event log leaves of a saddle all but its latches. -/
theorem logE_saddle (s : State) (sev : Sev) (src code : Nat) (body : List (String × Nat × Nat)) (text : Option String) (n : SadNo) :
    ∃ i, (logE s sev src code body text).sad[n] = { s.sad[n] with irq := i } := by
  unfold logE
  dsimp only
  obtain ⟨v, hv⟩ := stage_eq s { ptc := s.clk.ptc, session := s.clk.session, sev := sev, src := src, code := code, body := body, text := text }
  rw [hv]
  split
  · exact ⟨_, rfl⟩
  · split
    · exact latch_saddle _ _ n 1
    · exact ⟨_, rfl⟩

theorem countPad_eq (s : State) : ∃ r, countPad s = { s with rein := r } := by
  unfold countPad
  split
  · exact ⟨_, rfl⟩
  · exact ⟨_, rfl⟩

/-- A missed slot counts for its saddle (R94). -/
def missCounted (s : State) (n : SadNo) : State := modSad s n fun x => { x with cnt := { x.cnt with miss := inc x.cnt.miss } }

/-- A missed slot takes FILL with its saddle's RATIO, and the miss counts (R94, log 107). -/
theorem missSlot_eq (s : State) (n : SadNo) (j : Nat) : ∃ r v p d e, missSlot s n j =
      (let t := startFrame { s with rein := r, evt := v, pcie := p, sad := d } { fillDs s n with ratio := ratioOf s n } j
       { t with med := { t.med with epochs := e } }) ∧
    d[n].cnt.miss = inc s.sad[n].cnt.miss ∧ d[n].closed = s.sad[n].closed := by
  obtain ⟨r, hr⟩ := countPad_eq s
  have hx : (missCounted { s with rein := r } n).sad[n] = { s.sad[n] with cnt := { s.sad[n].cnt with miss := inc s.sad[n].cnt.miss } } :=
    modSad_get_same ..
  obtain ⟨v, p, d, hl⟩ := logE_eq (missCounted { s with rein := r } n) .warn n.val 0x0201 [] none
  obtain ⟨i, hi⟩ := logE_saddle (missCounted { s with rein := r } n) .warn n.val 0x0201 [] none n
  rw [hl, hx] at hi
  have hd : d[n] = { s.sad[n] with cnt := { s.sad[n].cnt with miss := inc s.sad[n].cnt.miss }, irq := i } := hi
  have hstep : missSlot s n j =
      (let u := logE (missCounted (countPad s) n) .warn n.val 0x0201
       addAnchor (startFrame u { fillDs u n with ratio := ratioOf u n } j) n u.med.append) := rfl
  rw [hstep, hr]
  dsimp only
  rw [hl]
  exact ⟨r, v, p, d, _, rfl, by rw [hd], by rw [hd]⟩

/-! ### What a boundary does (R87, R88, R94) -/

/-- Behind a frame with writing allowed, the boundary serves the cursor's slot while no epoch is due (R88). -/
theorem boundary_serves {s : State} (hl : s.med.lane = .idle) (hs : s.med.stopAfter = false) (ha : s.med.again = none) (hf : s.med.flush = false)
    (hw : mayWrite s = true) (he : epochDue s = false) (hm : s.med.plait.marker.isSome = true) : dataSetBoundary s = serveSlot s false := by
  have hg : giveUpAgain (finishFrame s) = s := by
    rw [finishFrame_idle hl]
    unfold giveUpAgain
    rw [ha]
  have hn : s.med.plait.marker.isNone = false := by rw [← Option.not_isSome, hm]; rfl
  unfold dataSetBoundary
  rw [hg]
  dsimp only
  rw [hs, hw, ha, hf, he, hn]
  rfl

/-- A plait that is due starts its epoch (R87). -/
theorem boundary_starts {s : State} (hl : s.med.lane = .idle) (hs : s.med.stopAfter = false) (ha : s.med.again = none) (hf : s.med.flush = false)
    (hw : mayWrite s = true) {p : Plait} {rest : List (Plait × W64)} (he : epochDue s = true) (hp : takeNext s = some (p, rest)) :
    dataSetBoundary s = startEpoch { s with med := { s.med with next := rest } } p := by
  have hg : giveUpAgain (finishFrame s) = s := by
    rw [finishFrame_idle hl]
    unfold giveUpAgain
    rw [ha]
  unfold dataSetBoundary
  rw [hg]
  dsimp only
  rw [hs, hw, ha, hf, he, hp]
  rfl

theorem takeNext_due {s : State} {p : Plait} {rest : List (Plait × W64)} (h : takeNext s = some (p, rest)) : epochDue s = true := by
  obtain ⟨x, hx, -⟩ := Option.map_eq_some_iff.1 h
  obtain ⟨hm, hd⟩ := List.mem_filter.1 (List.mem_of_getLast? hx)
  exact List.any_eq_true.2 ⟨x, hm, hd⟩

/-- The plait of an epoch that starts is in force at its first slot, and its record is in the cartridge's list (R87, R292). -/
def epochOn (s : State) (p : Plait) (e : List EpochRec) (r : List Byte) : State := { s with
  med := { s.med with plait := { p with marker := some s.med.append }, cursor := 0, epochs := e }
  cart := { s.cart with heldEpochs := s.cart.heldEpochs ++ [r] } }

/-- The epoch's start is the frame of its marker (R87). -/
theorem startEpoch_eq (s : State) (p : Plait) : ∃ e r d, startEpoch s p = startFrame (epochOn s p e r) d 0xFFFF ∧ d.kind = .marker :=
  ⟨_, _, _, rfl, rfl⟩

/-- Where writing is not allowed the boundary ends the frame and no more (R275, R296). -/
theorem boundary_ends {s : State} {d : Nat} (hl : s.med.lane = .frame d) (hs : s.med.stopAfter = false) (ha : s.med.again = none)
    (hm : s.pw.mode ≠ .stream) : dataSetBoundary s = finishFrame s := by
  obtain ⟨l, q, r, x, p, e, f, g, hx⟩ := finishFrame_frame hl
  have hg : giveUpAgain (finishFrame s) = finishFrame s := by
    rw [hx]
    unfold giveUpAgain
    rw [show _ = none from ha]
  have hsa : (finishFrame s).med.stopAfter = false := by rw [hx]; exact hs
  have hw : mayWrite (finishFrame s) = false := by
    have hmode : (finishFrame s).pw.mode ≠ .stream := by rw [hx]; exact hm
    simp [mayWrite, hmode]
  unfold dataSetBoundary
  rw [hg]
  dsimp only
  rw [hsa, hw]
  rfl

/-- Settles O48: a boundary is the slot at the cursor, the frame's end or the epoch's start; each starts at most one frame. -/
theorem dataSetBoundaries : Obligations.DataSetBoundary := by
  refine ⟨fun s hl h1 h2 h3 h4 h5 h6 h7 => ⟨fun n d l h hst hc => ?_, fun n h hn => ?_, fun h => ?_⟩, fun s d w hl h1 h2 h3 h4 h5 => ?_,
    fun s p rest hl h1 h2 h3 h4 h5 h => ?_⟩
  · have hs := act_live hl dataSetBoundary
    have hb := boundary_serves (s := quiet s) h1 h2 h3 h4 h5 h6 h7
    rw [hb, serveSlot_owner (s := quiet s) h, serveOwner_closed (s := cursorOn (quiet s)) hst hc] at hs
    obtain ⟨e, he⟩ := writeSlot_eq (gives (cursorOn (quiet s)) n l) n d (quiet s).med.cursor true
    obtain ⟨q, v, p, cads, w, m, hf, f1, f2, f3, f4, f5, f6, f7, f8, f9, f10, f11, f12⟩ :=
      startFrame_eq (gives (cursorOn (quiet s)) n l) d (quiet s).med.cursor
    have hx : (gives (cursorOn (quiet s)) n l).sad[n] = { s.sad[n] with closed := l, cnt := { s.sad[n].cnt with slots := s.sad[n].cnt.slots + 1 } } :=
      modSad_get_same ..
    rw [he, hf] at hs
    refine ⟨_, w, hs, f1, f7, f2, f3, f4, f6, fun hk => ⟨?_, ?_⟩, congrArg Saddle.closed hx, congrArg (fun x : Saddle => x.cnt.slots) hx, rfl, rfl⟩
    · rw [f5, f11 hk]
    · change tailAfter _ _ = none
      unfold tailAfter
      dsimp only
      rw [hk]
  · have hs := act_live hl dataSetBoundary
    have hb := boundary_serves (s := quiet s) h1 h2 h3 h4 h5 h6 h7
    rw [hb, serveSlot_owner (s := quiet s) h, serveOwner_missed (s := cursorOn (quiet s)) hn] at hs
    obtain ⟨r, v, p, x, e, he, hm, hc⟩ := missSlot_eq (cursorOn (quiet s)) n (quiet s).med.cursor
    generalize hu : ({ cursorOn (quiet s) with rein := r, evt := v, pcie := p, sad := x } : State) = u at he
    generalize hd : ({ fillDs (cursorOn (quiet s)) n with ratio := ratioOf (cursorOn (quiet s)) n } : DataSet) = d at he
    obtain ⟨q, v', p', cads, w, m, hf, f1, f2, f3, f4, f5, f6, f7, f8, f9, f10, f11, f12⟩ := startFrame_eq u d (quiet s).med.cursor
    rw [he, hf] at hs
    subst hd hu
    exact ⟨_, w, hs, f1, f7, f2, by rw [f5]; rfl, by rw [f5]; rfl, by rw [f5]; rfl, f3, hm, hc, rfl, rfl⟩
  · have hs := act_live hl dataSetBoundary
    have hb := boundary_serves (s := quiet s) h1 h2 h3 h4 h5 h6 h7
    obtain ⟨q, v, p, cads, w, m, hf, f1, f2, f3, f4, f5, f6, f7, f8, f9, f10, f11, f12⟩ :=
      startFrame_eq (cursorOn (quiet s)) (fillDs (cursorOn (quiet s)) 0) (quiet s).med.cursor
    rw [hb, serveSlot_fill (s := quiet s) h, hf] at hs
    exact ⟨_, w, hs, f1, f7, f2, by rw [f5]; rfl, f3, rfl, fun hr => f12 (.inr hr), rfl, rfl⟩
  · have hs := act_live hl dataSetBoundary
    obtain ⟨l, q, r, x, p, e, f, g, hx⟩ := finishFrame_frame (s := quiet s) h1
    rw [boundary_ends (s := quiet s) h1 h3 h4 h5, hx] at hs
    exact ⟨_, hs, rfl, rfl, rfl, rfl, rfl, rfl⟩
  · have hd := takeNext_due h
    have hs := actIf_live hl (c := epochDue s && !s.med.flush && !s.med.stopAfter && s.med.again.isNone && mayWrite s)
      (by rw [hd, h4, h2, h3, h5]; rfl) dataSetBoundary
    rw [boundary_starts (s := quiet s) h1 h2 h3 h4 h5 hd h] at hs
    obtain ⟨e, r, d, he, hk⟩ := startEpoch_eq { quiet s with med := { (quiet s).med with next := rest } } p
    generalize hu : epochOn { quiet s with med := { (quiet s).med with next := rest } } p e r = u at he
    obtain ⟨q, v, y, cads, w, m, hf, f1, f2, f3, f4, f5, f6, f7, f8, f9, f10, f11, f12⟩ := startFrame_eq u d 0xFFFF
    rw [he, hf] at hs
    subst hu
    refine ⟨_, w, hs, f8, f9, f7, f1, f2, by rw [f5]; exact hk, f3, List.length_append, ?_, rfl, rfl⟩
    change tailAfter _ _ = none
    unfold tailAfter
    dsimp only
    rw [hk]

end Sys2Proof.Machine
end

section
/-! SUPPORT. Acknowledgement of WRITE, MARK and TIME (R145, R146, R149, R203, R222, R250, R388). -/

namespace Sys2Proof.Machine

open Sys2Proof

/-! ### What enters a saddle's stream -/

/-- A girth of its own behind an empty block under fill: the next number is taken, and 4096 bytes more are off tape (R146, R250). -/
theorem pushGirth_eq {s : State} {n : SadNo} (h : s.sad[n].blk.bytes = []) (k : GKind) (c : List Byte) : ∃ p d,
    pushGirth s n k c = { s with pool := p, sad := d } ∧ d[n].next = s.sad[n].next + 1 ∧
    d[n].unsync = s.sad[n].unsync ++ [(s.sad[n].next, 4096)] ∧ d[n].q = s.sad[n].q := by
  obtain ⟨g, hm⟩ : ∃ g, MonOnly (modSad s n fun x => { x with
      acked := x.acked ++ [g], next := x.next + 1, unsync := x.unsync ++ [(s.sad[n].next, 4096)] }) (pushGirth s n k c) := by
    unfold pushGirth
    rw [closeBlk_empty h]
    exact ⟨_, tellMonitors_monOnly _ n _ _⟩
  obtain ⟨⟨p, d, hx⟩, hs⟩ := hm
  obtain ⟨r, l, y, hn⟩ := hs n
  rw [modSad_get, if_pos rfl, hx] at hn
  have hd : d[n].next = s.sad[n].next + 1 ∧ d[n].unsync = s.sad[n].unsync ++ [(s.sad[n].next, 4096)] ∧ d[n].q = s.sad[n].q := by
    rw [show d[n] = _ from hn]
    exact ⟨rfl, rfl, rfl⟩
  exact ⟨p, d, hx, hd⟩

/-- Bytes that enter a saddle's stream change saddles, the pool and the free-value counter, and of the saddle not its queue (R211). -/
theorem feed_bufOnly (n : SadNo) (rec : Bool) : ∀ (k : Nat) (bs : List Byte) (s : State),
    BufOnly s (feed n k bs rec s) ∧ (feed n k bs rec s).sad[n].q = s.sad[n].q
  | 0, _, s => ⟨.refl s, rfl⟩
  | k + 1, bs, s => by
    unfold feed
    extract_lets f b part rest recOff t u
    have ht : BufOnly s t ∧ t.sad[n].q = s.sad[n].q := ⟨(BufOnly.refl s).modSad n _, by
      rw [show t.sad[n] = _ from modSad_get_same ..]
      rfl⟩
    have hu : BufOnly s u ∧ u.sad[n].q = s.sad[n].q := by
      unfold u
      split
      · exact ⟨ht.1.closeBlk n, (closeBlk_saddle t n).2.1.trans ht.2⟩
      · exact ht
    clear_value u
    split
    · exact hu
    · obtain ⟨hf, hq⟩ := feed_bufOnly n rec k rest u
      obtain ⟨d, p, c, rfl⟩ := hu.1
      obtain ⟨d', p', c', hf⟩ := hf
      exact ⟨⟨d', p', c', hf⟩, hq.trans hu.2⟩

/-! ### The commit (R145, R146) -/

/-- A command that commits holds its bytes no longer. -/
def dropBytes (e : Entry) : Entry := { e with data := [], segs := [] }

/-- The start of a commit: the acknowledgement counts, the range-lock entry is released, and the bytes leave the command (R64, R159). -/
def committing (s : State) (n : SadNo) (e : Entry) : State :=
  modEntry (unlock { s with med := { s.med with ackSeq := s.med.ackSeq + 1 } } n e.tag) (.sad n) e.tag dropBytes

theorem committing_entry {s : State} {n : SadNo} {e : Entry} (he : entryOf s (.sad n) e.tag = some e) :
    entryOf (committing s n e) (.sad n) e.tag = some (dropBytes e) := by
  unfold committing
  exact (entryOf_modEntry _ _ _ dropBytes fun _ => rfl).trans (congrArg (Option.map dropBytes) he)

theorem committing_eq (s : State) (n : SadNo) (e : Entry) : ∃ m d q, committing s n e = { s with med := m, sad := d } ∧
    m.locks = (s.med.locks.filter fun l => !(l.1 == n && l.2.1 == e.tag)) ∧ d[n] = { s.sad[n] with q := q } := by
  obtain ⟨q, h⟩ := modEntry_withQueue (unlock { s with med := { s.med with ackSeq := s.med.ackSeq + 1 } } n e.tag) (.sad n) e.tag dropBytes
  exact ⟨_, _, q, h, rfl, Vector.getElem_set_self _⟩

/-- A change of one entry of a saddle changes of the saddle its queue. -/
theorem modEntry_changes {s : State} {n : SadNo} {t : Nat} {x : Entry} (hx : entryOf s (.sad n) t = some x) {f : Entry → Entry}
    (hf : ∀ e, (f e).tag = e.tag) : ∃ d q, modEntry s (.sad n) t f = { s with sad := d } ∧
      entryOf { s with sad := d } (.sad n) t = some (f x) ∧ d[n] = { s.sad[n] with q := q } := by
  obtain ⟨q, h⟩ := modEntry_withQueue s (.sad n) t f
  have he := (entryOf_modEntry s (.sad n) t f hf).trans (congrArg (Option.map f) hx)
  rw [h] at he
  exact ⟨_, q, h, he, Vector.getElem_set_self _⟩

/-- The end of a commit: the command completes, and of its saddle only the queue changes. -/
theorem complete_saddle {s : State} {n : SadNo} {e : Entry} {t : Nat} (he : entryOf s (.sad n) t = some e) (hn : e.ended = none) (o : Outc) :
    ∃ d q, complete s (.sad n) t o = { s with sad := d } ∧ EndedWith { s with sad := d } (.sad n) t o ∧ d[n] = { s.sad[n] with q := q } := by
  obtain ⟨d, q, h, hx, hd⟩ := modEntry_changes he
    (f := fun e => if e.ended.isNone then { e with ended := some o, phase := .committed } else e) (by intro e; split <;> rfl)
  exact ⟨d, q, h, ⟨_, hx, by simp [hn]⟩, hd⟩

/-- A command that ends without a commit, the same way. -/
theorem endWithout_saddle {s : State} {n : SadNo} {e : Entry} {t : Nat} (he : entryOf s (.sad n) t = some e) (hn : e.ended = none) (o : Outc) :
    ∃ d q, endWithout s (.sad n) t o = { s with sad := d } ∧ EndedWith { s with sad := d } (.sad n) t o ∧ d[n] = { s.sad[n] with q := q } := by
  obtain ⟨d, q, h, hx, hd⟩ := modEntry_changes he
    (f := fun e => if e.ended.isNone then { e with ended := some o, data := [] } else e) (by intro e; split <;> rfl)
  exact ⟨d, q, h, ⟨_, hx, by simp [hn]⟩, hd⟩

/-- A MARK or TIME that commits is a girth of its own (R146, R203, R250). -/
theorem committing_pushes {s : State} {n : SadNo} {e : Entry} (hb : s.sad[n].blk.bytes = []) (he : entryOf s (.sad n) e.tag = some e)
    (k : GKind) (c : List Byte) : ∃ p m d, pushGirth (committing s n e) n k c = { s with pool := p, med := m, sad := d } ∧
      entryOf { s with pool := p, med := m, sad := d } (.sad n) e.tag = some (dropBytes e) ∧
      d[n].next = s.sad[n].next + 1 ∧ d[n].unsync = s.sad[n].unsync ++ [(s.sad[n].next, 4096)] := by
  have hc := committing_entry he
  obtain ⟨m, x, q, hx, -, hxn⟩ := committing_eq s n e
  rw [hx] at hc ⊢
  have hxb : x[n].blk.bytes = [] := by
    rw [hxn]
    exact hb
  obtain ⟨p, d, hd, h1, h2, h3⟩ := pushGirth_eq (s := { s with med := m, sad := x }) hxb k c
  refine ⟨p, m, d, hd, (entryOf_congr (s := { s with med := m, sad := x }) (t := { s with pool := p, med := m, sad := d }) (ch := .sad n) h3 _).trans hc,
    ?_, ?_⟩
  · rw [h1]
    change x[n].next + 1 = _
    rw [hxn]
  · rw [h2]
    change x[n].unsync ++ [(x[n].next, 4096)] = _
    rw [hxn]

/-- A MARK's commit answers its girth's number (R146, R250). -/
theorem commitEntry_mark {s : State} {n : SadNo} {e : Entry} {note : String} (hv : e.verb = .mark note) : commitEntry s n e =
    (let u := pushGirth (committing s n e) n .mark (markContent note)
     complete u (.sad n) e.tag { status := .ok, fields := fnum "girth" (u.sad[n].next - 1) :: ewField u n }) := by
  unfold commitEntry
  dsimp only
  rw [hv]
  rfl

/-- A TIME whose girth is in the stream is recorded in the session log and the event log, and answers its pair (R203, R391). -/
def timeDone (u : State) (n : SadNo) (e : Entry) (y : Int) (x : String) : State :=
  let u := timeEvent (heldLogAt u e.startPtc 3 n.val (twos 64 y)) n.val e.startPtc y x
  complete u (.sad n) e.tag { status := .ok, fields := [fnum "ptc" e.startPtc.toNat, fld "sid" (sidStr u.clk.session), fld "where" "TAPE",
    fnum "girth" (u.sad[n].next - 1)] }

theorem commitEntry_time {s : State} {n : SadNo} {e : Entry} {t : Option Int} {x : Option String} (hv : e.verb = .time t x) :
    commitEntry s n e = timeDone (pushGirth (committing s n e) n .time
      (timeContent (t.getD 0) e.startPtc.toNat (committing s n e).clk.session (x.getD ""))) n e (t.getD 0) (x.getD "") := by
  unfold commitEntry timeDone committing dropBytes
  rw [hv]

theorem timeDone_eq {s u : State} (h : u.evt = s.evt) (hc : u.clk.session = s.clk.session) (n : SadNo) (e : Entry) (y : Int) (x : String) :
    timeDone u n e y x = complete { heldLogAt u e.startPtc 3 n.val (twos 64 y) with evt := (timeEvent s n.val e.startPtc y x).evt } (.sad n) e.tag
      { status := .ok, fields := [fnum "ptc" e.startPtc.toNat, fld "sid" (sidStr s.clk.session), fld "where" "TAPE",
        fnum "girth" (u.sad[n].next - 1)] } := by
  unfold timeDone
  rw [timeEvent_eq (u := heldLogAt u e.startPtc 3 n.val (twos 64 y)) h hc, ← hc]
  rfl

/-- A WRITE's commit feeds its bytes to the stream and answers its first girth (R145, R211). -/
theorem commitEntry_write {s : State} {n : SadNo} {e : Entry} {a : WriteArgs} (hv : e.verb = .write a) : ∃ r, commitEntry s n e =
    complete (feed n (e.data.length + 1) e.data a.recEnd (committing s n e)) (.sad n) e.tag
      { status := .ok, fields := fnum "girth" (committing s n e).sad[n].next :: r } := by
  unfold commitEntry
  dsimp only
  rw [hv]
  exact ⟨_, rfl⟩

/-! ### The step -/

theorem acknowledgeOne_of {s : State} {n : SadNo} {e : Entry} (h : oldest s (.sad n) = some e) : acknowledgeOne n s =
    if !landed e || ackBarred s n || unlocked s n e then s
    else if s.med.eom then unlock (endWithout s (.sad n) e.tag { status := .eom }) n e.tag
    else if window s n < unsyncBytes s.sad[n] + ackBytes e.verb then s
    else if !ackRoom s n e then s
    else commitEntry s n e := by
  rw [acknowledgeOne, h]

theorem acknowledgeOne_commits {s : State} {n : SadNo} {e : Entry} (h : oldest s (.sad n) = some e) (hl : landed e = true)
    (hb : ackBarred s n = false) (hu : unlocked s n e = false) (hm : s.med.eom = false)
    (hw : unsyncBytes s.sad[n] + ackBytes e.verb ≤ window s n) (hr : ackRoom s n e = true) : acknowledgeOne n s = commitEntry s n e := by
  rw [acknowledgeOne_of h, hl, hb, hu, hm, hr]
  exact (if_neg Bool.false_ne_true).trans ((if_neg Bool.false_ne_true).trans ((if_neg (Nat.not_lt.2 hw)).trans (if_neg Bool.false_ne_true)))

/-- Settles O44: the order of the step's tests, then the commit of the verb that is the saddle's oldest. -/
theorem acknowledgement : Obligations.Acknowledgement := by
  intro s n e hl ho he
  have hn : e.ended = none := by simpa using List.find?_some ho
  refine ⟨fun h => act_effect hl ((acknowledgeOne_of (s := quiet s) ho).trans (if_pos ?_)) rfl rfl, fun h1 h2 h3 =>
    ⟨fun hm h => act_effect hl ?_ rfl rfl, fun hm hw hr => ?_, fun hm => ?_⟩⟩
  · rcases h with h | h | h
    · rw [h]
      rfl
    · rw [show ackBarred (quiet s) n = true from h]
      simp
    · rw [show unlocked (quiet s) n e = true from h]
      simp
  · have ha := acknowledgeOne_of (s := quiet s) ho
    rw [h1, show ackBarred (quiet s) n = false from h2, show unlocked (quiet s) n e = false from h3, show (quiet s).med.eom = false from hm] at ha
    refine ha.trans ((if_neg Bool.false_ne_true).trans ((if_neg Bool.false_ne_true).trans ?_))
    rcases h with h | h
    · exact if_pos h
    · rw [show ackRoom (quiet s) n e = false from h]
      exact ite_self _
  · have hs := act_live hl (acknowledgeOne n)
    rw [acknowledgeOne_commits (s := quiet s) ho h1 h2 h3 hm hw hr] at hs
    refine ⟨fun note hv hb => ?_, fun v x hv hb => ?_, fun a hv => ?_⟩
    · rw [commitEntry_mark hv] at hs
      obtain ⟨p, m, d, hu, hen, hnx, hun⟩ := committing_pushes (s := quiet s) hb he .mark (markContent note)
      rw [hu] at hs
      obtain ⟨d', q, hc, hend, hdn⟩ := complete_saddle hen hn 
        { status := .ok, fields := fnum "girth" (d[n].next - 1) :: ewField { quiet s with pool := p, med := m, sad := d } n }
      dsimp only at hs
      rw [hc] at hs
      refine ⟨_, _, hs, hend, rfl, ?_, ?_, ?_, rfl, rfl⟩
      · rw [hnx]
        rfl
      · exact (congrArg Saddle.next hdn).trans hnx
      · exact (congrArg Saddle.unsync hdn).trans hun
    · rw [commitEntry_time hv] at hs
      obtain ⟨p, m, d, hu, hen, hnx, hun⟩ := committing_pushes (s := quiet s) hb he .time
        (timeContent (v.getD 0) e.startPtc.toNat (committing (quiet s) n e).clk.session (x.getD ""))
      rw [hu] at hs
      have ht := timeDone_eq (s := s) (u := { quiet s with pool := p, med := m, sad := d }) rfl rfl n e (v.getD 0) (x.getD "")
      rw [hnx] at ht
      obtain ⟨d', q, hc, hend, hdn⟩ := complete_saddle (s := { heldLogAt { quiet s with pool := p, med := m, sad := d } e.startPtc 3 n.val
        (twos 64 (v.getD 0)) with evt := (timeEvent s n.val e.startPtc (v.getD 0) (x.getD "")).evt }) hen hn _
      rw [ht.trans hc] at hs
      refine ⟨_, hs, hend, ?_, ?_, List.length_append, rfl, rfl⟩
      · exact (congrArg Saddle.next hdn).trans hnx
      · exact (congrArg Saddle.unsync hdn).trans hun
    · obtain ⟨r, hw'⟩ := commitEntry_write (s := quiet s) (n := n) hv
      have hen := committing_entry (s := quiet s) he
      obtain ⟨m, x, q, hx, hlocks, hxn⟩ := committing_eq (quiet s) n e
      obtain ⟨⟨d, p, f, hf⟩, hq⟩ := feed_bufOnly n a.recEnd (e.data.length + 1) e.data (committing (quiet s) n e)
      rw [hw'] at hs
      rw [hx] at hs hen hf hq
      rw [hf] at hs hq
      have hen' := (entryOf_congr (s := { quiet s with med := m, sad := x }) (t := { quiet s with med := m, sad := d, pool := p, free := f })
        (ch := .sad n) hq e.tag).trans hen
      obtain ⟨d', q', hc, hend, -⟩ := complete_saddle hen' hn { status := .ok, fields := fnum "girth" x[n].next :: r }
      rw [show complete _ _ _ _ = _ from hc] at hs
      refine ⟨_, _, hs, hend, rfl, ?_, rfl, rfl, hlocks⟩
      rw [hxn]
      rfl
  · have ha := acknowledgeOne_of (s := quiet s) ho
    rw [h1, show ackBarred (quiet s) n = false from h2, show unlocked (quiet s) n e = false from h3] at ha
    have hx := ha.trans ((if_neg Bool.false_ne_true).trans (if_pos hm))
    obtain ⟨d, q, hd, hend, hdn⟩ := endWithout_saddle (s := quiet s) he hn { status := .eom }
    have hs := act_live hl (acknowledgeOne n)
    rw [hx, hd] at hs
    refine ⟨_, hs, hend, ?_, ?_⟩
    · exact (congrArg Saddle.next hdn :)
    · exact (congrArg Saddle.unsync hdn :)

end Sys2Proof.Machine
end

section
/-! SUPPORT. READ from start to end (R142, R145, R158, R160, R193). -/

namespace Sys2Proof.Machine

open Sys2Proof

/-! ### The READ in turn (R142, R158) -/

/-- The READ in turn with its first girth settled (R158). -/
def settled (s : State) (n : SadNo) (e : Entry) (a : ReadArgs) : Entry :=
  if e.placed then e else { e with placed := true, girth0 := a.girth.getD s.sad[n].readPos }

theorem settled_tag (s : State) (n : SadNo) (e : Entry) (a : ReadArgs) : (settled s n e a).tag = e.tag := by
  unfold settled
  split <;> rfl

/-- With a cartridge loaded the READ in turn goes on: its girth is settled, and the pool gives it references (R158). -/
theorem readOn_loaded {s : State} {n : SadNo} {e : Entry} {a : ReadArgs} (h : readEntry s n = some (e, a))
    (hg : (gather s n (settled s n e a) a).2 ≠ .tape ∨ s.cart.loaded = true) :
    ∃ p f, readOn s n = modEntry { s with pool := p } (.sad n) e.tag f ∧
      ∀ x, (f x).tag = x.tag ∧ (f x).ended = x.ended ∧ (f x).begun = x.begun ∧ (f x).placed = true ∧ (f x).girth0 = (settled s n e a).girth0 := by
  have hstep : readOn s n =
      (let e := settled s n e a
       let (ps, why) := gather s n e a
       if why = .tape && !s.cart.loaded then complete s (.sad n) e.tag { status := .notape }
       else
         let own := (followOf s n).isNone
         let ts := if own then ps.take (takeable s e ps) else e.pieces
         let new := refsWanted e ts
         let lock := if why = .locked then some (e.lockAt.getD s.clk.ptc) else none
         let w := if own && ts.length < ps.length then .pool else whyOf why
         let s := new.foldl (fun s c => takeRef s c (.reader n)) s
         modEntry s (.sad n) e.tag fun x => { x with
           placed := true, girth0 := e.girth0, pieces := ts, refs := e.refs ++ new, fromTape := e.fromTape || why = .tape, lockAt := lock
           why := if x.why == .engine && w == .none then .engine else w }) := by
    unfold readOn
    rw [h]
    rfl
  rw [hstep]
  dsimp only
  have ht := settled_tag s n e a
  generalize settled s n e a = e' at hg ht
  generalize gather s n e' a = m at hg
  obtain ⟨ps, why⟩ := m
  have hc : ¬ (decide (why = .tape) && !s.cart.loaded) = true := by
    rcases hg with hg | hg
    · simp [hg]
    · simp [hg]
  dsimp only
  rw [if_neg hc, ht]
  obtain ⟨p, hp⟩ := foldl_takeRef_pool (.reader n) (refsWanted e' (if (followOf s n).isNone = true then ps.take (takeable s e' ps) else e'.pieces)) s
  rw [hp]
  exact ⟨p, _, rfl, fun x => ⟨rfl, rfl, rfl, rfl, rfl⟩⟩

/-- A READ that needs the tape ends with NOTAPE while nothing is loaded (R158). -/
theorem readOn_notape {s : State} {n : SadNo} {e : Entry} {a : ReadArgs} (h : readEntry s n = some (e, a))
    (hg : (gather s n (settled s n e a) a).2 = .tape) (hl : s.cart.loaded = false) :
    readOn s n = complete s (.sad n) e.tag { status := .notape } := by
  unfold readOn
  rw [h]
  dsimp only
  rw [show (if e.placed = true then e else { e with placed := true, girth0 := a.girth.getD s.sad[n].readPos }) = settled s n e a from rfl]
  have ht := settled_tag s n e a
  generalize settled s n e a = e' at hg ht
  generalize gather s n e' a = m at hg
  obtain ⟨ps, why⟩ := m
  obtain rfl : why = .tape := hg
  dsimp only
  rw [if_pos (by simp [hl]), ht]

/-- Going on writes the pool and the saddle's queue. -/
theorem readOn_eq (s : State) (n : SadNo) : ∃ p d, readOn s n = { s with pool := p, sad := d } := by
  cases h : readEntry s n with
  | none =>
    unfold readOn
    rw [h]
    exact ⟨_, _, rfl⟩
  | some x =>
    obtain ⟨e, a⟩ := x
    by_cases hg : (gather s n (settled s n e a) a).2 ≠ .tape ∨ s.cart.loaded = true
    · obtain ⟨p, f, hx, -⟩ := readOn_loaded h hg
      exact ⟨p, _, hx⟩
    · obtain ⟨hg, hl⟩ := not_or.1 hg
      exact ⟨_, _, readOn_notape h (not_not.1 hg) (Bool.eq_false_iff.2 hl)⟩

/-- Starting the tape for a READ writes the read chain and the position. -/
theorem readTape_eq (s : State) : ∃ r m, readTape s = { s with rd := r, med := m } := by
  unfold readTape startRead loadSeeds
  split
  · dsimp only
    split
    · exact ⟨_, _, rfl⟩
    · exact ⟨_, _, rfl⟩
  · exact ⟨_, _, rfl⟩

/-- With nothing loaded the tape does not start. -/
theorem readTape_empty {s : State} (h : s.cart.loaded = false) : readTape s = s := by
  have hm : mayRead s = false := by simp [mayRead, h]
  unfold readTape
  rw [hm, Bool.and_false, Bool.false_and]
  rfl

/-- The READ that starts is the one in turn where its saddle's first one open is it (R142, R143). -/
theorem readEntry_begun {s z : State} {n : SadNo} {t : Nat} {a : ReadArgs} {e : Entry} (hq : z.sad[n].q = begunQueue s (.sad n) t)
    (he : entryOf s (.sad n) t = some e) (hp : e.phase = .executing) (hv : e.verb = .read a) (hr : e.res = none)
    (hf : (s.sad[n].q.entries.find? fun e => e.ended.isNone && runKind e.verb = 2) = some e) :
    readEntry z n = some ({ e with begun := true }, a) := by
  have ht : (e.tag == t) = true := List.find?_some (p := fun e : Entry => e.tag == t) he
  have hz : (z.sad[n].q.entries.find? fun e => e.ended.isNone && runKind e.verb = 2) = some { e with begun := true } := by
    have hpred : ((fun e : Entry => e.ended.isNone && decide (runKind e.verb = 2)) ∘ fun e => if e.tag == t then { e with begun := true } else e) =
        fun e => e.ended.isNone && decide (runKind e.verb = 2) := by
      funext x
      dsimp only [Function.comp]
      split <;> rfl
    rw [hq, begunQueue, List.find?_map, hpred]
    refine (congrArg _ hf).trans ?_
    rw [Option.map_some, if_pos ht]
  unfold readEntry
  rw [hz]
  dsimp only
  rw [hv]
  simp [hp, hr]

/-! ### What a READ finds (R158, R193) -/

theorem collect_tape {s : State} {n : SadNo} {z : Bool} {len g got k : Nat} {acc : List Piece} (hl : got < len)
    (hf : (match findFor s n z g with
      | .tape => True
      | _ => False)) : collect s n z len (k + 1) g got acc = (acc.reverse, .tape) := by
  unfold collect
  rw [if_neg (Nat.not_le.2 hl)]
  cases h : findFor s n z g with
  | tape => rfl
  | piece p => rw [h] at hf; exact hf.elim
  | locked => rw [h] at hf; exact hf.elim
  | eod => rw [h] at hf; exact hf.elim

/-- A READ whose first girth is on tape and nowhere else has found nothing (R158). -/
theorem gather_first {s : State} {n : SadNo} {e : Entry} {a : ReadArgs} (hp : e.placed = false) (hn : e.pieces = []) (ha : 0 < a.len)
    (hf : (match findFor s n (fillZero s a) (a.girth.getD s.sad[n].readPos) with
      | .tape => True
      | _ => False)) : (gather s n (settled s n e a) a).2 = .tape := by
  have hpos : 0 < readFuel s n := by
    unfold readFuel
    dsimp only
    omega
  obtain ⟨k, hk⟩ := Nat.exists_eq_succ_of_ne_zero (Nat.pos_iff_ne_zero.1 hpos)
  have he : settled s n e a = { e with placed := true, girth0 := a.girth.getD s.sad[n].readPos } :=
    if_neg (by rw [hp]; exact Bool.false_ne_true)
  unfold gather
  rw [he, hk]
  dsimp only
  rw [hn]
  exact congrArg Prod.snd (collect_tape ha hf)

/-- What is found at a girth does not rest on a saddle's queue and on when it last read. -/
theorem findFor_quiet {s : State} {n : SadNo} {d : Vector Saddle 8} {q : Queue} {r : Option W64}
    (h : d[n] = { s.sad[n] with q := q, lastRead := r }) (b : Bool) (g : Nat) :
    findFor { quiet s with sad := d } n b g = findFor s n b g := by
  unfold findFor findMonitor findGirth findOwn ownCaddy
  dsimp only
  rw [h]
  rfl

theorem collect_congr {s z : State} {n : SadNo} {b : Bool} (h : ∀ g, findFor z n b g = findFor s n b g) (len : Nat) :
    ∀ (k g got : Nat) (acc : List Piece), collect z n b len k g got acc = collect s n b len k g got acc
  | 0, _, _, _ => rfl
  | k + 1, g, got, acc => by
    unfold collect
    rw [h g]
    split
    · rfl
    · cases findFor s n b g with
      | piece p =>
        dsimp only
        rw [collect_congr h len k]
      | tape => rfl
      | locked => rfl
      | eod => rfl

theorem gather_quiet (s : State) (n : SadNo) (e : Entry) (a : ReadArgs) : gather (quiet s) n e a = gather s n e a :=
  collect_congr (s := s) (z := quiet s) (fun g => findFor_quiet (s := s) (n := n) (d := s.sad) rfl (fillZero s a) g) a.len (readFuel s n) _ _ _

/-! ### Delivery (R145, R193) -/

/-- The READ in turn is a command of its saddle that has not ended. -/
theorem readEntry_open {s : State} {n : SadNo} {e : Entry} {a : ReadArgs} (h : readEntry s n = some (e, a)) : e.ended = none := by
  unfold readEntry at h
  split at h
  · next x hx =>
    split at h
    · split at h
      · obtain ⟨rfl, -⟩ := Prod.mk.inj (Option.some.inj h)
        have hp := List.find?_some hx
        simp only [Bool.and_eq_true, Option.isNone_iff_eq_none] at hp
        exact hp.1
      · exact absurd h (Option.some_ne_none _).symm
    · exact absurd h (Option.some_ne_none _).symm
  · exact absurd h (Option.some_ne_none _).symm

/-- What a delivered READ leaves of its saddle: the read position past its girths, and its counts (R193, R252, R257). -/
def readPast (e : Entry) (ps : List Piece) (x : Saddle) : Saddle :=
  let next := e.girth0 + ps.length
  { x with
    readPos := next, lag := 0
    monData := x.monData.filter (next ≤ ·.seq), monRefs := x.monRefs.filter (next ≤ ·.1)
    cnt := { x.cnt with malf := incBy x.cnt.malf (ps.filter (·.bad)).length, hole := incBy x.cnt.hole (ps.filter fun p => p.hole && !p.skipped).length,
                        sealSkip := incBy x.cnt.sealSkip (ps.filter (·.noKey)).length } }

/-- A READ that read-ahead served counts as its hit, and its saddle is past the girths (R193, R349). -/
def afterRead (s : State) (n : SadNo) (e : Entry) (ps : List Piece) : State :=
  modSad { s with rd := { s.rd with raHit := if ps.any (·.stored) && !e.fromTape then inc s.rd.raHit else s.rd.raHit } } n (readPast e ps)

theorem afterRead_eq (s : State) (n : SadNo) (e : Entry) (ps : List Piece) : ∃ r d, afterRead s n e ps = { s with rd := r, sad := d } ∧
    d[n] = readPast e ps s.sad[n] :=
  ⟨_, _, rfl, modSad_get_same { s with rd := { s.rd with raHit := if ps.any (·.stored) && !e.fromTape then inc s.rd.raHit else s.rd.raHit } } n _⟩

/-- A girth that no key opened is logged (R257). -/
def skipLogged (s : State) (n : SadNo) (ps : List Piece) : State :=
  match ps.filter (·.noKey) with
  | p :: _ => logE s .warn n.val 0x0304 [("girth", 5, p.seq)]
  | [] => s

theorem skipLogged_eq (s : State) (n : SadNo) (ps : List Piece) : ∃ v p d i, skipLogged s n ps = { s with evt := v, pcie := p, sad := d } ∧
    d[n] = { s.sad[n] with irq := i } := by
  unfold skipLogged
  split
  · next x _ _ =>
    obtain ⟨v, p, d, h⟩ := logE_eq s .warn n.val 0x0304 [("girth", 5, x.seq)] none
    obtain ⟨i, hi⟩ := logE_saddle s .warn n.val 0x0304 [("girth", 5, x.seq)] none n
    rw [h] at hi
    exact ⟨v, p, d, i, h, hi⟩
  · exact ⟨_, _, _, s.sad[n].irq, rfl, rfl⟩

/-- The bytes of a READ are counted in its entry (R193). -/
def gotBytes (s : State) (n : SadNo) (e : Entry) (ps : List Piece) : State :=
  modEntry (skipLogged (afterRead s n e ps) n ps) (.sad n) e.tag fun e => { e with got := (ps.flatMap (·.bytes)).length }

/-- What counts a READ's bytes: its entry stays open, and the read position is past its girths. -/
theorem gotBytes_eq {s : State} {n : SadNo} {e x : Entry} (ps : List Piece) (hx : entryOf s (.sad n) e.tag = some x) :
    ∃ r v p d k, gotBytes s n e ps = { s with rd := r, evt := v, pcie := p, sad := d } ∧ d[n].readPos = e.girth0 + ps.length ∧
      entryOf { s with rd := r, evt := v, pcie := p, sad := d } (.sad n) e.tag = some { x with got := k } := by
  obtain ⟨r, d, ha, hd⟩ := afterRead_eq s n e ps
  obtain ⟨v, p, d', i, hs, hd'⟩ := skipLogged_eq { s with rd := r, sad := d } n ps
  have hq' : d'[n].q = s.sad[n].q := (congrArg Saddle.q hd' :).trans (congrArg Saddle.q hd :)
  have hx' := (entryOf_congr (s := s) (t := { s with rd := r, evt := v, pcie := p, sad := d' }) (ch := .sad n) hq' e.tag).trans hx
  obtain ⟨d'', q, hm, he, hd''⟩ := modEntry_changes hx' (f := fun e => { e with got := (ps.flatMap (·.bytes)).length }) fun _ => rfl
  refine ⟨r, v, p, d'', _, ?_, ?_, he⟩
  · unfold gotBytes
    rw [ha, hs]
    exact hm
  · exact (congrArg Saddle.readPos hd'' :).trans ((congrArg Saddle.readPos hd' :).trans (congrArg Saddle.readPos hd :))

/-- A READ's bytes leave by its saddle's binding (R145, R193). -/
theorem readFinish_steps (s : State) (n : SadNo) (e : Entry) (ps : List Piece) (short : Option Nat) (eod : Bool) : ∃ f : PortNo → State,
    readFinish s n e ps short eod = (match bindOf (gotBytes s n e ps) n with
      | .sp p => f p
      | .vf =>
        let s' := complete (gotBytes s n e ps) (.sad n) e.tag (readOutcome s n e.girth0 ps short eod)
        { s' with out := { s'.out with dma := s'.out.dma ++ scatter (vfOf n) e.segs (ps.flatMap (·.bytes)), hostBuf := ps.flatMap (·.bytes) } }
      | _ =>
        let s' := complete (gotBytes s n e ps) (.sad n) e.tag (readOutcome s n e.girth0 ps short eod)
        { s' with out := { s'.out with hostBuf := ps.flatMap (·.bytes) } }) := ⟨_, rfl⟩

/-- A READ not bound to a port completes as it is delivered (R145, R193). -/
theorem readFinish_eq {s : State} {n : SadNo} {e x : Entry} (ps : List Piece) (short : Option Nat) (eod : Bool)
    (hx : entryOf s (.sad n) e.tag = some x) (hn : x.ended = none) (hb : ∀ p, bindOf s n ≠ .sp p) : ∃ r v p d o,
      readFinish s n e ps short eod = { s with rd := r, evt := v, pcie := p, sad := d, out := o } ∧
      EndedWith { s with rd := r, evt := v, pcie := p, sad := d, out := o } (.sad n) e.tag (readOutcome s n e.girth0 ps short eod) ∧
      d[n].readPos = e.girth0 + ps.length ∧ o.hostBuf = ps.flatMap (·.bytes) := by
  obtain ⟨f, hs⟩ := readFinish_steps s n e ps short eod
  obtain ⟨r, v, p, d, k, hg, hpos, hx'⟩ := gotBytes_eq ps hx
  obtain ⟨d', q, hc, hend, hd⟩ := complete_saddle hx' hn (readOutcome s n e.girth0 ps short eod)
  have hpos' : d'[n].readPos = e.girth0 + ps.length := (congrArg Saddle.readPos hd :).trans hpos
  have hbind : bindOf (gotBytes s n e ps) n = bindOf s n := by
    rw [hg]
    rfl
  rw [hbind, hg, hc] at hs
  rw [hs]
  cases h : bindOf s n with
  | sp p => exact absurd h (hb p)
  | vf => exact ⟨r, v, p, d', _, rfl, hend, hpos', rfl⟩
  | console => exact ⟨r, v, p, d', _, rfl, hend, hpos', rfl⟩
  | none => exact ⟨r, v, p, d', _, rfl, hend, hpos', rfl⟩

/-- Host DMA carries all of a READ's bytes where the tick leaves it room for them (R19). -/
theorem sendRead_whole {s : State} {n : SadNo} {e : Entry} {k : Nat} (he : entryOf s (.sad n) e.tag = some e)
    (hr : bindOf s n = .vf → k ≤ e.sent + dmaOutRoom s n) : ∃ u d x, sendRead s n e k = ({ s with used := u, sad := d }, true) ∧
      entryOf { s with used := u, sad := d } (.sad n) e.tag = some x ∧ x.ended = e.ended ∧ d[n].lag = s.sad[n].lag := by
  unfold sendRead
  split
  · exact ⟨_, _, e, rfl, he, rfl, rfl⟩
  · next hb =>
    have hv : bindOf s n = .vf := by simpa using hb
    have hw : k ≤ e.sent + min (dmaOutRoom s n) (k - e.sent) := by
      have := hr hv
      omega
    dsimp only
    rw [decide_eq_true hw]
    obtain ⟨d, q, hm, hx, hd⟩ := modEntry_changes (s := { s with used := { s.used with dmaOut := s.used.dmaOut + min (dmaOutRoom s n) (k - e.sent) } }) he
      (f := fun x => { x with sent := x.sent + min (dmaOutRoom s n) (k - e.sent), why := if true then .none else .engine }) fun _ => rfl
    exact ⟨_, d, _, Prod.ext hm rfl, hx, rfl, (congrArg Saddle.lag hd :)⟩

/-- A READ whose work the engines have done is delivered where its bytes can go (R19, R20, R145, R193). -/
theorem deliverRead_eq {s : State} {n : SadNo} {e : Entry} {ps : List Piece} (short : Option Nat) (eod : Bool)
    (he : entryOf s (.sad n) e.tag = some e) (hn : e.ended = none) (hb : ∀ p, bindOf s n ≠ .sp p) (hd : allDecoded { e with pieces := ps } = true)
    (hr : bindOf s n = .vf → sumL (ps.map (·.bytes.length)) ≤ e.sent + dmaOutRoom s n) : ∃ u r v p d o,
      deliverRead s n e ps short eod = { s with used := u, rd := r, evt := v, pcie := p, sad := d, out := o } ∧
      EndedWith { s with used := u, rd := r, evt := v, pcie := p, sad := d, out := o } (.sad n) e.tag (readOutcome s n e.girth0 ps short eod) ∧
      d[n].readPos = e.girth0 + ps.length ∧ o.hostBuf = ps.flatMap (·.bytes) := by
  obtain ⟨u, d, x, hs, hx, hxe, hlag⟩ := sendRead_whole he hr
  obtain ⟨r, v, p, d', o, hf, hend, hpos, ho⟩ := readFinish_eq (s := { s with used := u, sad := d }) ps short eod hx (hxe.trans hn) hb
  have hout : readOutcome { s with used := u, sad := d } n e.girth0 ps short eod = readOutcome s n e.girth0 ps short eod := by
    unfold readOutcome
    dsimp only
    rw [hlag]
    rfl
  rw [hout] at hend
  refine ⟨u, r, v, p, d', o, ?_, hend, hpos, ho⟩
  unfold deliverRead
  rw [hd, hs]
  exact hf

/-! ### The steps (R142, R145, R158, R160) -/

theorem readDelivered_full {s u : State} {n : SadNo} {e : Entry} {a : ReadArgs} {ps : List Piece} (hu : readOn s n = u)
    (hr : readEntry u n = some (e, a)) (hg : gather u n e a = (ps, .full) ∨ gather u n e a = (ps, .eod))
    (hl : ps.length = e.pieces.length ∨ (followOf u n).isSome) :
    readDelivered n s = deliverRead u n e ps none (decide ((gather u n e a).2 = .eod)) := by
  have hc : (decide (ps.length = e.pieces.length) || (followOf u n).isSome) = true := by simpa using hl
  unfold readDelivered
  rw [hu]
  dsimp only
  rw [hr]
  dsimp only
  rcases hg with hg | hg
  · rw [hg]
    exact if_pos hc
  · rw [hg]
    exact if_pos hc

theorem readDelivered_locked {s u : State} {n : SadNo} {e : Entry} {a : ReadArgs} {ps : List Piece} (hu : readOn s n = u)
    (hr : readEntry u n = some (e, a)) (hg : gather u n e a = (ps, .locked)) : readDelivered n s = u := by
  unfold readDelivered
  rw [hu]
  dsimp only
  rw [hr]
  dsimp only
  rw [hg]

/-- A wait for a range lock that has lasted its ticks delivers the girths before the lock (R160, log 24). -/
theorem lockExpiry_delivers {s : State} {n : SadNo} {e : Entry} {a : ReadArgs} {ps : List Piece} {w : W64} (hr : readEntry s n = some (e, a))
    (hg : gather s n e a = (ps, .locked)) (hw : e.lockAt = some w) (hm : pnat s .lockMode = 1) (ht : w.toNat + pnat s .lockMaxTicks ≤ now s) :
    ∃ k, lockExpiry n s = deliverRead s n e ps (some k) false := by
  unfold lockExpiry
  rw [hr]
  dsimp only
  rw [hg, hw]
  exact ⟨_, if_pos (by rw [decide_eq_true hm, decide_eq_true ht]; rfl)⟩

/-- The state in which a READ that starts goes on: the tick of the saddle's last READ is noted (R349). -/
def readNoted (s : State) (n : SadNo) (t : Nat) : State :=
  modSad (withQueue (quiet s) (.sad n) (begunQueue s (.sad n) t)) n fun x => { x with lastRead := some s.clk.ptc }

theorem readNoted_eq (s : State) (n : SadNo) (t : Nat) : ∃ d, readNoted s n t = { quiet s with sad := d } ∧
    d[n] = { s.sad[n] with q := begunQueue s (.sad n) t, lastRead := some s.clk.ptc } := by
  refine ⟨_, rfl, ?_⟩
  have h := modSad_get_same (withQueue (quiet s) (.sad n) (begunQueue s (.sad n) t)) n fun x => { x with lastRead := some s.clk.ptc }
  rw [show (withQueue (quiet s) (.sad n) (begunQueue s (.sad n) t)).sad[n.val] = _ from modSad_get_same (quiet s) n _] at h
  exact h

theorem exec_read {s : State} {n : SadNo} {t : Nat} {a : ReadArgs} (h : Runs s (.sad n) t (.read a)) : exec (.read n (some t) a) s =
    .next { readTape (readOn (readNoted s n t) n) with clk := s.clk, pending := s.pending } := by
  have hx := verbRow_runs h (readBegin n a)
  rw [begins_eq] at hx
  exact hx

/-- With a cartridge loaded the READ's own entry stays open, and of its saddle the read of this tick is noted (R142, R349). -/
theorem readOn_stays {s : State} {n : SadNo} {t : Nat} {e : Entry} (h : entryOf s (.sad n) t = some e) (hl : s.cart.loaded = true) :
    ∃ p d q x, readOn s n = { s with pool := p, sad := d } ∧ d[n] = { s.sad[n] with q := q } ∧
      entryOf { s with pool := p, sad := d } (.sad n) t = some x ∧ x.ended = e.ended ∧ x.begun = e.begun ∧
      ∀ a, readEntry s n = some (e, a) → x.placed = true ∧ x.girth0 = (settled s n e a).girth0 := by
  cases hr : readEntry s n with
  | none =>
    refine ⟨_, _, s.sad[n].q, e, ?_, rfl, h, rfl, rfl, fun a ha => absurd ha (Option.some_ne_none _).symm⟩
    unfold readOn
    rw [hr]
  | some y =>
    obtain ⟨e', a⟩ := y
    obtain ⟨p, f, hx, hf⟩ := readOn_loaded hr (.inr hl)
    by_cases ht : t = e'.tag
    · subst ht
      obtain ⟨d, q, hm, hx', hd⟩ := modEntry_changes (s := { s with pool := p }) h (f := f) fun x => (hf x).1
      refine ⟨p, d, q, f e, hx.trans hm, hd, hx', (hf e).2.1, (hf e).2.2.1, fun b hb => ?_⟩
      obtain ⟨rfl, rfl⟩ := Prod.mk.inj (Option.some.inj hb)
      exact (hf _).2.2.2
    · obtain ⟨q, hm⟩ := modEntry_withQueue { s with pool := p } (.sad n) e'.tag f
      have ho := (entryOf_modEntry_other { s with pool := p } (.sad n) ht f fun x => (hf x).1).trans h
      rw [hm] at ho
      refine ⟨p, _, q, e, hx.trans hm, Vector.getElem_set_self _, ho, rfl, rfl, fun b hb => ?_⟩
      obtain ⟨rfl, -⟩ := Prod.mk.inj (Option.some.inj hb)
      exact absurd (beq_iff_eq.1 (List.find?_some (p := fun x : Entry => x.tag == t) h)).symm ht

/-- Settles O46: a READ's start by the one in turn, its delivery by what host DMA and the engines let go, and the end of its lock wait. -/
theorem reads : Obligations.Reads := by
  refine ⟨fun s n t a h hl => ?_, fun s n t a h hl hf hp hg ha => ?_, fun s u n e a ps hl hu hr he hb hg hc hd hv => ?_,
    fun s u n e a ps hl hu hr hg => ?_, fun s n e a ps w hl hr he hb hg hw hm ht hd hv => ?_⟩
  · have hs := exec_read h
    obtain ⟨-, -, -, e, he, hph, hve, hbe, hn⟩ := h
    obtain ⟨d, hz, hd⟩ := readNoted_eq s n t
    have hz' : entryOf (readNoted s n t) (.sad n) t = some { e with begun := true } :=
      (entryOf_modSad (s := withQueue (quiet s) (.sad n) (begunQueue s (.sad n) t)) rfl t).trans (entryOf_begun he (quiet s))
    rw [hz] at hs hz'
    obtain ⟨p, d', q, x, ho, hd', hx, hxe, hxb, hpl⟩ := readOn_stays (s := { quiet s with sad := d }) hz' hl
    rw [ho] at hs
    obtain ⟨r, m, hrt⟩ := readTape_eq { quiet s with sad := d', pool := p }
    rw [show readTape _ = _ from hrt] at hs
    have hlast : d'[n].lastRead = some s.clk.ptc := (congrArg Saddle.lastRead hd' :).trans (congrArg Saddle.lastRead hd :)
    refine ⟨_, x, hs, hx, hxe.trans hn, hxb, fun hfirst hun => ?_, hlast, rfl, rfl, rfl⟩
    obtain ⟨hpe, hre⟩ := hun e he
    have hr := readEntry_begun (s := s) (z := { quiet s with sad := d }) (congrArg Saddle.q hd :) he hph hve hre (hfirst.trans he)
    obtain ⟨h1, h2⟩ := hpl a hr
    refine ⟨h1, h2.trans ?_⟩
    unfold settled
    rw [show ({ e with begun := true } : Entry).placed = false from hpe]
    exact congrArg (fun g => a.girth.getD g) (congrArg Saddle.readPos hd :)
  · have hs := exec_read h
    obtain ⟨-, -, -, e, he, hph, hve, hbe, hn⟩ := h
    obtain ⟨hpe, hre, hpi⟩ := hp e he
    obtain ⟨d, hz, hd⟩ := readNoted_eq s n t
    have hz' : entryOf (readNoted s n t) (.sad n) t = some { e with begun := true } :=
      (entryOf_modSad (s := withQueue (quiet s) (.sad n) (begunQueue s (.sad n) t)) rfl t).trans (entryOf_begun he (quiet s))
    rw [hz] at hs hz'
    have hr := readEntry_begun (s := s) (z := { quiet s with sad := d }) (congrArg Saddle.q hd :) he hph hve hre (hf.trans he)
    have ht : e.tag = t := beq_iff_eq.1 (List.find?_some (p := fun x : Entry => x.tag == t) he)
    have hgather := gather_first (s := { quiet s with sad := d }) (n := n) (e := { e with begun := true }) (a := a) hpe hpi ha (by
      rw [show ({ quiet s with sad := d } : State).sad[n].readPos = s.sad[n].readPos from (congrArg Saddle.readPos hd :)]
      rw [show fillZero { quiet s with sad := d } a = fillZero s a from rfl, findFor_quiet hd]
      exact hg)
    have ho := readOn_notape hr hgather hl
    obtain ⟨d', q, hc, hend, hd'⟩ := complete_saddle (s := { quiet s with sad := d }) hz' hn { status := .notape }
    rw [show ({ e with begun := true } : Entry).tag = t from ht, hc] at ho
    rw [ho, readTape_empty (s := { quiet s with sad := d' }) hl] at hs
    exact ⟨_, hs, hend, (congrArg Saddle.readPos hd' :).trans (congrArg Saddle.readPos hd :), rfl, rfl, rfl⟩
  · have hs := act_live hl (readDelivered n)
    obtain ⟨p, d, ho⟩ := readOn_eq (quiet s) n
    obtain rfl : { quiet s with pool := p, sad := d } = u := ho.symm.trans hu
    obtain ⟨k, r, v, c, d', o, hx, hend, hpos, hout⟩ :=
      deliverRead_eq none (decide ((gather _ n e a).2 = .eod)) he (readEntry_open hr) hb hd hv
    rw [readDelivered_full hu hr hg hc, hx] at hs
    exact ⟨_, hs, hend, hpos, hout, rfl, rfl⟩
  · obtain ⟨p, d, ho⟩ := readOn_eq (quiet s) n
    have hk : u = { quiet s with pool := p, sad := d } := hu.symm.trans ho
    exact act_effect hl (readDelivered_locked hu hr hg) (by rw [hk]; rfl) (by rw [hk]; rfl)
  · have hs := act_live hl (lockExpiry n)
    obtain ⟨k, hx⟩ := lockExpiry_delivers (s := quiet s) hr ((gather_quiet s n e a).trans hg) hw hm ht
    obtain ⟨u, r, v, c, d, o, hx', hend, hpos, hout⟩ := deliverRead_eq (s := quiet s) (some k) false he (readEntry_open hr) hb hd hv
    rw [hx, hx'] at hs
    exact ⟨_, k, hs, hend, hpos, rfl, rfl⟩

end Sys2Proof.Machine
end
